-- ==== Sys2Proof/Word.lean ====
section
/-!
DEFINITION. The word types of the TVK4512 model and the identifiers of R13: what a command's operands are written in.
-/
namespace Sys2Proof

/-- A register word (R8). -/
abbrev Word := BitVec 32
/-- A byte of memory or of a frame. -/
abbrev Byte := BitVec 8
/-- A global core index, cluster × 8 + core (R13). -/
abbrev CoreId := Fin 32
/-- A cluster (R13). -/
abbrev ClusterId := Fin 4
/-- A stall (R13); stall 0 is the firmware's. -/
abbrev StallId := Fin 16
/-- A ring (R13). -/
abbrev RingId := Fin 64
/-- A stream context (R13). -/
abbrev StreamId := Fin 128
/-- A standing graph (R34). -/
abbrev GraphId := Fin 64
/-- A port of a three-port unit: Ethernet 0, 1 and 2 (management), or Bilvan 0, 1 and 2. -/
abbrev PortId := Fin 3

/-- The tag that every fabric transaction carries (R22); KIND is the operation itself. -/
structure Tag where
  /-- STALL: the stall on whose behalf the transaction is made. -/
  stall : StallId
  /-- INITIATOR: the source ID of the issuing unit (R14). -/
  initiator : BitVec 12
  /-- ORIGIN: the device where the transaction began. -/
  origin : Fin 4
  deriving DecidableEq, Repr

/-- Who writes a register: the tag, and the Barrow session that the write is of, 0 where it is no session's (R34, R404). -/
structure Writer where
  tag : Tag
  session : BitVec 16
  deriving DecidableEq, Repr

/-- A bit that flipped in a cell of an engine during a pass: which pass of the command, the accumulator or checksum it lies in, the bit, and whether it flips in the re-run as well. -/
inductive CellSite where
  /-- Accumulator of a row and a logical column. -/
  | data (row col : Nat)
  /-- Checksum-column cell of a row. -/
  | chkCol (row : Nat)
  /-- Checksum-row cell of a logical column. -/
  | chkRow (col : Nat)
  /-- The corner cell. -/
  | corner
  /-- No cell: the trim map's duplicate disagreed (R115). -/
  | trim
  /-- No cell: the drain's two conversion lanes disagreed (R115). -/
  | lane
  /-- No cell: the feeder's two address generators disagreed (R141). -/
  | gen
  deriving DecidableEq, Repr

/-- A fault in the cells of a pass (R101): the site and the bit inverted. -/
structure CellFault where
  site : CellSite
  bit : Fin 32
  deriving DecidableEq, Repr

/-- A fault in one pass of a command that runs several: the pass, counting from 0, the fault, and whether the re-run has it too. -/
structure PassFault where
  pass : Nat
  fault : CellFault
  again : Bool
  deriving DecidableEq, Repr

/-- A checker disagreement of a tidy unit (R176): the row and the sweep (from 1), the vector of the row, the stage and lane that disagreed, whether the re-evaluation disagrees too, and whether it was the feeder's two address generators that disagreed (R141) and not the copies of the lanes. In a run of CONV_TILE or FUSED_TILES the row names the tidy unit; stages count from 0. -/
structure LaneFault where
  row : Nat
  sweep : Nat
  vec : Nat
  stage : Nat
  lane : Nat
  again : Bool
  gen : Bool
  deriving DecidableEq, Repr

/-- A pass or vector of a probe that was not clean (R111): corrected, transient or failed (0 stands for a clean one), the 28-bit locations (R107, R177) of its first run and of its re-run, and whether the armed injection caused it (R116). -/
structure ProbeBad where
  outcome : Fin 4
  first : BitVec 28
  rerun : BitVec 28 := 0
  injected : Bool := false
  deriving DecidableEq, Repr

/-- The passes or chains that a probe ran (R78, R95), and how many of them ended with OVF set. -/
structure ProbePasses where
  ran : Nat
  ovf : Nat := 0
  deriving DecidableEq, Repr

/-- The bit-steps of a probe's passes or chains with recovery (R73, R95), and those that trimming saved. -/
structure ProbeSteps where
  ran : Nat
  saved : Nat := 0
  deriving DecidableEq, Repr

/-- A unit that escalation acts on: unit 0 (Twill engine), 2 or 3 (tidy units) of a core (R14). -/
structure UnitId where
  core : CoreId
  unit : Fin 8
  deriving DecidableEq, Repr

/-- What a peer device answers to DIGEST_PEER (R434): its image versions, and its entry. -/
structure PeerDigest where
  versions : List Word
  enabled : Bool
  digested : Bool
  modelId : BitVec 64
  digest : BitVec 256
  deriving DecidableEq, Repr

/-- The address of a host (R395, R401). -/
structure HostAddr where
  ipv6 : Bool
  addr : BitVec 128
  deriving DecidableEq, Repr

/-- A best-effort slice that has run (R316): its core, and the bit-steps the core has consumed in it. -/
structure SliceRun where
  core : CoreId
  steps : Nat
  deriving DecidableEq, Repr

/-- The outcome of a self-test slice (R460): the bit-steps it took, how many segments and patterns it ran, and the first that failed: entry, index, failing unit, CRC obtained. -/
structure SliceResult where
  steps : Nat
  ran : Nat
  fail : Option (Nat × Nat × Fin 8 × Word)
  deriving DecidableEq, Repr

/-- The levels of the strap pins sampled at the rise of PORST_N (R543). -/
structure Straps where
  devnum : Fin 4
  deriving DecidableEq, Repr

/-- What training of a Bilvan port found (R525, R526): the lanes with a signal and those that locked, by bit; the partner's device, port, link version range and seven image versions. -/
structure TrainResult where
  signal : BitVec 4
  locked : BitVec 4
  dev : Fin 4
  port : PortId
  minVer : BitVec 8
  maxVer : BitVec 8
  images : List Word
  deriving DecidableEq, Repr

/-- What a packet on a Bilvan link carries (R523): a write into the receiver's window, a signal, a forwarded fault record, the sender's FAULT_N level (true: low). -/
inductive BilMsg where
  | write (stall : StallId) (origin : Fin 4) (offset : BitVec 36) (data : List Byte)
  | signal (stall : StallId) (sig : BitVec 8) (value : BitVec 64)
  | record (r : BitVec 128)
  | level (low : Bool)
  deriving DecidableEq, Repr

/-- A packet that a Bilvan port receives (R524): a numbered message, an acknowledgement with the transaction's response, a NAK, or one whose CRC is wrong. -/
inductive BilPacket where
  | msg (seq : BitVec 12) (m : BilMsg)
  | ack (seq : BitVec 12) (ok : Bool)
  | nak
  | bad
  deriving DecidableEq, Repr

end Sys2Proof
end

