-- ==== Sys2Proof/Syntax.lean ====
section
/-!
DEFINITION. The commands of the TVK4512: one constructor for each of the 213 rows of the operation table, with the
operands its rule names. What a command brings from outside the block (bytes a host answered, a packet, a level, an
error that arose) is an operand; everything else it acts on is state.
-/
namespace Sys2Proof

/-- The commands (R of each row beside it). -/
inductive Instr where
  /-- TWILL_PASS (R90). Command that runs one Twill pass, or two passes under WARP16, on the job's core. Operands: job and idx name the command of a placed job. -/
  | twillPass (job idx : Nat)
  /-- CONV_TILE (R143). Command that computes one convolution output tile as runs on the engine or on the tidy units. Operands: job and idx name the command of a placed job. -/
  | convTile (job idx : Nat)
  /-- FUSED_TILES (R150). Command that runs a chain of 2 to 4 convolution stages over one spatial tile without pre-emption. Operands: job and idx name the command of a placed job. -/
  | fusedTiles (job idx : Nat)
  /-- TIDY_CHAIN (R180). Command that runs a chain of tidy-unit stages over every element of a shape. Operands: job and idx name the command of a placed job. faults are the checker disagreements that arise. -/
  | tidyChain (job idx : Nat) (faults : List LaneFault)
  /-- ATTN_BLOCK (R208). Command that expands latent tokens into keys and values and attends a block of queries over them. Operands: job and idx name the command of a placed job. faults are the cell faults of its passes, lanes the checker disagreements of the tidy units, the row naming the unit. -/
  | attnBlock (job idx : Nat) (faults : List PassFault) (lanes : List LaneFault)
  /-- DECODE_BATCH (R215). Command that attends absorbed queries over the latent windows of up to 4,096 contexts on the tidy units. Operands: job and idx name the command of a placed job. faults are the checker disagreements that arise. -/
  | decodeBatch (job idx : Nat) (faults : List LaneFault)
  /-- KV_SCATTER (R201). Command that checks and then writes tokens into context slots and tags, and updates the records. Operands: job and idx name the command of a placed job. -/
  | kvScatter (job idx : Nat)
  /-- CTX_CREATE (R195). Command that makes a set of FREE contexts ACTIVE with regions and parameters. Operands: job and idx name the command of a placed job. -/
  | ctxCreate (job idx : Nat)
  /-- CTX_RESET (R197). Command that empties or frees a set of contexts, judged by their generation. Operands: job and idx name the command of a placed job. -/
  | ctxReset (job idx : Nat)
  /-- MOVE (R253). Command that copies, strides, transposes or decrypts data on a porter. Operands: job and idx name the command of a placed job. -/
  | move (job idx : Nat)
  /-- FENCE (R282). Command that waits for earlier commands of the job or for a signal threshold. Operands: job and idx name the command of a placed job. -/
  | fence (job idx : Nat)
  /-- SIGNAL (R283). Command that raises a local or remote signal to at least VALUE, at once or after the job is journalled. Operands: job and idx name the command of a placed job. -/
  | signal (job idx : Nat)
  /-- WAIT_TIME (R379). Command that waits until an absolute or capture-relative counter time is reached. Operands: job and idx name the command of a placed job. -/
  | waitTime (job idx : Nat)
  /-- PUBLISH (R392). Command that checks selvages, presents the result to an age monitor and queues a frame train on a 10G publish queue. Operands: job and idx name the command of a placed job. -/
  | publish (job idx : Nat)
  /-- STATS_READ (R353). Command that copies one statistics record into the bolt, waiting for it if it is not yet written. Operands: job and idx name the command of a placed job. -/
  | statsRead (job idx : Nat)
  /-- SENSOR_WRITE (R355). Command that queues a sensor setting and tuning switch aimed at a frame, after the late test. Operands: job and idx name the command of a placed job. -/
  | sensorWrite (job idx : Nat)
  /-- DIGEST_REGISTER (R434). DIGEST mode 0: verifies a manifest, digests the region and enables a weight-digest entry. Operands: job and idx name the command of a placed job. -/
  | digestRegister (job idx : Nat)
  /-- DIGEST_CHECK (R434). DIGEST mode 1: digests an entry's region now and compares it. Operands: job and idx name the command of a placed job. -/
  | digestCheck (job idx : Nat)
  /-- DIGEST_PEER (R434). DIGEST mode 2: compares an entry's last digest with that of a peer device after comparing firmware versions. Operands: job and idx name the command of a placed job. peer is what the peer device answers over the link. -/
  | digestPeer (job idx : Nat) (peer : PeerDigest)
  /-- DIGEST_RELEASE (R434). DIGEST mode 3: disables a weight-digest entry. Operands: job and idx name the command of a placed job. -/
  | digestRelease (job idx : Nat)
  /-- CHUNK_READY (R70). A porter finishes filling the next K-chunk and a waiting engine resumes at the chunk boundary. Operands: waited is the bit-steps the engine waited at the boundary. -/
  | chunkReady (core : CoreId) (waited : Nat)
  /-- PASS_DRAIN_COMPLETE (R102). A pass's drain ends and the ledger classifies it as CLEAN, SINGLE or MISMATCH. Operands: faults are the bits that flipped in the cells during the pass. -/
  | passDrainComplete (core : CoreId) (faults : List CellFault)
  /-- LEDGER_RERUN (R104). The single re-run of a mismatched pass from its base, possibly after a pre-emption. -/
  | ledgerRerun (core : CoreId)
  /-- WARP16_LOW_PASS (R81). The L pass of a WARP16 command starts after H, possibly after a pre-emption between them. -/
  | warp16LowPass (core : CoreId)
  /-- ESCALATION_STAGE_ENTER (R110). The cluster control core enters the next escalation stage for a suspect unit. -/
  | escalationStageEnter (unit : UnitId)
  /-- REGULATOR_SETTLED (R505). A change of a cluster regulator raise settles, or fails to settle, within 50 us. Operands: ok: the rail came within 15 mV of its target in time; mv is the rail as measured. -/
  | regulatorSettled (cluster : ClusterId) (ok : Bool) (mv : BitVec 12)
  /-- PROBE (R111). A probe runs the probe set on the withdrawn suspect engine or tidy unit. -/
  | probe (unit : UnitId)
  /-- PROBE_COMPLETE (R110). A probe ends; clean clears SUSPECT, otherwise escalation moves on. Operands: what the probe ran, its outcomes in order (those that were not clean, and a clean one after them where the last pass was clean), and whether every output matched its known answer. -/
  | probeComplete (unit : UnitId) (passes : ProbePasses) (steps : ProbeSteps) (bad : List ProbeBad) (known : Bool)
  /-- DISABLED_MAP_APPLY (R84). A new disabled-unit map entry takes effect once no command is in progress on the engine. -/
  | disabledMapApply (core : CoreId)
  /-- TW_LEDGER_INJECT_ARM (R116). Write arming a ledger fault injection into the next pass of the engine. Operands: v is the word written. -/
  | twLedgerInjectArm (t : Tag) (core : CoreId) (v : Word)
  /-- TD_INJECT_ARM (R179). Write arming a tidy checker fault injection. Operands: v is the word written. -/
  | tdInjectArm (t : Tag) (core : CoreId) (unit : Fin 2) (v : Word)
  /-- CONV_RUN_COMPLETE (R129). One run of a CONV_TILE or FUSED_TILES stage ends and the next run or stage starts. Operands: faults are the disagreements of a run on the tidy units. -/
  | convRunComplete (core : CoreId) (faults : List LaneFault)
  /-- LINE_STORE_SLOT_FILLED (R135). The feeder finishes filling a line-store channel slot and a waiting step proceeds. Operands: waited is the bit-steps the step waited. -/
  | lineStoreSlotFilled (core : CoreId) (waited : Nat)
  /-- WF_LINE_HWM_CLEAR (R152). Write of CLEAR that resets the line-store high-water mark. -/
  | wfLineHwmClear (t : Tag) (core : CoreId) (v : Word)
  /-- CONTEXT_GRANT (R206). A waiting command is granted all its contexts at once and begins its checks. Operands: job and idx name the command of a placed job. -/
  | contextGrant (job idx : Nat)
  /-- ECC_WRITEBACK (R239). A corrected word is written back at the next maintenance slot of its bank. Operands: addr is the word. -/
  | eccWriteback (addr : BitVec 40)
  /-- PATROL_SCRUB_READ (R242). The patrol scrubber reads and corrects the next line in a maintenance slot. Operands: late are the words in which an error arose since the last read; true is uncorrectable. -/
  | patrolScrubRead (core : CoreId) (late : List (BitVec 40 × Bool))
  /-- SCRUB_LATE (R242). A scrub pass has not completed within 4 s of reference time. -/
  | scrubLate (core : CoreId)
  /-- BT_ECC_INJECT_ARM (R243). Write arming an ECC injection into the next checked skein, bolt or line-store read. -/
  | btEccInjectArm (t : Tag) (core : CoreId) (v : Word)
  /-- MEM_ECC_INJECT_ARM (R243). Write arming an ECC injection into LPDDR5X, context store or HyperRAM reads. -/
  | memEccInjectArm (t : Tag) (v : Word)
  /-- CARVE_OUT_WRITE (R244). Write of a bolt or skein carve-out entry, refused when it would overlap or be malformed. Operands: entry of the bolt, or of the skein (0 to 3). -/
  | carveOutWrite (t : Tag) (core : CoreId) (skein : Bool) (entry : Fin 8) (v : Word)
  /-- FIREWALL_REGION_WRITE (R250). Write of a firewall region, with refusal of a bad ENABLE and start of inline-ECC initialisation. Operands: reg is BASE, LIMIT, MASK or CTRL. -/
  | firewallRegionWrite (t : Tag) (region : Fin 64) (reg : Fin 4) (v : Word)
  /-- FIREWALL_INIT_DONE (R248). Inline-ECC initialisation of a region completes and INIT_BUSY clears. -/
  | firewallInitDone (region : Fin 64)
  /-- DDR_TRAINING_START (R246). Write of START that trains all LPDDR5X channels at RATE and CAPACITY. -/
  | ddrTrainingStart (t : Tag) (v : Word)
  /-- DDR_TRAINING_DONE (R246). Training ends, mapping the capacity or reporting DDR_INIT_FAIL. Operands: failed are the channels whose training failed. -/
  | ddrTrainingDone (failed : List (Fin 16))
  /-- HRAM_ACCESS_TIMEOUT (R262). A HyperRAM access draws no response within 1 us and is repeated, failing after the third attempt. Operands: addr is the access that draws no response on its third attempt. -/
  | hramAccessTimeout (addr : BitVec 40)
  /-- DOORBELL (R273). Barrow DOORBELL that makes the device fetch and accept entries up to SEQ_END. Operands: the fields of the frame. -/
  | doorbell (session : BitVec 16) (seq : Word) (ring : RingId) (seqEnd : BitVec 64)
  /-- ENTRY_FETCHED (R269). A job entry read from the host returns and is checked. Operands: data are the 64 bytes the host answered. -/
  | entryFetched (ring : RingId) (data : List Byte)
  /-- ENTRY_REREAD (R275). After 100 us an entry with a bad CRC or SEQ is read again; a second failure may halt the ring. -/
  | entryReread (ring : RingId)
  /-- ENTRY_JOURNALLED (R274). The HyperRAM acknowledges the log record and the entry is accepted and placed. -/
  | entryJournalled (ring : RingId)
  /-- JOB_PLACE (R280). The scheduler chooses the job's core, reads its list and runs every descriptor check. Operands: data is the command list with its selvage when the list lies in host memory. -/
  | jobPlace (job : Nat) (data : List Byte)
  /-- COMMAND_START (R281). A command starts once its dependencies, fences and units allow. Operands: errs are the stored words in which an error arose (true: uncorrectable); links the link read errors (true: the retry failed too). -/
  | commandStart (job idx : Nat) (errs : List (BitVec 40 × Bool)) (links : List (Fin 16 × Bool))
  /-- COMMAND_END (R285). A command ends with its status, stopping or abandoning the rest of the job as needed. Operands: job and idx name the command of a placed job. -/
  | commandEnd (job idx : Nat)
  /-- JOB_COMPLETE (R289). The last command of a job ends and its completion record is journalled COMPLETED. -/
  | jobComplete (job : Nat)
  /-- COMPLETION_PUBLISH (R271). Writes the status array and completion record to the host in SEQ order. -/
  | completionPublish (ring : RingId)
  /-- COMPLETION_WRITE_ACKED (R289). The host acknowledges completion writes and PUBLISHED advances. -/
  | completionWriteAcked (ring : RingId)
  /-- JOB_DEADLINE_PASSED (R285). A job's deadline passes; unstarted and waiting commands end with DEADLINE_MISSED. -/
  | jobDeadlinePassed (job : Nat)
  /-- RING_CTRL_WRITE (R301). Write of a ring's control register; ENABLE = 1 clears HALTED and resumes fetching. -/
  | ringCtrlWrite (t : Tag) (ring : RingId) (v : Word)
  /-- RING_SEQ_WRITE (R301). Write that sets ACCEPTED and PUBLISHED while the ring is disabled and empty. Operands: high: the high word. -/
  | ringSeqWrite (t : Tag) (ring : RingId) (high : Bool) (v : Word)
  /-- STALL_ENABLE (R304). Write of ENABLE = 1 that admits a stall after its checks and gives it carve-out entries. -/
  | stallEnable (t : Tag) (stall : StallId) (v : Word)
  /-- STALL_DISABLE (R304). Write of ENABLE = 0 that stops placing the stall's new work. -/
  | stallDisable (t : Tag) (stall : StallId) (v : Word)
  /-- STALL_CARVE_RELEASE (R305). A disabled stall's carve-out entries are released once its placed work has finished. -/
  | stallCarveRelease (stall : StallId)
  /-- STALL_RESET (R306). Write of RESET that ends the stall's commands, drops pending instances and discards spills. -/
  | stallReset (t : Tag) (stall : StallId) (v : Word)
  /-- GRAPH_ENABLE (R310). Write of ENABLE = 1 that loads, checks and admits a standing graph. Operands: t is the writer, its tag and its Barrow session. -/
  | graphEnable (t : Writer) (graph : GraphId) (v : Word)
  /-- GRAPH_DISABLE (R310). Write of ENABLE = 0 that lets instances finish and drops the pending instance. -/
  | graphDisable (t : Writer) (graph : GraphId) (v : Word)
  /-- GRAPH_TRIGGER_HOLD_END (R308). A firing held for PERIOD_US is released once the period has passed. -/
  | graphTriggerHoldEnd (graph : GraphId)
  /-- PENDING_INSTANCE_START (R35). The pending instance starts when an instance in flight ends. -/
  | pendingInstanceStart (graph : GraphId)
  /-- NODE_ELIGIBLE (R309). A node's dependencies complete and the node is placed. -/
  | nodeEligible (graph : GraphId) (inst node : Nat)
  /-- INSTANCE_END (R286). A standing-graph instance ends, deciding its outcome and releasing its buffer holds. -/
  | instanceEnd (graph : GraphId) (inst : Nat)
  /-- INSTANCE_DEADLINE_PASSED (R309). An instance or node passes its absolute deadline incomplete. Operands: node: a node, or the whole instance. -/
  | instanceDeadlinePassed (graph : GraphId) (inst : Nat) (node : Option Nat)
  /-- PREEMPTION_REQUEST (R318). Higher-ranked work becomes eligible on a core running lower-ranked pre-emptible work. Operands: job is the work that became eligible. -/
  | preemptionRequest (core : CoreId) (job : Nat)
  /-- PREEMPTION_SWITCH (R318). The running unit reaches its boundary, its state is saved and the new work is issued. -/
  | preemptionSwitch (core : CoreId)
  /-- SPILL_COMPLETE (R322). Porter 1 finishes copying a victim's live tiles to its spill area. -/
  | spillComplete (core : CoreId)
  /-- RESTORE_COMPLETE (R322). A victim's spilled tiles are copied back and it resumes. -/
  | restoreComplete (core : CoreId) (job : Nat)
  /-- BE_SLICE_END (R316). A best-effort slice ends and the next is granted by virtual time. Operands: the core and the bit-steps it has consumed in its slice. -/
  | beSliceEnd (slice : SliceRun)
  /-- SELFTEST_SLICE_PLACE (R324). The scheduler places or defers a requested self-test slice on a core. -/
  | selftestSlicePlace (core : CoreId)
  /-- STREAM_ENABLE (R331). Write of ENABLE = 1 that reads and checks a stream context's set-up table. -/
  | streamEnable (t : Tag) (stream : StreamId) (v : Word)
  /-- STREAM_DISABLE (R331). Write of ENABLE = 0 that closes the open frame TRUNCATED and ends its SENSOR_WRITE commands. -/
  | streamDisable (t : Tag) (stream : StreamId) (v : Word)
  /-- CSI_FRAME_START (R333). A frame-start short packet opens a frame, stamps its capture time and opens its selvages. Operands: ecc is what the header ECC found: 0 right, 1 one bit corrected, 2 uncorrectable; the header as corrected. -/
  | csiFrameStart (port : Fin 12) (vc : Fin 16) (ecc : Fin 3)
  /-- CSI_LONG_PACKET (R339). A CSI-2 long packet delivers one row of an exposure, with header and CRC handling. Operands: codes are the pixels of the row, or the bytes of an embedded line, as the port unpacks them; ecc as above; crcOk: the payload CRC-16 was right. -/
  | csiLongPacket (port : Fin 12) (vc : Fin 16) (dt : BitVec 6) (ecc : Fin 3) (codes : List Nat) (crcOk : Bool)
  /-- CSI_FRAME_END (R341). A frame-end packet completes a frame, filling missing rows and closing its landing buffers. -/
  | csiFrameEnd (port : Fin 12) (vc : Fin 16) (ecc : Fin 3)
  /-- CSI_LINK_ERROR (R339). A CSI-2 PHY error is detected on a port. Operands: lost: the lane is no longer in sync. -/
  | csiLinkError (port : Fin 12) (lane : Fin 4) (lost : Bool)
  /-- FRAME_TIMEOUT (R341). An open frame receives no packet for PERIOD_US and is closed TRUNCATED. -/
  | frameTimeout (stream : StreamId)
  /-- HANDOVER_START (R334). A completed landing buffer's hand-over begins once the published buffer is released. -/
  | handoverStart (stream : StreamId)
  /-- HANDOVER_COMPLETE (R334). Every output of a frame is copied to its published buffer and the stream closes the frame. -/
  | handoverComplete (stream : StreamId)
  /-- ISP_FRAME_START (R348). The pipeline takes a waiting memory-to-memory frame and loads its tuning set. -/
  | ispFrameStart
  /-- ISP_FRAME_COMPLETE (R350). A pipeline frame ends, with checker comparison leading to completion, a re-run or a drop. Operands: the in-line frame or the one from memory; disagree: a checker lane disagreed in this run. -/
  | ispFrameComplete (inLine disagree : Bool)
  /-- SETTING_ISSUE (R355). At the frame end of T minus latency, the controller writes a queued setting's records to the sensor. -/
  | settingIssue (stream : StreamId)
  /-- SENSOR_BUS_DONE (R356). A sensor bus transaction completes or is refused twice. -/
  | sensorBusDone (stream : StreamId) (ok : Bool)
  /-- TIM_INCREMENT_COMMIT (R365). Write of TIM_INCREMENT_NS that commits the pending increment from the next tick. -/
  | timIncrementCommit (t : Tag) (v : Word)
  /-- TIM_STEP_REQUEST (R367). Write of STEP that requests adding TIM_OFFSET to the counter. -/
  | timStepRequest (t : Tag) (v : Word)
  /-- TIM_STEP_APPLY (R367). The step is applied at the next tick or refused; STEP_GEN rises. -/
  | timStepApply
  /-- TIM_DECLARE (R370). Write of DECLARE that sets SYNCED and starts a lease. -/
  | timDeclare (t : Tag) (v : Word)
  /-- TIM_UNDECLARE (R370). Write of UNDECLARE that clears SYNCED and ends the lease. -/
  | timUndeclare (t : Tag) (v : Word)
  /-- SYNC_LEASE_EXPIRE (R370). A sync lease ends without renewal; SYNCED clears and TIME_SYNC_LOST is sent. -/
  | syncLeaseExpire
  /-- TS_IN_EDGE (R372). A selected edge on a TS_IN pin is captured into its FIFO. -/
  | tsInEdge (pin : Fin 4) (rising : Bool)
  /-- CAPTURE_RECORD_READ (R374). Read of word 0 of a TS_IN or 802.1AS record register removes the oldest record. Operands: ptp: the event FIFO of Ethernet port n, else the FIFO of TS_IN pin n. -/
  | captureRecordRead (t : Tag) (ptp : Bool) (n : Fin 4)
  /-- TRIG_OUT_ARM (R377). Write of ARM = 1 that arms a TRIG_OUT pulse schedule. -/
  | trigOutArm (t : Tag) (pin : Fin 8) (v : Word)
  /-- TRIG_OUT_DISARM (R377). Write of ARM = 0 that completes an active pulse and stops the schedule. -/
  | trigOutDisarm (t : Tag) (pin : Fin 8) (v : Word)
  /-- TRIG_OUT_ACTIVE_EDGE (R376). A TRIG_OUT pulse's active target is reached and the pulse fires, late or not. -/
  | trigOutActiveEdge (pin : Fin 8)
  /-- TRIG_OUT_INACTIVE_EDGE (R377). A TRIG_OUT pulse's inactive target is reached and the pulse ends. -/
  | trigOutInactiveEdge (pin : Fin 8)
  /-- PPS_ENABLE (R378). Write of PPS ENABLE that starts PPS and clears the record of the last second pulsed. -/
  | ppsEnable (t : Tag) (v : Word)
  /-- PPS_PULSE (R378). A whole second is reached by increments and PPS_OUT becomes active. -/
  | ppsPulse
  /-- PPS_PULSE_END (R378). WIDTH_MS of reference time passes and PPS_OUT becomes inactive. -/
  | ppsPulseEnd
  /-- WAIT_TIME_REACHED (R379). A waiting WAIT_TIME's target time is reached and it completes. Operands: job and idx name the command of a placed job. -/
  | waitTimeReached (job idx : Nat)
  /-- FENCE_CONDITION_MET (R282). A waiting FENCE finds its prior commands done or its signal threshold reached. Operands: job and idx name the command of a placed job. -/
  | fenceConditionMet (job idx : Nat)
  /-- STATS_RECORD_WRITTEN (R353). A waiting STATS_READ's record is written and the copy proceeds. Operands: job and idx name the command of a placed job. -/
  | statsRecordWritten (job idx : Nat)
  /-- SENSOR_QUEUE_SPACE (R355). A SENSOR_WRITE waiting on a full setting queue finds room. Operands: job and idx name the command of a placed job. -/
  | sensorQueueSpace (job idx : Nat)
  /-- PUBLISH_QUEUE_SPACE (R392). A PUBLISH waiting on a full publish queue queues further frames. Operands: job and idx name the command of a placed job. -/
  | publishQueueSpace (job idx : Nat)
  /-- LAUNCH_TIME_REACHED (R389). A queued frame's launch time is reached and it becomes eligible, or is dropped while the link is down. -/
  | launchTimeReached (port : Fin 2) (queue : Fin 8)
  /-- ETH_TX_FRAME_START (R388). At a frame boundary the port picks and starts the next frame, judging lateness. -/
  | ethTxFrameStart (port : PortId)
  /-- PUBLISH_LAST_FRAME_SENT (R392). The last frame of a PUBLISH leaves the wire and the command completes. Operands: job and idx name the command of a placed job. -/
  | publishLastFrameSent (job idx : Nat)
  /-- BIL_TIME_EXCHANGE (R381). Every 1 ms a Bilvan port exchanges time messages and updates delay and offset. Operands: flight: ns of reference time between this port's send and its receive; phase: ns since the last tick at the receive; the partner's receive and send stamps in 1/256 ns; stepped: a step fell on the partner during the exchange. -/
  | bilTimeExchange (port : PortId) (flight : Nat) (phase : Fin 8) (t2 t3 : BitVec 72) (stepped : Bool)
  /-- BIL_TIME_TIMEOUT (R382). No time exchange completes for 16 ms or delay jumps; VALID clears and BIL_TIME_FAULT is sent. -/
  | bilTimeTimeout (port : PortId)
  /-- ETH_FRAME_RECEIVE (R386). A received Ethernet frame is classified to MACsec, gPTP, replies, Barrow, ingest or the management path. Operands: frame from the destination address to the FCS. -/
  | ethFrameReceive (port : PortId) (frame : List Byte)
  /-- ETH_LINK_CHANGE (R411). An Ethernet port's link goes up or down. -/
  | ethLinkChange (port : PortId) (up : Bool)
  /-- MGMT_RX_POP (R394). Write of POP that removes the oldest frame of the management receive FIFO. -/
  | mgmtRxPop (t : Tag) (port : PortId) (v : Word)
  /-- MGMT_TX_SEND (R394). Write of SEND that queues the management transmit buffer on the control queue. -/
  | mgmtTxSend (t : Tag) (port : PortId) (v : Word)
  /-- BARROW_OPEN (R400). A HEARTBEAT with SESSION 0 requests a new session and is answered with version, session and epoch. -/
  | barrowOpen (port : PortId) (src : HostAddr) (body : List Byte)
  /-- CLAIM (R406). Barrow CLAIM that makes a session a candidate or updates its priority and lease. Operands: the session, SEQ and body of the frame. -/
  | claim (session : BitVec 16) (seq : Word) (body : List Byte)
  /-- RELEASE (R408). Barrow RELEASE that hands ownership on, starts an election or withdraws a claim. Operands: the session, SEQ and body of the frame. -/
  | release (session : BitVec 16) (seq : Word) (body : List Byte)
  /-- HEARTBEAT (R407). Barrow HEARTBEAT that renews a session's lease and returns session state. Operands: the session, SEQ and body of the frame. -/
  | heartbeat (session : BitVec 16) (seq : Word) (body : List Byte)
  /-- REG_READ (R404). Barrow REG_READ that reads consecutive register words. Operands: the session, SEQ and body of the frame. -/
  | regRead (session : BitVec 16) (seq : Word) (body : List Byte)
  /-- REG_WRITE (R404). Barrow REG_WRITE from the owner that writes consecutive register words. Operands: the session, SEQ and body of the frame. -/
  | regWrite (session : BitVec 16) (seq : Word) (body : List Byte)
  /-- HOST_READ_WRITE (R397). A READ or WRITE sent by a host is answered with NACK BAD_FRAME. Operands: the session, SEQ and body of the frame. -/
  | hostReadWrite (session : BitVec 16) (seq : Word) (body : List Byte)
  /-- BARROW_ACK (R399). A host's ACK answers a device READ or WRITE request. -/
  | barrowAck (session : BitVec 16) (ackSeq : Word) (body : List Byte)
  /-- BARROW_NACK (R405). A host's NACK refuses a device request, treated as refused under R266. -/
  | barrowNack (session : BitVec 16) (ackSeq : Word) (body : List Byte)
  /-- BARROW_RETRANSMIT (R399). RTO_US expires and unanswered requests are resent, or the session ends after RETRY_MAX. -/
  | barrowRetransmit (session : BitVec 16)
  /-- SESSION_IDLE_TIMEOUT (R399). A session receives no valid request for IDLE_MS and is ended. -/
  | sessionIdleTimeout (session : BitVec 16)
  /-- CLAIM_LEASE_EXPIRE (R407). A candidate's or owner's lease ends, withdrawing the claim or ending ownership. -/
  | claimLeaseExpire (session : BitVec 16)
  /-- ELECTION_WINDOW_END (R406). The election window ends and the first candidate becomes owner. -/
  | electionWindowEnd
  /-- WINDOW_BIND (R402). Write of BIND that binds a window to the owner's session and releases held work. -/
  | windowBind (t : Tag) (session : BitVec 16) (win : BitVec 8) (v : Word)
  /-- WINDOW_UNBIND (R402). Write of UNBIND that unbinds a window and abandons its outstanding writes. -/
  | windowUnbind (t : Tag) (session : BitVec 16) (win : BitVec 8) (v : Word)
  /-- OWNER_DISCARD (R403). Write of DISCARD that ends jobs waiting on unbound windows with FIREWALL. -/
  | ownerDiscard (t : Tag) (session : BitVec 16) (v : Word)
  /-- AGE_WATCHDOG_EXPIRE (R428). A monitor's expectation D passes without an accepted publish; PUBLISH_MISSING is reported. -/
  | ageWatchdogExpire (monitor : Fin 64)
  /-- AGE_MONITOR_ENABLE (R430). Write of ENABLE to an age monitor, refused when its limits are invalid. -/
  | ageMonitorEnable (t : Tag) (monitor : Fin 64) (v : Word)
  /-- DIGEST_ROUND_START (R432). Every INTERVAL_MS the security core starts a weight-digest round. -/
  | digestRoundStart
  /-- DIGEST_ROUND_END (R432). A digest round completes, updating entries and reporting mismatches or lateness. -/
  | digestRoundEnd
  /-- FAULT_MESSAGE_ARRIVE (R446). The Tally takes a fault message, sets its pending bit, opens or merges a window and applies its reaction. -/
  | faultMessageArrive (source : BitVec 12)
  /-- COALESCE_WINDOW_CLOSE (R446). A coalescing window closes after 10 us and its record enters TAL_FIRST, the history and the frame batch. -/
  | coalesceWindowClose
  /-- FAULT_N_MIN_LOW_END (R452). The 1 ms minimum low time of FAULT_N ends and it is released if nothing holds it. -/
  | faultNMinLowEnd
  /-- ALIVE_TOGGLE (R453). Every 1 ms of reference time ALIVE changes level while its conditions hold. -/
  | aliveToggle
  /-- REF_CLOCK_LOST (R452). The 25 MHz reference shows no edge for 2 us; FAULT_N goes low. -/
  | refClockLost
  /-- ISLAND_CHECK (R452). The island's duplicated logic disagrees. -/
  | islandCheck
  /-- FAULT_FRAME_SEND (R455). A fault frame is started when 8 records wait or 50 us after the oldest. -/
  | faultFrameSend
  /-- STATUS_FRAME_SEND (R455). No fault frame has been sent for STATUS_MS and a status frame is sent. -/
  | statusFrameSend
  /-- FAULT_FRAME_REPEAT (R455). A repeat copy of a fault frame falls due 1 ms after the last. -/
  | faultFrameRepeat
  /-- TAL_PENDING_CLEAR (R445). Write of 1 to pending bits that clears them and empties their silence sets. -/
  | talPendingClear (t : Tag) (n : Fin 6) (v : Word)
  /-- TAL_FIRST_REARM (R449). Write of VALID that re-arms TAL_FIRST. -/
  | talFirstRearm (t : Tag) (v : Word)
  /-- TAL_FRAME_DISABLE (R455). Write of TAL_FRAME_CTRL.ENABLE that stops or resumes fault frames and drops the waiting batch. -/
  | talFrameDisable (t : Tag) (v : Word)
  /-- SWATCH_SLICE_REQUEST (R459). The swatch runner requests a slice on the core whose last cycle is oldest. -/
  | swatchSliceRequest
  /-- SWATCH_DEFER_RETRY (R459). 100 us after a deferral a core may be asked for a slice again. -/
  | swatchDeferRetry (core : CoreId)
  /-- SWATCH_SLICE_END (R460). A self-test slice ends, recording results and treating failing units. Operands: result is the bit-steps it took and what it found. -/
  | swatchSliceEnd (core : CoreId) (result : SliceResult)
  /-- SELFTEST_STARVED (R462). The diagnostic interval passes for a core without a completed cycle. -/
  | selftestStarved (core : CoreId)
  /-- SWATCH_PACK_LOAD (R465). Write of LOAD that makes the security core verify and install a swatch pack. -/
  | swatchPackLoad (t : Tag) (slot : Fin 4) (v : Word)
  /-- SWATCH_PACK_VERIFIED (R465). A pack's verification ends, loading it or refusing it. -/
  | swatchPackVerified (slot : Fin 4)
  /-- PORST_N_ASSERT (R452). PORST_N falls; everything stops and FAULT_N is held low. -/
  | porstNAssert
  /-- POWER_ON_RESET (R475). PORST_N rises; straps are sampled and the boot sequence begins. -/
  | powerOnReset (straps : Straps)
  /-- PLL_LOCK (R54). All PLLs report lock and the alignment counter starts. -/
  | pllLock
  /-- ALIGNMENT_EDGE (R54). The alignment counter wraps and island dividers are released and compared. -/
  | alignmentEdge
  /-- ALIGNMENT_DONE (R55). Sixteen comparisons pass and the security core is released, or an attempt fails and is retried or ALIGN_FAIL raised. -/
  | alignmentDone (ok : Bool)
  /-- BOOT_IMAGE_CHECK (R476). The boot ROM checks the active image set and falls back to the other set if needed. -/
  | bootImageCheck
  /-- BOOT_COMPLETE (R475). Boot ends with BOOTED set and Barrow open requests answered. -/
  | bootComplete
  /-- FW_ACTIVATE (R478). Write of ACTIVATE that checks an image set and writes a directory copy naming it. -/
  | fwActivate (t : Tag) (v : Word)
  /-- NOR_ERASE (R477). SEC_NOR_CTRL START with OP erase that erases permitted NOR sectors. -/
  | norErase (t : Tag) (v : Word)
  /-- NOR_PROGRAM (R477). SEC_NOR_CTRL START with OP program that copies data to a permitted NOR target. -/
  | norProgram (t : Tag) (v : Word)
  /-- NOR_OP_COMPLETE (R477). A NOR erase or program operation finishes and BUSY clears. -/
  | norOpComplete
  /-- ROLLBACK_COMMIT (R479). Write of COMMIT that blows rollback-counter bits up to the running image's SVN. -/
  | rollbackCommit (t : Tag) (v : Word)
  /-- LIFECYCLE_REQUEST (R480). Write of REQUEST that checks a lifecycle token and schedules a state change or root revocation. -/
  | lifecycleRequest (t : Tag) (v : Word)
  /-- MAP_CLEAR (R480). Write of MAP_CLEAR that removes in-service map entries from the next power-on reset. -/
  | mapClear (t : Tag) (v : Word)
  /-- FW_RESTART_REQUEST (R481). Write of RESTART that restarts one firmware processor under the restart controller. -/
  | fwRestartRequest (t : Tag) (proc : Fin 7) (v : Word)
  /-- FW_TEST_RESTART (R483). Write of TEST that checks a test image and restarts a processor onto it. -/
  | fwTestRestart (t : Tag) (proc : Fin 7) (v : Word)
  /-- FW_WATCHDOG_EXPIRE (R484). A processor's watchdog expires and it is restarted, or held after a repeat. -/
  | fwWatchdogExpire (proc : Fin 7)
  /-- FW_RESTART_COMPLETE (R481). The restart controller releases a restarted processor and FW_RESTARTED is sent. Operands: reloaded: the digest of the instruction memory was wrong and the image came from the NOR; damaged: the handoff block fails its check. -/
  | fwRestartComplete (proc : Fin 7) (reloaded damaged : Bool)
  /-- FW_RESTART_TIMEOUT (R484). A restart has not finished within its bound plus 3 ms; FW_RESTART_FAIL holds the processor. -/
  | fwRestartTimeout (proc : Fin 7)
  /-- KEY_LOAD (R487). Write of START that reads, checks and loads a key blob into a slot. -/
  | keyLoad (t : Tag) (v : Word)
  /-- ATTEST_START (R490). Write of START that makes the security core capture state and sign an attestation report. -/
  | attestStart (t : Tag) (v : Word)
  /-- ATTEST_DONE (R490). The attestation report is signed and DONE is set. -/
  | attestDone
  /-- STANDBY_ENTER_REQUEST (R496). Write of REQUEST = 1 that checks the refusal conditions and begins STANDBY entry. -/
  | standbyEnterRequest (t : Tag) (v : Word)
  /-- STANDBY_ENTER_COMPLETE (R497). Compute domains are off and STATE reads STANDBY. -/
  | standbyEnterComplete
  /-- STANDBY_EXIT_REQUEST (R497). Write of REQUEST = 2 that begins leaving STANDBY. -/
  | standbyExitRequest (t : Tag) (v : Word)
  /-- STANDBY_EXIT_COMPLETE (R497). Scratchpads are zeroed, bolt contexts set LOST, carve-outs restored and STATE reads ON. -/
  | standbyExitComplete
  /-- CLUSTER_GATE (R495). Write of GATE = 1 that stops placing work on a cluster and re-homes its nodes. -/
  | clusterGate (t : Tag) (cluster : ClusterId) (v : Word)
  /-- CLUSTER_IDLE_ENTER (R495). A gated cluster with nothing running and no escalation enters IDLE. -/
  | clusterIdleEnter (cluster : ClusterId)
  /-- CLUSTER_UNGATE (R495). Write of GATE = 0 that returns a cluster to ON within 100 us. -/
  | clusterUngate (t : Tag) (cluster : ClusterId) (v : Word)
  /-- PACE_WINDOW (R42). A 1 us pace-meter window completes and NOW, AVG and MIN update, with PACE_LOW after 16 low windows. -/
  | paceWindow (cluster : ClusterId) (count : BitVec 12)
  /-- PACE_MIN_CLEAR (R43). Write of CLEAR that resets a cluster's minimum pace reading. -/
  | paceMinClear (t : Tag) (cluster : ClusterId) (v : Word)
  /-- PACE_CAP_WRITE (R45). Write of CAP by the power core that changes the issue limiter's EFFECTIVE rate. -/
  | paceCapWrite (t : Tag) (cluster : ClusterId) (v : Word)
  /-- POWER_SAMPLE (R501). Every 100 us the current monitors give the die power. -/
  | powerSample (deciwatts : BitVec 12)
  /-- CAP_LOOP_PERIOD (R502). Every 1 ms the power core updates the watt-derived limit and writes each cluster's CAP. -/
  | capLoopPeriod
  /-- THERMAL_SAMPLE (R508). Every 100 us the sensors are sampled and TEMP_HIGH and TEMP_TRIP are judged. Operands: the 20 sensors: 4 × c to 4 × c + 3 of cluster c, then 16 to 19 at die level. -/
  | thermalSample (temps : List Int)
  /-- THERMAL_SHUTDOWN (R510). A trip lasts 10 ms or exceeds TRIP_C + 10 C, and every domain but the island is switched off. -/
  | thermalShutdown
  /-- SUPPLY_LOW (R506). VDD_CORE stays below 0.69 V for 10 us. -/
  | supplyLow (mv : Nat)
  /-- WARM_RESET_REQUEST (R514). Write of WARM in PWR_RESET that starts a warm reset. -/
  | warmResetRequest (t : Tag) (v : Word)
  /-- CLUSTER_RESET (R514). Write of CLUSTER in PWR_RESET that resets a cluster and restarts its control core. -/
  | clusterReset (t : Tag) (v : Word)
  /-- CORE_RESET (R514). Write of CORE in PWR_RESET that stops and replays the commands of one core. -/
  | coreReset (t : Tag) (v : Word)
  /-- WRST_N_ASSERT (R554). WRST_N held low for 1 us after boot begins a warm reset. -/
  | wrstNAssert (ns : Nat)
  /-- WARM_RESET_END (R512). A warm reset ends after WRST_N rises or after the write, and firmware restarts. -/
  | warmResetEnd
  /-- BIL_PORT_ENABLE (R525). Write of ENABLE = 1 that starts training a Bilvan port. -/
  | bilPortEnable (t : Tag) (port : PortId) (v : Word)
  /-- BIL_PORT_DISABLE (R528). Write of ENABLE = 0 that takes a Bilvan link down. -/
  | bilPortDisable (t : Tag) (port : PortId) (v : Word)
  /-- BIL_TRAINING_DONE (R526). Training completes its checks, bringing the link up, degraded or failed. -/
  | bilTrainingDone (port : PortId) (r : TrainResult)
  /-- BIL_TRAIN_RETRY (R525). Every 100 ms a failed training is tried again while ENABLE is 1. -/
  | bilTrainRetry (port : PortId)
  /-- BIL_PACKET_RECEIVE (R524). A Bilvan packet is received, acknowledged, discarded or answered with NAK. -/
  | bilPacketReceive (port : PortId) (p : BilPacket)
  /-- BIL_RETRY_TIMEOUT (R524). A sender hears nothing for 2 us and resends, taking the link down after 8 sendings. -/
  | bilRetryTimeout (port : PortId)
  /-- BIL_PARTNER_SILENCE (R528). The partner stops answering for 16 us and the link goes down. -/
  | bilPartnerSilence (port : PortId)
  /-- BIL_PEER_FAULT_READ (R534). Read of word 0 of BIL_PEER_FAULT removes the oldest forwarded record. -/
  | bilPeerFaultRead (t : Tag) (port : PortId)
  /-- REGISTER_WRITE (R9). A register write with no row of its own, applying access codes, permissions and lock rules. -/
  | registerWrite (t : Tag) (session : BitVec 16) (addr : BitVec 40) (v : Word)
  /-- REG_FAULT (R506). A cluster rail stays more than 15 mV from its target for 100 us at any time, for example when the VDD_AUX margin of R547 is lost, and the power core reports REG_FAULT. -/
  | regFault (cluster : ClusterId) (mv : BitVec 12)
  /-- CSI_LANES_LOCKED (R362). Every lane of an enabled CSI-2 port comes into sync and ING_CSI_STATUS_Pp.LOCKED becomes 1. -/
  | csiLanesLocked (port : Fin 12)
  /-- TALLY_READY (R452). The safety island finishes starting after the rise of PORST_N, the HyperRAM is ready or HRAM_NO_RESPONSE is raised, READY is set and ALIVE may begin toggling. -/
  | tallyReady (hram : Bool)
  /-- ACTIVATION_COMPLETE (R478). The security core finishes checking the seven images of SET, clears FW_ACTIVATE.BUSY and writes the directory copy and ACTIVATED, or sets ERR and reports FW_IMAGE_BAD. -/
  | activationComplete
  /-- KEY_LOAD_COMPLETE (R488). The security core finishes reading and checking a key blob, clears SEC_KEY_CTRL.BUSY and replaces the slot's key and STALLS or sets ERR. -/
  | keyLoadComplete
  /-- JTAG_TCK_EDGE (R556). A TCK edge, or TRST_N low, clocks or resets the IEEE 1149.1 test access port, whose boundary-scan instructions take the pins only while PORST_N is low. -/
  | jtagTckEdge (tms tdi trst : Bool)
  deriving DecidableEq, Repr

end Sys2Proof
end

