-- ==== Sys2Proof/Decode.lean ====
section
/-!
DEFINITION. The operation table gives no row any bits, so no word spells a command.
-/
namespace Sys2Proof

/-- The command a word spells: none, since no row of the table has bits. -/
def decodeTableWord (_nbits _w : Nat) : Option Instr := none

end Sys2Proof
end

