-- ==== Sys2Proof/Config.lean ====
section
/-!
DEFINITION. What an implementation fixes and the manual leaves open: constants without a body, so that no proof can see
a value of them.
-/
namespace Sys2Proof

/-- A free value of w bits: the n-th that the block takes. [DESIGN CHOICE, log entry 6] -/
opaque Config.free (w n : Nat) : BitVec w

/-- What a Bilvan port computes from its last 16 link delays or offsets (R381): the manual does not say how the sixteen are combined. [DESIGN CHOICE, log entry 20] -/
opaque Config.bilWindow (l : List Int) : Int

/-- The channel (0 to 3) whose black level and lens-shading grid a colour-filter site takes (R344): CFA code, column and row modulo 4. The manual numbers four channels and does not say which site is which. [DESIGN CHOICE, log entry 21] -/
opaque Config.cfaChannel (cfa x y : Nat) : Fin 4

/-- The colour of a site of the 4 × 4 RGB-IR pattern (R343): 0 R, 1 G, 2 B, 3 IR. The manual does not print the pattern. [DESIGN CHOICE, log entry 21] -/
opaque Config.irSite (x y : Nat) : Fin 4

/-- The bilinear interpolation of a colour at a site of another colour of the RGB-IR pattern (R344), from the 5 × 5 pixels around it: it depends on the pattern, which the manual does not print. [DESIGN CHOICE, log entry 21] -/
opaque Config.irInterp (colour x y : Nat) (around : List Nat) : Nat

/-- A 24-bit IR value at the 16 bits of the IR subtraction (R344), and at the 8 bits of output format 5 (R346): the manual states neither conversion. [DESIGN CHOICE, log entry 22] -/
opaque Config.irNarrow (bits v : Nat) : Nat

/-- An NV12 chroma sample from the four values of its 2 × 2 pixels (R346): the manual does not say how they are combined. [DESIGN CHOICE, log entry 22] -/
opaque Config.chroma (a b c d : Nat) : Nat

/-- A byte that window staging or a self-test slice (area 0) or the feeder (area 1) has left at an offset of its area of a core, after the n-th time (R134, R229): the manual does not state it. [DESIGN CHOICE, log entries 19, 98] -/
opaque Config.left (area g o n : Nat) : BitVec 8

/-- What a counter of waiting bit-steps has come to (R233): the register's offset and the reference time. The waits depend on arbitration that the model leaves out. [DESIGN CHOICE, log entry 15] -/
opaque Config.waited (off ns : Nat) : BitVec 64

/-- How many of the bytes that a core's porters have staged between them porter 0 has written (R234, R264). -/
opaque Config.stagedShare (g n : Nat) : Fin (n + 1)

/-- Whether an ML-DSA-44 signature verifies over a message with a public key (FIPS 204), which the manual names and does not print. [DESIGN CHOICE, log entry 17] -/
opaque Config.mldsaVerify (key message signature : List Byte) : Bool

/-- The deterministic ML-DSA-44 signature over a message with the key pair of a seed (FIPS 204). [DESIGN CHOICE, log entry 17] -/
opaque Config.mldsaSign (seed message : List Byte) : List Byte

/-- The ML-DSA-44 public key that key generation produces from a seed (FIPS 204). [DESIGN CHOICE, log entry 17] -/
opaque Config.mldsaPublic (seed : List Byte) : List Byte

/-- The receive channel, 0 to 7, whose SCI a frame on a port carries (R387): the manual gives no register that holds the SCIs of the channels. [DESIGN CHOICE, log entry 23] -/
opaque Config.macsecChannel (port sci : Nat) : Option (Fin 8)

/-- The instruction that the test access port's instruction register selects (R556): 0 BYPASS, 1 SAMPLE/PRELOAD, 2 EXTEST, 3 EXTEST_PULSE, 4 EXTEST_TRAIN, 5 CLAMP, 6 HIGHZ, any other number a private one. The manual gives neither the register's length nor its codes; the list is what was shifted in, newest first. [DESIGN CHOICE, log entry 24] -/
opaque Config.tapCode (shifted : List Bool) : Nat

end Sys2Proof
end

