-- ==== Sys2Proof/Machine/Bits.lean ====
section
/-!
DEFINITION. Bit fields, byte orders, sorted tables and CRC-32C: the small arithmetic every family of commands uses.
-/
namespace Sys2Proof.Machine

/-- Bits hi to lo of a number (R6). -/
def bits (v hi lo : Nat) : Nat := (v >>> lo) % 2 ^ (hi + 1 - lo)

/-- One bit of a number, as a truth value. -/
def bitOf (v n : Nat) : Bool := v.testBit n

/-- A number with bits hi to lo replaced by x. -/
def putBits (v hi lo x : Nat) : Nat :=
  v - (bits v hi lo) * 2 ^ lo + (x % 2 ^ (hi + 1 - lo)) * 2 ^ lo

/-- A truth value as a bit. -/
def b2n (b : Bool) : Nat := if b then 1 else 0

/-- A w-bit two's complement number as an integer. -/
def signed (w v : Nat) : Int :=
  let u := v % 2 ^ w
  if 2 * u < 2 ^ w then (u : Int) else (u : Int) - (2 ^ w : Nat)

/-- An integer as a w-bit two's complement number. -/
def unsigned (w : Nat) (i : Int) : Nat := (i % ((2 ^ w : Nat) : Int)).toNat

/-- A sum that stays at the largest w-bit value (a saturating counter). -/
def satAdd (w v n : Nat) : Nat := min (v + n) (2 ^ w - 1)

/-- Sum of a list of numbers. -/
def sumNat (l : List Nat) : Nat := l.foldl (· + ·) 0

/-- The number n rounded up to a multiple of m. -/
def roundUp (n m : Nat) : Nat := (n + m - 1) / m * m

/-- Division rounded up. -/
def ceilDiv (n m : Nat) : Nat := (n + m - 1) / m

/-- The n low bytes of a number, least significant first (R7). -/
def leBytes : Nat → Nat → List Byte
  | 0, _ => []
  | n + 1, v => BitVec.ofNat 8 v :: leBytes n (v / 256)

/-- The number that bytes spell, least significant first (R7). -/
def leNat : List Byte → Nat
  | [] => 0
  | b :: t => b.toNat + 256 * leNat t

/-- The n low bytes of a number, most significant first (Barrow frames, R7). -/
def beBytes (n v : Nat) : List Byte := (leBytes n v).reverse

/-- The number that bytes spell, most significant first (Barrow frames, R7). -/
def beNat (l : List Byte) : Nat := leNat l.reverse

/-- The n bytes of a list from position i; positions past the end give zero bytes. -/
def slice (l : List Byte) (i n : Nat) : List Byte :=
  let t := (l.drop i).take n
  t ++ List.replicate (n - t.length) 0

/-- A little-endian field of n bytes at position i of a descriptor or table. -/
def le (l : List Byte) (i n : Nat) : Nat := leNat (slice l i n)

/-- A big-endian field of n bytes at position i of a frame. -/
def be (l : List Byte) (i n : Nat) : Nat := beNat (slice l i n)

/-- A list with the bytes b written over it from position i, the list's length kept. -/
def patch (l : List Byte) (i : Nat) (b : List Byte) : List Byte :=
  (l.take i ++ b ++ l.drop (i + b.length)).take l.length

/-- Whether every byte is zero (reserved fields, R12). -/
def allZero (l : List Byte) : Bool := l.all (· == 0)

/-- Two ranges of bytes share a byte. -/
def overlap (a n b m : Nat) : Bool := a < b + m && b < a + n

/-- Look up key k in a table sorted by key; an unlisted key holds d. -/
def tabGet {β : Type} (d : β) (k : Nat) : List (Nat × β) → β
  | [] => d
  | (a, v) :: t => if a = k then v else tabGet d k t

/-- A table without any entry for key k. -/
def tabDel {β : Type} (k : Nat) (l : List (Nat × β)) : List (Nat × β) := l.filter fun e => decide (e.1 ≠ k)

/-- Set key k to v in a table sorted by key; an entry equal to the unlisted value d is removed. -/
def tabSet {β : Type} [DecidableEq β] (d : β) (k : Nat) (v : β) : List (Nat × β) → List (Nat × β)
  | [] => if v = d then [] else [(k, v)]
  | (a, b) :: t =>
    if a = k then (if v = d then tabDel k t else (k, v) :: t)
    else if a < k then (a, b) :: tabSet d k v t
    else if v = d then (a, b) :: tabDel k t else (k, v) :: (a, b) :: t

/-- The canonical form of a table: keys strictly rising from above a bound, no entry equal to what an unlisted key holds. -/
def tabWfFrom {β : Type} [DecidableEq β] (d : Nat → β) : Option Nat → List (Nat × β) → Bool
  | _, [] => true
  | lo, (a, v) :: t =>
    (match lo with | none => true | some b => decide (b < a)) && decide (v ≠ d a) && tabWfFrom d (some a) t

/-- The canonical form of a whole table. -/
def tabWf {β : Type} [DecidableEq β] (d : Nat → β) (l : List (Nat × β)) : Bool := tabWfFrom d none l

/-- Replace the n-th element of a list by f of it; past the end nothing changes. -/
def updAt {α : Type} (f : α → α) : Nat → List α → List α
  | _, [] => []
  | 0, a :: t => f a :: t
  | n + 1, a :: t => a :: updAt f n t

/-- One bit step of the reflected CRC-32C (polynomial 0x1EDC6F41, reversed 0x82F63B78). -/
def crcStep (c : BitVec 32) : BitVec 32 :=
  if c.getLsbD 0 then (c >>> 1) ^^^ 0x82F63B78#32 else c >>> 1

/-- One byte into a running CRC-32C. -/
def crcByte (c : BitVec 32) (b : Byte) : BitVec 32 :=
  let c := c ^^^ b.setWidth 32
  crcStep (crcStep (crcStep (crcStep (crcStep (crcStep (crcStep (crcStep c)))))))

/-- CRC-32C as R175 uses it: start all ones, reflected, final complement. -/
def crc32c (l : List Byte) : BitVec 32 := ~~~ (l.foldl crcByte 0xFFFFFFFF#32)

end Sys2Proof.Machine
end

