-- ==== Sys2Proof/Machine/Crypto.lean ====
section
/-!
DEFINITION. The functions that the manual names by their standards and does not print: SHA3-256 (R85, FIPS 202) and AES in
Galois/counter mode (R256, R384, FIPS 197, NIST SP 800-38D).
-/
namespace Sys2Proof.Machine

/-! ### SHA3-256 [PRESUMED, log entry 16] -/

/-- Rotation offsets of the lanes, lane x + 5y. -/
def keccakRot : List Nat := [0, 1, 62, 28, 27, 36, 44, 6, 55, 20, 3, 10, 43, 25, 39, 41, 45, 15, 21, 8, 18, 2, 61, 56, 14]

/-- The constants of the 24 rounds. -/
def keccakRounds : List (BitVec 64) :=
  [0x0000000000000001, 0x0000000000008082, 0x800000000000808A, 0x8000000080008000, 0x000000000000808B, 0x0000000080000001,
   0x8000000080008081, 0x8000000000008009, 0x000000000000008A, 0x0000000000000088, 0x0000000080008009, 0x000000008000000A]
  ++ [0x000000008000808B, 0x800000000000008B, 0x8000000000008089, 0x8000000000008003, 0x8000000000008002, 0x8000000000000080,
   0x000000000000800A, 0x800000008000000A, 0x8000000080008081, 0x8000000000008080, 0x0000000080000001, 0x8000000080008008]

/-- Lane (x, y) of the 25 lanes of a state. -/
def lane (a : List (BitVec 64)) (x y : Nat) : BitVec 64 := a.getD (x % 5 + 5 * (y % 5)) 0

/-- Lanes from a rule for lane (x, y). -/
def lanes25 (f : Nat → Nat → BitVec 64) : List (BitVec 64) := (List.range 25).map fun i => f (i % 5) (i / 5)

/-- One round of Keccak-f[1600]. -/
def keccakRound (a : List (BitVec 64)) (rc : BitVec 64) : List (BitVec 64) :=
  let c := (List.range 5).map fun x => (List.range 5).foldl (fun v y => v ^^^ lane a x y) 0
  let d := (List.range 5).map fun x => c.getD ((x + 4) % 5) 0 ^^^ (c.getD ((x + 1) % 5) 0).rotateLeft 1
  let t := lanes25 fun x y => lane a x y ^^^ d.getD x 0
  let b := lanes25 fun x y => (lane t (x + 3 * y) x).rotateLeft (keccakRot.getD ((x + 3 * y) % 5 + 5 * x) 0)
  let n := lanes25 fun x y => lane b x y ^^^ (~~~ lane b (x + 1) y &&& lane b (x + 2) y)
  (n.headD 0 ^^^ rc) :: n.drop 1

/-- Keccak-f[1600]. [PRESUMED, log entry 16] -/
def keccak (a : List (BitVec 64)) : List (BitVec 64) := keccakRounds.foldl keccakRound a

/-- Absorb n blocks of 136 bytes. -/
def absorb : Nat → List Byte → List (BitVec 64) → List (BitVec 64)
  | 0, _, a => a
  | n + 1, l, a =>
    absorb n (l.drop 136) (keccak (a.zipIdx.map fun p => if p.2 < 17 then p.1 ^^^ BitVec.ofNat 64 (leNat ((l.drop (8 * p.2)).take 8)) else p.1))

/-- SHA3-256 of some bytes, its first byte the least significant. [PRESUMED, log entry 16] -/
def sha3 (data : List Byte) : BitVec 256 :=
  let n := data.length / 136 + 1
  let padded := data ++ [0x06#8] ++ List.replicate (136 * n - data.length - 1) 0#8
  let last := 136 * n - 1
  let padded := patch padded last [padded.getD last 0 ||| 0x80#8]
  BitVec.ofNat 256 ((absorb n padded (List.replicate 25 0)).take 4 |>.zipIdx.foldl (fun v p => v + p.1.toNat * 2 ^ (64 * p.2)) 0)

/-! ### AES [PRESUMED, log entry 18] -/

/-- A byte times x in the field of FIPS 197. -/
def xtime (b : Byte) : Byte := (b <<< 1) ^^^ (if b.getLsbD 7 then 0x1B#8 else 0#8)

/-- The product of two bytes in the field of FIPS 197. -/
def gfMul (a b : Byte) : Byte :=
  ((List.range 8).foldl (fun (p : Byte × Byte) i => (if b.getLsbD i then p.1 ^^^ p.2 else p.1, xtime p.2)) (0, a)).1

/-- The inverse of a byte in that field, a to the power 254; 0 of 0. -/
def gfInv (a : Byte) : Byte :=
  let a2 := gfMul a a
  let a4 := gfMul a2 a2
  let a8 := gfMul a4 a4
  let a16 := gfMul a8 a8
  let a32 := gfMul a16 a16
  let a64 := gfMul a32 a32
  gfMul (gfMul (gfMul a2 a4) (gfMul a8 a16)) (gfMul (gfMul a32 a64) (gfMul a64 a64))

/-- SubBytes of one byte. -/
def subByte (a : Byte) : Byte :=
  let i := gfInv a
  i ^^^ i.rotateLeft 1 ^^^ i.rotateLeft 2 ^^^ i.rotateLeft 3 ^^^ i.rotateLeft 4 ^^^ 0x63#8

/-- SubBytes as a table. -/
def sBox : List Byte := (List.range 256).map fun i => subByte (BitVec.ofNat 8 i)

/-- Bytes added without carry, place by place. -/
def xorBytes (a b : List Byte) : List Byte := List.zipWith (· ^^^ ·) a b

/-- n more words of a key schedule of keys of nk words, the newest word first; i is the number of the next word. -/
def expandKey (box : List Byte) (nk : Nat) : Nat → Nat → Byte → List (List Byte) → List (List Byte)
  | 0, _, _, w => w
  | n + 1, i, rc, w =>
    let t := w.headD []
    let sub := fun (l : List Byte) => l.map fun b => box.getD b.toNat 0
    let u := if i % nk = 0 then xorBytes (sub (t.drop 1 ++ t.take 1)) [rc, 0, 0, 0] else if 6 < nk ∧ i % nk = 4 then sub t else t
    expandKey box nk n (i + 1) (if i % nk = 0 then xtime rc else rc) (xorBytes (w.getD (nk - 1) []) u :: w)

/-- The round keys of a key of 16 or 32 bytes. -/
def roundKeys (box : List Byte) (key : List Byte) : List (List Byte) :=
  let nk := key.length / 4
  let w := (List.range nk).map fun i => slice key (4 * i) 4
  let all := (expandKey box nk (4 * (nk + 7) - nk) nk 1 w.reverse).reverse
  (List.range (nk + 7)).map fun r => ((all.drop (4 * r)).take 4).flatten

/-- MixColumns of one column. -/
def mixColumn (c : List Byte) : List Byte :=
  (List.range 4).map fun i => xtime (c.getD i 0) ^^^ (xtime (c.getD ((i + 1) % 4) 0) ^^^ c.getD ((i + 1) % 4) 0) ^^^ c.getD ((i + 2) % 4) 0 ^^^ c.getD ((i + 3) % 4) 0

/-- One round after the first key; the last has no MixColumns. -/
def aesRound (box : List Byte) (last : Bool) (s key : List Byte) : List Byte :=
  let t := (List.range 16).map fun i => box.getD (s.getD ((i + 4 * (i % 4)) % 16) 0).toNat 0
  xorBytes (if last then t else (List.range 4).flatMap fun c => mixColumn (slice t (4 * c) 4)) key

/-- A block under round keys. -/
def aesBlock (box : List Byte) (keys : List (List Byte)) (b : List Byte) : List Byte :=
  let s := (keys.drop 1).dropLast.foldl (aesRound box false) (xorBytes b (keys.headD []))
  aesRound box true s (keys.getLastD [])

/-- The product of GHASH: bit 127 of a number is the block's first bit. -/
def ghashMul (x y : Nat) : Nat :=
  ((List.range 128).foldl (fun (p : Nat × Nat) i =>
    (if x.testBit (127 - i) then p.1 ^^^ p.2 else p.1, if p.2.testBit 0 then (p.2 / 2) ^^^ (0xE1 * 2 ^ 120) else p.2 / 2)) (0, y)).1

/-- GHASH goes on from a value over n blocks, the last one filled with zeros. -/
def ghash (h : Nat) : Nat → List Byte → Nat → Nat
  | 0, _, a => a
  | n + 1, l, a => ghash h n (l.drop 16) (ghashMul (a ^^^ beNat (slice l 0 16)) h)

/-- GHASH over some bytes. -/
def ghashOf (h : Nat) (l : List Byte) (a : Nat) : Nat := ghash h (ceilDiv l.length 16) l a

/-- What a key is made into once: the table, the round keys, the hash subkey. -/
def gcmKey (key : List Byte) : List Byte × List (List Byte) × Nat :=
  let box := sBox
  let ks := roundKeys box key
  (box, ks, beNat (aesBlock box ks (List.replicate 16 0)))

/-- The encrypted counter block n of a 12-byte vector; 1 is the tag's. -/
def gcmCounter (k : List Byte × List (List Byte) × Nat) (iv : List Byte) (n : Nat) : List Byte := aesBlock k.1 k.2.1 (slice iv 0 12 ++ beBytes 4 (n % 2 ^ 32))

/-- The text of the same length under a key and a vector, its first block block n of the whole; encryption and decryption are one function. -/
def gcmTextFrom (n : Nat) (key iv text : List Byte) : List Byte :=
  let k := gcmKey key
  (List.range (ceilDiv text.length 16)).flatMap fun i => xorBytes ((text.drop (16 * i)).take 16) (gcmCounter k iv (n + i + 2))

/-- The text under a key and a vector. [PRESUMED, log entry 18] -/
def gcmText (key iv text : List Byte) : List Byte := gcmTextFrom 0 key iv text

/-- GHASH of additional authenticated data and then ciphertext, so far. [PRESUMED, log entry 18] -/
def gcmHash (key : List Byte) (part : List Byte) (a : Nat) : Nat := ghashOf (gcmKey key).2.2 part a

/-- The 16-byte tag from the hash over aad and cipher bytes. -/
def gcmTagOf (key iv : List Byte) (aad cipher hash : Nat) : List Byte :=
  let k := gcmKey key
  xorBytes (beBytes 16 (ghashMul (hash ^^^ (aad * 8 * 2 ^ 64 + cipher * 8)) k.2.2)) (gcmCounter k iv 1)

/-- The 16-byte tag of AES-GCM over additional authenticated data and ciphertext. [PRESUMED, log entry 18] -/
def gcmTag (key iv aad cipher : List Byte) : List Byte :=
  gcmTagOf key iv aad.length cipher.length (gcmHash key cipher (gcmHash key aad 0))

end Sys2Proof.Machine
end

