-- ==== Sys2Proof/Machine/RegMap.lean ====
section
/-!
DEFINITION. The register map: where every register of the manual lies, its fields, access codes (R9) and reset values,
taken from the register tables of the manual's chapters (the rule of each table stands beside the register).
-/
namespace Sys2Proof.Machine

/-- The access codes of R9. -/
inductive Access where
  | ro | rw | w1c | wo | rwl
  deriving DecidableEq, Repr

/-- One field of a register table: bits hi to lo, its access code, its reset value (0 where the table names another source). -/
structure Field where
  hi : Nat
  lo : Nat
  acc : Access
  reset : Nat
  deriving DecidableEq, Repr

/-- One row group of a register table: the register's offset in its block or unit, the stride and count of each index, its width in words (R8), its fields. -/
structure RegDesc where
  name : String
  base : Nat
  dims : List (Nat × Nat)
  words : Nat
  fields : List Field
  deriving DecidableEq, Repr

/-- SEC_DEVICE_ID (R2): offset from 0x30_0000_0000. -/
def Reg.SEC_DEVICE_ID : Nat := 0x0
/-- PWR_PACE_Cn (R42): offset from 0x30_0000_0000. -/
def Reg.PWR_PACE_C (n : Nat) : Nat := 0x200100 + 0x10 * n
/-- PWR_PACE_MIN_Cn (R43): offset from 0x30_0000_0000. -/
def Reg.PWR_PACE_MIN_C (n : Nat) : Nat := 0x200104 + 0x10 * n
/-- PWR_PACE_CAP_Cn (R45): offset from 0x30_0000_0000. -/
def Reg.PWR_PACE_CAP_C (n : Nat) : Nat := 0x200108 + 0x10 * n
/-- PWR_ALIGN_STATUS (R56): offset from 0x30_0000_0000. -/
def Reg.PWR_ALIGN_STATUS : Nat := 0x200200
/-- TW_STATUSn (R93): offset from 0x30_0000_0000. -/
def Reg.TW_STATUS (n : Nat) : Nat := 0x2000000 + 0x100000 * n
/-- TW_COLMAPn (R94): offset from 0x30_0000_0000. -/
def Reg.TW_COLMAP (n : Nat) (m : Nat) : Nat := 0x2000010 + 0x100000 * n + 0x4 * m
/-- TW_PASSESn (R95): offset from 0x30_0000_0000. -/
def Reg.TW_PASSES (n : Nat) : Nat := 0x2000080 + 0x100000 * n
/-- TW_ABANDONEDn (R95): offset from 0x30_0000_0000. -/
def Reg.TW_ABANDONED (n : Nat) : Nat := 0x2000084 + 0x100000 * n
/-- TW_STEPSn (R95): offset from 0x30_0000_0000. -/
def Reg.TW_STEPS (n : Nat) : Nat := 0x2000088 + 0x100000 * n
/-- TW_STEPS_SAVEDn (R95): offset from 0x30_0000_0000. -/
def Reg.TW_STEPS_SAVED (n : Nat) : Nat := 0x2000090 + 0x100000 * n
/-- TW_OVF_PASSESn (R95): offset from 0x30_0000_0000. -/
def Reg.TW_OVF_PASSES (n : Nat) : Nat := 0x2000098 + 0x100000 * n
/-- TW_LEDGER_MODEn (R118): offset from 0x30_0000_0000. -/
def Reg.TW_LEDGER_MODE (n : Nat) : Nat := 0x2000100 + 0x100000 * n
/-- TW_LEDGER_STATUSn (R119): offset from 0x30_0000_0000. -/
def Reg.TW_LEDGER_STATUS (n : Nat) : Nat := 0x2000104 + 0x100000 * n
/-- TW_LEDGER_LOCn (R120): offset from 0x30_0000_0000. -/
def Reg.TW_LEDGER_LOC (n : Nat) : Nat := 0x2000108 + 0x100000 * n
/-- TW_LEDGER_INJECTn (R121): offset from 0x30_0000_0000. -/
def Reg.TW_LEDGER_INJECT (n : Nat) : Nat := 0x2000120 + 0x100000 * n
/-- TW_LEDGER_CORRECTEDn (R122): offset from 0x30_0000_0000. -/
def Reg.TW_LEDGER_CORRECTED (n : Nat) : Nat := 0x2000110 + 0x100000 * n
/-- TW_LEDGER_DISAGREEn (R122): offset from 0x30_0000_0000. -/
def Reg.TW_LEDGER_DISAGREE (n : Nat) : Nat := 0x2000114 + 0x100000 * n
/-- TW_LEDGER_FAILSn (R122): offset from 0x30_0000_0000. -/
def Reg.TW_LEDGER_FAILS (n : Nat) : Nat := 0x2000118 + 0x100000 * n
/-- TW_LEDGER_INJECTSn (R122): offset from 0x30_0000_0000. -/
def Reg.TW_LEDGER_INJECTS (n : Nat) : Nat := 0x200011C + 0x100000 * n
/-- TW_LEDGER_HISTn (R122): offset from 0x30_0000_0000. -/
def Reg.TW_LEDGER_HIST (n : Nat) (m : Nat) : Nat := 0x2000140 + 0x100000 * n + 0x4 * m
/-- WF_STATUSn (R152): offset from 0x30_0000_0000. -/
def Reg.WF_STATUS (n : Nat) : Nat := 0x2010000 + 0x100000 * n
/-- WF_RUNSn (R152): offset from 0x30_0000_0000. -/
def Reg.WF_RUNS (n : Nat) : Nat := 0x2010010 + 0x100000 * n
/-- WF_FEED_WAITn (R152): offset from 0x30_0000_0000. -/
def Reg.WF_FEED_WAIT (n : Nat) : Nat := 0x2010018 + 0x100000 * n
/-- WF_LINE_HWMn (R152): offset from 0x30_0000_0000. -/
def Reg.WF_LINE_HWM (n : Nat) : Nat := 0x2010020 + 0x100000 * n
/-- WF_CHECK_MISMATCHn (R152): offset from 0x30_0000_0000. -/
def Reg.WF_CHECK_MISMATCH (n : Nat) : Nat := 0x2010024 + 0x100000 * n
/-- TD_STATUSn (R186): offset from 0x30_0000_0000. -/
def Reg.TD_STATUS (n : Nat) (m : Nat) : Nat := 0x2020000 + 0x100000 * n + 0x10000 * m
/-- TD_CHAINSn (R187): offset from 0x30_0000_0000. -/
def Reg.TD_CHAINS (n : Nat) (m : Nat) : Nat := 0x2020010 + 0x100000 * n + 0x10000 * m
/-- TD_STEPSn (R187): offset from 0x30_0000_0000. -/
def Reg.TD_STEPS (n : Nat) (m : Nat) : Nat := 0x2020018 + 0x100000 * n + 0x10000 * m
/-- TD_CHECK_RETRIEDn (R187): offset from 0x30_0000_0000. -/
def Reg.TD_CHECK_RETRIED (n : Nat) (m : Nat) : Nat := 0x2020020 + 0x100000 * n + 0x10000 * m
/-- TD_CHECK_FAILSn (R187): offset from 0x30_0000_0000. -/
def Reg.TD_CHECK_FAILS (n : Nat) (m : Nat) : Nat := 0x2020024 + 0x100000 * n + 0x10000 * m
/-- TD_CHECK_INJECTSn (R187): offset from 0x30_0000_0000. -/
def Reg.TD_CHECK_INJECTS (n : Nat) (m : Nat) : Nat := 0x2020028 + 0x100000 * n + 0x10000 * m
/-- TD_SCATTER_DROPPEDn (R187): offset from 0x30_0000_0000. -/
def Reg.TD_SCATTER_DROPPED (n : Nat) (m : Nat) : Nat := 0x202002C + 0x100000 * n + 0x10000 * m
/-- TD_GATHER_FILLEDn (R187): offset from 0x30_0000_0000. -/
def Reg.TD_GATHER_FILLED (n : Nat) (m : Nat) : Nat := 0x2020030 + 0x100000 * n + 0x10000 * m
/-- TD_INJECTn (R188): offset from 0x30_0000_0000. -/
def Reg.TD_INJECT (n : Nat) (m : Nat) : Nat := 0x2020040 + 0x100000 * n + 0x10000 * m
/-- CX_CTRL (R224): offset from 0x30_0000_0000. -/
def Reg.CX_CTRL : Nat := 0x800000
/-- CX_ACTIVE (R225): offset from 0x30_0000_0000. -/
def Reg.CX_ACTIVE : Nat := 0x800004
/-- CX_SEQ_FULL (R226): offset from 0x30_0000_0000. -/
def Reg.CX_SEQ_FULL : Nat := 0x800010
/-- CX_STALE_DROPPED (R226): offset from 0x30_0000_0000. -/
def Reg.CX_STALE_DROPPED : Nat := 0x800014
/-- CX_LOST (R226): offset from 0x30_0000_0000. -/
def Reg.CX_LOST : Nat := 0x800018
/-- CX_EMPTY_ROWS (R226): offset from 0x30_0000_0000. -/
def Reg.CX_EMPTY_ROWS : Nat := 0x80001C
/-- CX_RANGE_Sn (R227): offset from 0x30_0000_0000. -/
def Reg.CX_RANGE_S (n : Nat) : Nat := 0x800100 + 0x4 * n
/-- BT_CARVEn (R244): offset from 0x30_0000_0000. -/
def Reg.BT_CARVE (n : Nat) (m : Nat) : Nat := 0x2050100 + 0x100000 * n + 0x4 * m
/-- SAF_FWR_BASEn (R249): offset from 0x30_0000_0000. -/
def Reg.SAF_FWR_BASE (n : Nat) : Nat := 0x301000 + 0x10 * n
/-- SAF_FWR_LIMITn (R249): offset from 0x30_0000_0000. -/
def Reg.SAF_FWR_LIMIT (n : Nat) : Nat := 0x301004 + 0x10 * n
/-- SAF_FWR_MASKn (R249): offset from 0x30_0000_0000. -/
def Reg.SAF_FWR_MASK (n : Nat) : Nat := 0x301008 + 0x10 * n
/-- SAF_FWR_CTRLn (R249): offset from 0x30_0000_0000. -/
def Reg.SAF_FWR_CTRL (n : Nat) : Nat := 0x30100C + 0x10 * n
/-- SK_ECC_CEn (R264): offset from 0x30_0000_0000. -/
def Reg.SK_ECC_CE (n : Nat) : Nat := 0x2040010 + 0x100000 * n
/-- SK_ECC_UEn (R264): offset from 0x30_0000_0000. -/
def Reg.SK_ECC_UE (n : Nat) : Nat := 0x2040014 + 0x100000 * n
/-- SK_CHUNK_WAITn (R264): offset from 0x30_0000_0000. -/
def Reg.SK_CHUNK_WAIT (n : Nat) : Nat := 0x2040018 + 0x100000 * n
/-- BT_ECC_CEn (R264): offset from 0x30_0000_0000. -/
def Reg.BT_ECC_CE (n : Nat) : Nat := 0x2050010 + 0x100000 * n
/-- BT_ECC_UEn (R264): offset from 0x30_0000_0000. -/
def Reg.BT_ECC_UE (n : Nat) : Nat := 0x2050014 + 0x100000 * n
/-- BT_INBOUND_WAITn (R264): offset from 0x30_0000_0000. -/
def Reg.BT_INBOUND_WAIT (n : Nat) : Nat := 0x2050018 + 0x100000 * n
/-- BT_SCRUB_PASSESn (R264): offset from 0x30_0000_0000. -/
def Reg.BT_SCRUB_PASSES (n : Nat) : Nat := 0x2050020 + 0x100000 * n
/-- BT_ECC_INJECTSn (R264): offset from 0x30_0000_0000. -/
def Reg.BT_ECC_INJECTS (n : Nat) : Nat := 0x2050024 + 0x100000 * n
/-- BT_ECC_INJECTn (R264): offset from 0x30_0000_0000. -/
def Reg.BT_ECC_INJECT (n : Nat) : Nat := 0x2050040 + 0x100000 * n
/-- MEM_PORT_STATUSn (R264): offset from 0x30_0000_0000. -/
def Reg.MEM_PORT_STATUS (n : Nat) (m : Nat) : Nat := 0x2060000 + 0x100000 * n + 0x10000 * m
/-- MEM_PORT_BYTESn (R264): offset from 0x30_0000_0000. -/
def Reg.MEM_PORT_BYTES (n : Nat) (m : Nat) : Nat := 0x2060008 + 0x100000 * n + 0x10000 * m
/-- MEM_PORT_STARVEn (R264): offset from 0x30_0000_0000. -/
def Reg.MEM_PORT_STARVE (n : Nat) (m : Nat) : Nat := 0x2060010 + 0x100000 * n + 0x10000 * m
/-- MEM_DDR_CFG (R265): offset from 0x30_0000_0000. -/
def Reg.MEM_DDR_CFG : Nat := 0x900000
/-- MEM_DDR_CE (R265): offset from 0x30_0000_0000. -/
def Reg.MEM_DDR_CE : Nat := 0x900010
/-- MEM_DDR_UE (R265): offset from 0x30_0000_0000. -/
def Reg.MEM_DDR_UE : Nat := 0x900014
/-- MEM_DDR_LINK_CE (R265): offset from 0x30_0000_0000. -/
def Reg.MEM_DDR_LINK_CE : Nat := 0x900018
/-- MEM_DDR_LINK_UE (R265): offset from 0x30_0000_0000. -/
def Reg.MEM_DDR_LINK_UE : Nat := 0x90001C
/-- MEM_ECC_INJECT (R265): offset from 0x30_0000_0000. -/
def Reg.MEM_ECC_INJECT : Nat := 0x900040
/-- MEM_ECC_INJECTS (R265): offset from 0x30_0000_0000. -/
def Reg.MEM_ECC_INJECTS : Nat := 0x900044
/-- MEM_HR_STATUS (R265): offset from 0x30_0000_0000. -/
def Reg.MEM_HR_STATUS : Nat := 0x900100
/-- MEM_HR_CE (R265): offset from 0x30_0000_0000. -/
def Reg.MEM_HR_CE : Nat := 0x900104
/-- MEM_HR_UE (R265): offset from 0x30_0000_0000. -/
def Reg.MEM_HR_UE : Nat := 0x900108
/-- CMD_STATUS (R300): offset from 0x30_0000_0000. -/
def Reg.CMD_STATUS : Nat := 0x600000
/-- CMD_EPOCH (R300): offset from 0x30_0000_0000. -/
def Reg.CMD_EPOCH : Nat := 0x600004
/-- CMD_REPLAYED (R300): offset from 0x30_0000_0000. -/
def Reg.CMD_REPLAYED : Nat := 0x600008
/-- CMD_SIGn (R300): offset from 0x30_0000_0000. -/
def Reg.CMD_SIG (n : Nat) : Nat := 0x608000 + 0x8 * n
/-- CMD_RING_CTRLn (R301): offset from 0x30_0000_0000. -/
def Reg.CMD_RING_CTRL (n : Nat) : Nat := 0x601000 + 0x40 * n
/-- CMD_RING_BASEn (R301): offset from 0x30_0000_0000. -/
def Reg.CMD_RING_BASE (n : Nat) : Nat := 0x601008 + 0x40 * n
/-- CMD_RING_COMPn (R301): offset from 0x30_0000_0000. -/
def Reg.CMD_RING_COMP (n : Nat) : Nat := 0x601010 + 0x40 * n
/-- CMD_RING_SEQn (R301): offset from 0x30_0000_0000. -/
def Reg.CMD_RING_SEQ (n : Nat) : Nat := 0x601018 + 0x40 * n
/-- CMD_RING_PUBn (R301): offset from 0x30_0000_0000. -/
def Reg.CMD_RING_PUB (n : Nat) : Nat := 0x601020 + 0x40 * n
/-- CMD_RING_JOBSn (R301): offset from 0x30_0000_0000. -/
def Reg.CMD_RING_JOBS (n : Nat) : Nat := 0x601028 + 0x40 * n
/-- SCH_BE_SLICE (R326): offset from 0x30_0000_0000. -/
def Reg.SCH_BE_SLICE : Nat := 0x700000
/-- SCH_TEST_SLICE (R326): offset from 0x30_0000_0000. -/
def Reg.SCH_TEST_SLICE : Nat := 0x700004
/-- SCH_RING_JOBSn (R326): offset from 0x30_0000_0000. -/
def Reg.SCH_RING_JOBS (n : Nat) : Nat := 0x702000 + 0x4 * n
/-- SCH_STALL_CTRLn (R327): offset from 0x30_0000_0000. -/
def Reg.SCH_STALL_CTRL (n : Nat) : Nat := 0x701000 + 0x40 * n
/-- SCH_STALL_CORESn (R327): offset from 0x30_0000_0000. -/
def Reg.SCH_STALL_CORES (n : Nat) : Nat := 0x701004 + 0x40 * n
/-- SCH_STALL_ALLOWn (R327): offset from 0x30_0000_0000. -/
def Reg.SCH_STALL_ALLOW (n : Nat) : Nat := 0x701008 + 0x40 * n
/-- SCH_STALL_CARVEn (R327): offset from 0x30_0000_0000. -/
def Reg.SCH_STALL_CARVE (n : Nat) : Nat := 0x70100C + 0x40 * n
/-- SCH_STALL_SPILLn (R327): offset from 0x30_0000_0000. -/
def Reg.SCH_STALL_SPILL (n : Nat) : Nat := 0x701010 + 0x40 * n
/-- SCH_STALL_SPILL_MIBn (R327): offset from 0x30_0000_0000. -/
def Reg.SCH_STALL_SPILL_MIB (n : Nat) : Nat := 0x701018 + 0x40 * n
/-- SCH_STALL_STEPSn (R327): offset from 0x30_0000_0000. -/
def Reg.SCH_STALL_STEPS (n : Nat) : Nat := 0x701020 + 0x40 * n
/-- SCH_STALL_DEBTn (R327): offset from 0x30_0000_0000. -/
def Reg.SCH_STALL_DEBT (n : Nat) : Nat := 0x701028 + 0x40 * n
/-- SCH_STALL_STATUSn (R327): offset from 0x30_0000_0000. -/
def Reg.SCH_STALL_STATUS (n : Nat) : Nat := 0x70102C + 0x40 * n
/-- SCH_GRAPH_CTRLn (R328): offset from 0x30_0000_0000. -/
def Reg.SCH_GRAPH_CTRL (n : Nat) : Nat := 0x704000 + 0x40 * n
/-- SCH_GRAPH_TABLEn (R328): offset from 0x30_0000_0000. -/
def Reg.SCH_GRAPH_TABLE (n : Nat) : Nat := 0x704008 + 0x40 * n
/-- SCH_GRAPH_TRIGn (R328): offset from 0x30_0000_0000. -/
def Reg.SCH_GRAPH_TRIG (n : Nat) (m : Nat) : Nat := 0x704010 + 0x40 * n + 0x4 * m
/-- SCH_GRAPH_PERIODn (R328): offset from 0x30_0000_0000. -/
def Reg.SCH_GRAPH_PERIOD (n : Nat) : Nat := 0x704020 + 0x40 * n
/-- SCH_GRAPH_DEADLINEn (R328): offset from 0x30_0000_0000. -/
def Reg.SCH_GRAPH_DEADLINE (n : Nat) : Nat := 0x704024 + 0x40 * n
/-- SCH_GRAPH_FIREDn (R328): offset from 0x30_0000_0000. -/
def Reg.SCH_GRAPH_FIRED (n : Nat) : Nat := 0x704028 + 0x40 * n
/-- SCH_GRAPH_SKIPPEDn (R328): offset from 0x30_0000_0000. -/
def Reg.SCH_GRAPH_SKIPPED (n : Nat) : Nat := 0x70402C + 0x40 * n
/-- SCH_GRAPH_MISSEDn (R328): offset from 0x30_0000_0000. -/
def Reg.SCH_GRAPH_MISSED (n : Nat) : Nat := 0x704030 + 0x40 * n
/-- SCH_GRAPH_FAILEDn (R328): offset from 0x30_0000_0000. -/
def Reg.SCH_GRAPH_FAILED (n : Nat) : Nat := 0x704034 + 0x40 * n
/-- ING_STR_CTRLn (R360): offset from 0x30_0000_0000. -/
def Reg.ING_STR_CTRL (n : Nat) : Nat := 0xA10000 + 0x40 * n
/-- ING_STR_FMTn (R360): offset from 0x30_0000_0000. -/
def Reg.ING_STR_FMT (n : Nat) : Nat := 0xA10004 + 0x40 * n
/-- ING_STR_GEOMn (R360): offset from 0x30_0000_0000. -/
def Reg.ING_STR_GEOM (n : Nat) : Nat := 0xA10008 + 0x40 * n
/-- ING_STR_PERIODn (R360): offset from 0x30_0000_0000. -/
def Reg.ING_STR_PERIOD (n : Nat) : Nat := 0xA1000C + 0x40 * n
/-- ING_STR_FILLn (R360): offset from 0x30_0000_0000. -/
def Reg.ING_STR_FILL (n : Nat) : Nat := 0xA10010 + 0x40 * n
/-- ING_STR_SENSORn (R360): offset from 0x30_0000_0000. -/
def Reg.ING_STR_SENSOR (n : Nat) : Nat := 0xA10014 + 0x40 * n
/-- ING_STR_MATCHn (R360): offset from 0x30_0000_0000. -/
def Reg.ING_STR_MATCH (n : Nat) : Nat := 0xA10018 + 0x40 * n
/-- ING_STR_NETn (R360): offset from 0x30_0000_0000. -/
def Reg.ING_STR_NET (n : Nat) : Nat := 0xA10020 + 0x40 * n
/-- ING_STR_TRIGn (R360): offset from 0x30_0000_0000. -/
def Reg.ING_STR_TRIG (n : Nat) : Nat := 0xA10024 + 0x40 * n
/-- ING_STR_TABLEn (R360): offset from 0x30_0000_0000. -/
def Reg.ING_STR_TABLE (n : Nat) : Nat := 0xA10028 + 0x40 * n
/-- ING_STR_FRAMEn (R360): offset from 0x30_0000_0000. -/
def Reg.ING_STR_FRAME (n : Nat) : Nat := 0xA10030 + 0x40 * n
/-- ING_STR_LASTn (R360): offset from 0x30_0000_0000. -/
def Reg.ING_STR_LAST (n : Nat) : Nat := 0xA10034 + 0x40 * n
/-- ING_STR_DROPPEDn (R360): offset from 0x30_0000_0000. -/
def Reg.ING_STR_DROPPED (n : Nat) : Nat := 0xA10038 + 0x40 * n
/-- ING_STR_ERRORSn (R360): offset from 0x30_0000_0000. -/
def Reg.ING_STR_ERRORS (n : Nat) : Nat := 0xA1003C + 0x40 * n
/-- ING_CSI_CTRLn (R362): offset from 0x30_0000_0000. -/
def Reg.ING_CSI_CTRL (n : Nat) : Nat := 0xA40000 + 0x100 * n
/-- ING_CSI_STATUSn (R362): offset from 0x30_0000_0000. -/
def Reg.ING_CSI_STATUS (n : Nat) : Nat := 0xA40004 + 0x100 * n
/-- ING_CSI_ECC_CEn (R362): offset from 0x30_0000_0000. -/
def Reg.ING_CSI_ECC_CE (n : Nat) : Nat := 0xA40008 + 0x100 * n
/-- ING_CSI_ERRn (R362): offset from 0x30_0000_0000. -/
def Reg.ING_CSI_ERR (n : Nat) : Nat := 0xA4000C + 0x100 * n
/-- ING_CSI_UNMAPPEDn (R362): offset from 0x30_0000_0000. -/
def Reg.ING_CSI_UNMAPPED (n : Nat) : Nat := 0xA40010 + 0x100 * n
/-- ING_SCC_CTRLn (R362): offset from 0x30_0000_0000. -/
def Reg.ING_SCC_CTRL (n : Nat) : Nat := 0xA50000 + 0x100 * n
/-- ISP_INLINE (R363): offset from 0x30_0000_0000. -/
def Reg.ISP_INLINE : Nat := 0xB00000
/-- ISP_LOAD (R363): offset from 0x30_0000_0000. -/
def Reg.ISP_LOAD : Nat := 0xB00004
/-- ISP_QUEUE (R363): offset from 0x30_0000_0000. -/
def Reg.ISP_QUEUE : Nat := 0xB00008
/-- ISP_FRAMES (R363): offset from 0x30_0000_0000. -/
def Reg.ISP_FRAMES : Nat := 0xB00010
/-- ISP_CHECK (R363): offset from 0x30_0000_0000. -/
def Reg.ISP_CHECK : Nat := 0xB00014
/-- TIM_NOW (R384): offset from 0x30_0000_0000. -/
def Reg.TIM_NOW : Nat := 0x500000
/-- TIM_INCREMENT_FRAC (R384): offset from 0x30_0000_0000. -/
def Reg.TIM_INCREMENT_FRAC : Nat := 0x500010
/-- TIM_INCREMENT_NS (R384): offset from 0x30_0000_0000. -/
def Reg.TIM_INCREMENT_NS : Nat := 0x500014
/-- TIM_OFFSET (R384): offset from 0x30_0000_0000. -/
def Reg.TIM_OFFSET : Nat := 0x500020
/-- TIM_CTRL (R384): offset from 0x30_0000_0000. -/
def Reg.TIM_CTRL : Nat := 0x500030
/-- TIM_STATUS (R384): offset from 0x30_0000_0000. -/
def Reg.TIM_STATUS : Nat := 0x500034
/-- TIM_TSIN_CTRLn (R384): offset from 0x30_0000_0000. -/
def Reg.TIM_TSIN_CTRL (n : Nat) : Nat := 0x500100 + 0x20 * n
/-- TIM_TSIN_OVFn (R384): offset from 0x30_0000_0000. -/
def Reg.TIM_TSIN_OVF (n : Nat) : Nat := 0x500104 + 0x20 * n
/-- TIM_TSIN_RECn (R384): offset from 0x30_0000_0000. -/
def Reg.TIM_TSIN_REC (n : Nat) : Nat := 0x500110 + 0x20 * n
/-- TIM_TRIG_CTRLn (R384): offset from 0x30_0000_0000. -/
def Reg.TIM_TRIG_CTRL (n : Nat) : Nat := 0x500200 + 0x40 * n
/-- TIM_TRIG_STARTn (R384): offset from 0x30_0000_0000. -/
def Reg.TIM_TRIG_START (n : Nat) : Nat := 0x500208 + 0x40 * n
/-- TIM_TRIG_PERIODn (R384): offset from 0x30_0000_0000. -/
def Reg.TIM_TRIG_PERIOD (n : Nat) : Nat := 0x500210 + 0x40 * n
/-- TIM_TRIG_WIDTHn (R384): offset from 0x30_0000_0000. -/
def Reg.TIM_TRIG_WIDTH (n : Nat) : Nat := 0x500214 + 0x40 * n
/-- TIM_TRIG_COUNTn (R384): offset from 0x30_0000_0000. -/
def Reg.TIM_TRIG_COUNT (n : Nat) : Nat := 0x500218 + 0x40 * n
/-- TIM_TRIG_LASTn (R384): offset from 0x30_0000_0000. -/
def Reg.TIM_TRIG_LAST (n : Nat) : Nat := 0x500220 + 0x40 * n
/-- TIM_TRIG_LATEn (R384): offset from 0x30_0000_0000. -/
def Reg.TIM_TRIG_LATE (n : Nat) : Nat := 0x500228 + 0x40 * n
/-- TIM_PPS_CTRL (R384): offset from 0x30_0000_0000. -/
def Reg.TIM_PPS_CTRL : Nat := 0x500400
/-- TIM_PORT_LATn (R384): offset from 0x30_0000_0000. -/
def Reg.TIM_PORT_LAT (n : Nat) : Nat := 0x500500 + 0x10 * n
/-- TIM_PTP_OVFn (R384): offset from 0x30_0000_0000. -/
def Reg.TIM_PTP_OVF (n : Nat) : Nat := 0x500600 + 0x20 * n
/-- TIM_PTP_RECn (R384): offset from 0x30_0000_0000. -/
def Reg.TIM_PTP_REC (n : Nat) : Nat := 0x500610 + 0x20 * n
/-- TIM_BIL_STATUSn (R384): offset from 0x30_0000_0000. -/
def Reg.TIM_BIL_STATUS (n : Nat) : Nat := 0x500700 + 0x20 * n
/-- TIM_BIL_DELAYn (R384): offset from 0x30_0000_0000. -/
def Reg.TIM_BIL_DELAY (n : Nat) : Nat := 0x500704 + 0x20 * n
/-- TIM_BIL_OFFSETn (R384): offset from 0x30_0000_0000. -/
def Reg.TIM_BIL_OFFSET (n : Nat) : Nat := 0x500708 + 0x20 * n
/-- ETH_PORT_CTRLn (R412): offset from 0x30_0000_0000. -/
def Reg.ETH_PORT_CTRL (n : Nat) : Nat := 0xC00000 + 0x1000 * n
/-- ETH_MAC_ADDRn (R412): offset from 0x30_0000_0000. -/
def Reg.ETH_MAC_ADDR (n : Nat) : Nat := 0xC00008 + 0x1000 * n
/-- ETH_IPV4n (R412): offset from 0x30_0000_0000. -/
def Reg.ETH_IPV4 (n : Nat) : Nat := 0xC00010 + 0x1000 * n
/-- ETH_NETn (R412): offset from 0x30_0000_0000. -/
def Reg.ETH_NET (n : Nat) : Nat := 0xC00014 + 0x1000 * n
/-- ETH_IPV6n (R412): offset from 0x30_0000_0000. -/
def Reg.ETH_IPV6 (n : Nat) : Nat := 0xC00020 + 0x1000 * n
/-- ETH_QUEUEn (R412): offset from 0x30_0000_0000. -/
def Reg.ETH_QUEUE (n : Nat) (m : Nat) : Nat := 0xC00040 + 0x1000 * n + 0x4 * m
/-- ETH_LATE_NSn (R412): offset from 0x30_0000_0000. -/
def Reg.ETH_LATE_NS (n : Nat) : Nat := 0xC00060 + 0x1000 * n
/-- ETH_MACSEC_CTRLn (R412): offset from 0x30_0000_0000. -/
def Reg.ETH_MACSEC_CTRL (n : Nat) : Nat := 0xC00080 + 0x1000 * n
/-- ETH_MACSEC_WINDOWn (R412): offset from 0x30_0000_0000. -/
def Reg.ETH_MACSEC_WINDOW (n : Nat) : Nat := 0xC00084 + 0x1000 * n
/-- ETH_RX_FRAMESn (R412): offset from 0x30_0000_0000. -/
def Reg.ETH_RX_FRAMES (n : Nat) : Nat := 0xC00100 + 0x1000 * n
/-- ETH_TX_FRAMESn (R412): offset from 0x30_0000_0000. -/
def Reg.ETH_TX_FRAMES (n : Nat) : Nat := 0xC00108 + 0x1000 * n
/-- ETH_RX_DROPn (R412): offset from 0x30_0000_0000. -/
def Reg.ETH_RX_DROP (n : Nat) : Nat := 0xC00110 + 0x1000 * n
/-- ETH_MACSEC_FAILn (R412): offset from 0x30_0000_0000. -/
def Reg.ETH_MACSEC_FAIL (n : Nat) : Nat := 0xC00114 + 0x1000 * n
/-- ETH_LAUNCH_LATEn (R412): offset from 0x30_0000_0000. -/
def Reg.ETH_LAUNCH_LATE (n : Nat) : Nat := 0xC00118 + 0x1000 * n
/-- ETH_MCASTn (R412): offset from 0x30_0000_0000. -/
def Reg.ETH_MCAST (n : Nat) (m : Nat) : Nat := 0xC00300 + 0x1000 * n + 0x8 * m
/-- ETH_MGMT_RX_STATUSn (R412): offset from 0x30_0000_0000. -/
def Reg.ETH_MGMT_RX_STATUS (n : Nat) : Nat := 0xC00200 + 0x1000 * n
/-- ETH_MGMT_TX_CTRLn (R412): offset from 0x30_0000_0000. -/
def Reg.ETH_MGMT_TX_CTRL (n : Nat) : Nat := 0xC00204 + 0x1000 * n
/-- ETH_MGMT_RX_DATAn (R412): offset from 0x30_0000_0000. -/
def Reg.ETH_MGMT_RX_DATA (n : Nat) (m : Nat) : Nat := 0xC00400 + 0x1000 * n + 0x4 * m
/-- ETH_MGMT_TX_DATAn (R412): offset from 0x30_0000_0000. -/
def Reg.ETH_MGMT_TX_DATA (n : Nat) (m : Nat) : Nat := 0xC00600 + 0x1000 * n + 0x4 * m
/-- BAR_CTRL (R413): offset from 0x30_0000_0000. -/
def Reg.BAR_CTRL : Nat := 0xD00000
/-- BAR_VERSION (R413): offset from 0x30_0000_0000. -/
def Reg.BAR_VERSION : Nat := 0xD00004
/-- BAR_RTO (R413): offset from 0x30_0000_0000. -/
def Reg.BAR_RTO : Nat := 0xD00008
/-- BAR_IDLE (R413): offset from 0x30_0000_0000. -/
def Reg.BAR_IDLE : Nat := 0xD0000C
/-- BAR_ELECT (R413): offset from 0x30_0000_0000. -/
def Reg.BAR_ELECT : Nat := 0xD00010
/-- BAR_OWNER (R413): offset from 0x30_0000_0000. -/
def Reg.BAR_OWNER : Nat := 0xD00014
/-- BAR_OWNER_GEN (R413): offset from 0x30_0000_0000. -/
def Reg.BAR_OWNER_GEN : Nat := 0xD00018
/-- BAR_HELD (R413): offset from 0x30_0000_0000. -/
def Reg.BAR_HELD : Nat := 0xD0001C
/-- BAR_DROPPED (R413): offset from 0x30_0000_0000. -/
def Reg.BAR_DROPPED : Nat := 0xD00020
/-- BAR_HOSTn (R413): offset from 0x30_0000_0000. -/
def Reg.BAR_HOST (n : Nat) : Nat := 0xD00100 + 0x20 * n
/-- BAR_HOST_ADDRn (R413): offset from 0x30_0000_0000. -/
def Reg.BAR_HOST_ADDR (n : Nat) : Nat := 0xD00110 + 0x20 * n
/-- BAR_WINn (R413): offset from 0x30_0000_0000. -/
def Reg.BAR_WIN (n : Nat) : Nat := 0xD01000 + 0x10 * n
/-- BAR_WIN_SIZEn (R413): offset from 0x30_0000_0000. -/
def Reg.BAR_WIN_SIZE (n : Nat) : Nat := 0xD01008 + 0x10 * n
/-- BAR_SESSn (R413): offset from 0x30_0000_0000. -/
def Reg.BAR_SESS (n : Nat) : Nat := 0xD03000 + 0x20 * n
/-- BAR_SESS_INFOn (R413): offset from 0x30_0000_0000. -/
def Reg.BAR_SESS_INFO (n : Nat) : Nat := 0xD03004 + 0x20 * n
/-- BAR_SESS_STATSn (R413): offset from 0x30_0000_0000. -/
def Reg.BAR_SESS_STATS (n : Nat) : Nat := 0xD03008 + 0x20 * n
/-- SAF_PERM_CTRL (R416): offset from 0x30_0000_0000. -/
def Reg.SAF_PERM_CTRL : Nat := 0x300000
/-- SAF_PERMn (R416): offset from 0x30_0000_0000. -/
def Reg.SAF_PERM (n : Nat) : Nat := 0x300100 + 0x4 * n
/-- SAF_LOCK_VIOL (R417): offset from 0x30_0000_0000. -/
def Reg.SAF_LOCK_VIOL : Nat := 0x300010
/-- SAF_LOCK_LAST (R417): offset from 0x30_0000_0000. -/
def Reg.SAF_LOCK_LAST : Nat := 0x300014
/-- SAF_AGE_CTRLn (R430): offset from 0x30_0000_0000. -/
def Reg.SAF_AGE_CTRL (n : Nat) : Nat := 0x302000 + 0x20 * n
/-- SAF_AGE_LIMITn (R430): offset from 0x30_0000_0000. -/
def Reg.SAF_AGE_LIMIT (n : Nat) : Nat := 0x302004 + 0x20 * n
/-- SAF_AGE_PERIODn (R430): offset from 0x30_0000_0000. -/
def Reg.SAF_AGE_PERIOD (n : Nat) : Nat := 0x302008 + 0x20 * n
/-- SAF_AGE_TOLn (R430): offset from 0x30_0000_0000. -/
def Reg.SAF_AGE_TOL (n : Nat) : Nat := 0x30200C + 0x20 * n
/-- SAF_AGE_LASTn (R430): offset from 0x30_0000_0000. -/
def Reg.SAF_AGE_LAST (n : Nat) : Nat := 0x302010 + 0x20 * n
/-- SAF_AGE_FRAMEn (R430): offset from 0x30_0000_0000. -/
def Reg.SAF_AGE_FRAME (n : Nat) : Nat := 0x302014 + 0x20 * n
/-- SAF_AGE_COUNTn (R430): offset from 0x30_0000_0000. -/
def Reg.SAF_AGE_COUNT (n : Nat) : Nat := 0x302018 + 0x20 * n
/-- SAF_DIG_CTRL (R436): offset from 0x30_0000_0000. -/
def Reg.SAF_DIG_CTRL : Nat := 0x303000
/-- SAF_DIG_ROUNDS (R436): offset from 0x30_0000_0000. -/
def Reg.SAF_DIG_ROUNDS : Nat := 0x303004
/-- SAF_DIG_ENTn (R436): offset from 0x30_0000_0000. -/
def Reg.SAF_DIG_ENT (n : Nat) : Nat := 0x303100 + 0x40 * n
/-- SAF_DIG_ADDRn (R436): offset from 0x30_0000_0000. -/
def Reg.SAF_DIG_ADDR (n : Nat) : Nat := 0x303108 + 0x40 * n
/-- SAF_DIG_LENGTHn (R436): offset from 0x30_0000_0000. -/
def Reg.SAF_DIG_LENGTH (n : Nat) : Nat := 0x303110 + 0x40 * n
/-- SAF_DIG_TIMEn (R436): offset from 0x30_0000_0000. -/
def Reg.SAF_DIG_TIME (n : Nat) : Nat := 0x303118 + 0x40 * n
/-- SAF_DIG_DIGESTn (R436): offset from 0x30_0000_0000. -/
def Reg.SAF_DIG_DIGEST (n : Nat) : Nat := 0x303120 + 0x40 * n
/-- TAL_REACTn (R443): offset from 0x30_0000_0000. -/
def Reg.TAL_REACT (n : Nat) : Nat := 0x400100 + 0x4 * n
/-- TAL_CTRL (R467): offset from 0x30_0000_0000. -/
def Reg.TAL_CTRL : Nat := 0x400000
/-- TAL_STATUS (R467): offset from 0x30_0000_0000. -/
def Reg.TAL_STATUS : Nat := 0x400004
/-- TAL_FIRST (R467): offset from 0x30_0000_0000. -/
def Reg.TAL_FIRST : Nat := 0x400010
/-- TAL_FIRST_CTRL (R467): offset from 0x30_0000_0000. -/
def Reg.TAL_FIRST_CTRL : Nat := 0x400020
/-- TAL_HIST_WR (R467): offset from 0x30_0000_0000. -/
def Reg.TAL_HIST_WR : Nat := 0x400030
/-- TAL_HIST_RD (R467): offset from 0x30_0000_0000. -/
def Reg.TAL_HIST_RD : Nat := 0x400034
/-- TAL_HIST_OVERFLOW (R467): offset from 0x30_0000_0000. -/
def Reg.TAL_HIST_OVERFLOW : Nat := 0x400038
/-- TAL_COALESCE_FULL (R467): offset from 0x30_0000_0000. -/
def Reg.TAL_COALESCE_FULL : Nat := 0x40003C
/-- TAL_FRAME_CTRL (R467): offset from 0x30_0000_0000. -/
def Reg.TAL_FRAME_CTRL : Nat := 0x400040
/-- TAL_DEST_MAC (R467): offset from 0x30_0000_0000. -/
def Reg.TAL_DEST_MAC : Nat := 0x400048
/-- TAL_DEST_IP (R467): offset from 0x30_0000_0000. -/
def Reg.TAL_DEST_IP : Nat := 0x400050
/-- TAL_DEST_UDP (R467): offset from 0x30_0000_0000. -/
def Reg.TAL_DEST_UDP : Nat := 0x400060
/-- TAL_FRAME_SEQ (R467): offset from 0x30_0000_0000. -/
def Reg.TAL_FRAME_SEQ : Nat := 0x400064
/-- TAL_FRAMES_LOST (R467): offset from 0x30_0000_0000. -/
def Reg.TAL_FRAMES_LOST : Nat := 0x400068
/-- TAL_PENDINGn (R467): offset from 0x30_0000_0000. -/
def Reg.TAL_PENDING (n : Nat) : Nat := 0x400080 + 0x4 * n
/-- TAL_HISTn (R467): offset from 0x30_0000_0000. -/
def Reg.TAL_HIST (n : Nat) : Nat := 0x401000 + 0x10 * n
/-- TAL_SW_CTRL (R468): offset from 0x30_0000_0000. -/
def Reg.TAL_SW_CTRL : Nat := 0x402000
/-- TAL_SW_STATUS (R468): offset from 0x30_0000_0000. -/
def Reg.TAL_SW_STATUS : Nat := 0x402004
/-- TAL_SW_CYCLES (R468): offset from 0x30_0000_0000. -/
def Reg.TAL_SW_CYCLES : Nat := 0x402008
/-- TAL_SW_DEFERRED (R468): offset from 0x30_0000_0000. -/
def Reg.TAL_SW_DEFERRED : Nat := 0x40200C
/-- TAL_SW_STARVED (R468): offset from 0x30_0000_0000. -/
def Reg.TAL_SW_STARVED : Nat := 0x402010
/-- TAL_SW_SLOTn (R468): offset from 0x30_0000_0000. -/
def Reg.TAL_SW_SLOT (n : Nat) : Nat := 0x402100 + 0x20 * n
/-- TAL_SW_ADDRn (R468): offset from 0x30_0000_0000. -/
def Reg.TAL_SW_ADDR (n : Nat) : Nat := 0x402108 + 0x20 * n
/-- TAL_SW_IDn (R468): offset from 0x30_0000_0000. -/
def Reg.TAL_SW_ID (n : Nat) : Nat := 0x402110 + 0x20 * n
/-- TAL_SW_VERn (R468): offset from 0x30_0000_0000. -/
def Reg.TAL_SW_VER (n : Nat) : Nat := 0x402114 + 0x20 * n
/-- SEC_LIFECYCLE (R492): offset from 0x30_0000_0000. -/
def Reg.SEC_LIFECYCLE : Nat := 0x4
/-- SEC_LC_TOKEN (R492): offset from 0x30_0000_0000. -/
def Reg.SEC_LC_TOKEN : Nat := 0x8
/-- SEC_LC_CTRL (R492): offset from 0x30_0000_0000. -/
def Reg.SEC_LC_CTRL : Nat := 0x10
/-- SEC_SERIAL (R492): offset from 0x30_0000_0000. -/
def Reg.SEC_SERIAL : Nat := 0x18
/-- SEC_OTP_STATUS (R492): offset from 0x30_0000_0000. -/
def Reg.SEC_OTP_STATUS : Nat := 0x20
/-- SEC_ROLLBACKn (R492): offset from 0x30_0000_0000. -/
def Reg.SEC_ROLLBACK (n : Nat) : Nat := 0x40 + 0x4 * n
/-- SEC_ROLLBACK_COMMIT (R492): offset from 0x30_0000_0000. -/
def Reg.SEC_ROLLBACK_COMMIT : Nat := 0x60
/-- SEC_NOR_CTRL (R492): offset from 0x30_0000_0000. -/
def Reg.SEC_NOR_CTRL : Nat := 0x100
/-- SEC_NOR_SRC (R492): offset from 0x30_0000_0000. -/
def Reg.SEC_NOR_SRC : Nat := 0x108
/-- SEC_NOR_DST (R492): offset from 0x30_0000_0000. -/
def Reg.SEC_NOR_DST : Nat := 0x110
/-- SEC_NOR_LEN (R492): offset from 0x30_0000_0000. -/
def Reg.SEC_NOR_LEN : Nat := 0x114
/-- SEC_KEY_CTRL (R492): offset from 0x30_0000_0000. -/
def Reg.SEC_KEY_CTRL : Nat := 0x200
/-- SEC_KEY_LOAD_ADDR (R492): offset from 0x30_0000_0000. -/
def Reg.SEC_KEY_LOAD_ADDR : Nat := 0x208
/-- SEC_DKEYn (R492): offset from 0x30_0000_0000. -/
def Reg.SEC_DKEY (n : Nat) : Nat := 0x300 + 0x4 * n
/-- SEC_VKEYn (R492): offset from 0x30_0000_0000. -/
def Reg.SEC_VKEY (n : Nat) : Nat := 0x340 + 0x4 * n
/-- SEC_ATTEST_CTRL (R492): offset from 0x30_0000_0000. -/
def Reg.SEC_ATTEST_CTRL : Nat := 0x400
/-- SEC_ATTEST_NONCE (R492): offset from 0x30_0000_0000. -/
def Reg.SEC_ATTEST_NONCE : Nat := 0x420
/-- SEC_ATTEST_REPORT (R492): offset from 0x30_0000_0000. -/
def Reg.SEC_ATTEST_REPORT : Nat := 0x1000
/-- SEC_ID_PUBKEY (R492): offset from 0x30_0000_0000. -/
def Reg.SEC_ID_PUBKEY : Nat := 0x2000
/-- FW_STATUS (R493): offset from 0x30_0000_0000. -/
def Reg.FW_STATUS : Nat := 0x100000
/-- FW_ACTIVATE (R493): offset from 0x30_0000_0000. -/
def Reg.FW_ACTIVATE : Nat := 0x100004
/-- FW_CTRL (R493): offset from 0x30_0000_0000. -/
def Reg.FW_CTRL : Nat := 0x100008
/-- FW_IMAGEn (R493): offset from 0x30_0000_0000. -/
def Reg.FW_IMAGE (n : Nat) : Nat := 0x100100 + 0x40 * n
/-- FW_IMAGE_SVNn (R493): offset from 0x30_0000_0000. -/
def Reg.FW_IMAGE_SVN (n : Nat) : Nat := 0x100104 + 0x40 * n
/-- FW_IMAGE_DIGESTn (R493): offset from 0x30_0000_0000. -/
def Reg.FW_IMAGE_DIGEST (n : Nat) : Nat := 0x100120 + 0x40 * n
/-- FW_PROCn (R493): offset from 0x30_0000_0000. -/
def Reg.FW_PROC (n : Nat) : Nat := 0x100400 + 0x10 * n
/-- FW_RESTARTSn (R493): offset from 0x30_0000_0000. -/
def Reg.FW_RESTARTS (n : Nat) : Nat := 0x100404 + 0x10 * n
/-- FW_WDT_EXPn (R493): offset from 0x30_0000_0000. -/
def Reg.FW_WDT_EXP (n : Nat) : Nat := 0x100408 + 0x10 * n
/-- FW_TEST_ADDR (R493): offset from 0x30_0000_0000. -/
def Reg.FW_TEST_ADDR : Nat := 0x100800
/-- PWR_STATE (R499): offset from 0x30_0000_0000. -/
def Reg.PWR_STATE : Nat := 0x200000
/-- PWR_CLUSTER_Cn (R500): offset from 0x30_0000_0000. -/
def Reg.PWR_CLUSTER_C (n : Nat) : Nat := 0x200300 + 0x4 * n
/-- PWR_CAP (R504): offset from 0x30_0000_0000. -/
def Reg.PWR_CAP : Nat := 0x200004
/-- PWR_POWER (R504): offset from 0x30_0000_0000. -/
def Reg.PWR_POWER : Nat := 0x200008
/-- PWR_REG_Cn (R507): offset from 0x30_0000_0000. -/
def Reg.PWR_REG_C (n : Nat) : Nat := 0x200400 + 0x10 * n
/-- PWR_THERM (R511): offset from 0x30_0000_0000. -/
def Reg.PWR_THERM : Nat := 0x200500
/-- PWR_TEMP_DIE (R511): offset from 0x30_0000_0000. -/
def Reg.PWR_TEMP_DIE : Nat := 0x200504
/-- PWR_TEMP_Cn (R511): offset from 0x30_0000_0000. -/
def Reg.PWR_TEMP_C (n : Nat) : Nat := 0x200510 + 0x4 * n
/-- PWR_RESET (R514): offset from 0x30_0000_0000. -/
def Reg.PWR_RESET : Nat := 0x200010
/-- PWR_RESET_CAUSE (R514): offset from 0x30_0000_0000. -/
def Reg.PWR_RESET_CAUSE : Nat := 0x200014
/-- BIL_DEVICE (R539): offset from 0x30_0000_0000. -/
def Reg.BIL_DEVICE : Nat := 0xE00000
/-- BIL_VERSION (R539): offset from 0x30_0000_0000. -/
def Reg.BIL_VERSION : Nat := 0xE00004
/-- BIL_PORT_CTRLn (R539): offset from 0x30_0000_0000. -/
def Reg.BIL_PORT_CTRL (n : Nat) : Nat := 0xE00100 + 0x40 * n
/-- BIL_PORT_STATUSn (R539): offset from 0x30_0000_0000. -/
def Reg.BIL_PORT_STATUS (n : Nat) : Nat := 0xE00104 + 0x40 * n
/-- BIL_RETRIESn (R539): offset from 0x30_0000_0000. -/
def Reg.BIL_RETRIES (n : Nat) : Nat := 0xE00108 + 0x40 * n
/-- BIL_CRC_ERRn (R539): offset from 0x30_0000_0000. -/
def Reg.BIL_CRC_ERR (n : Nat) : Nat := 0xE0010C + 0x40 * n
/-- BIL_TX_BYTESn (R539): offset from 0x30_0000_0000. -/
def Reg.BIL_TX_BYTES (n : Nat) : Nat := 0xE00110 + 0x40 * n
/-- BIL_RX_BYTESn (R539): offset from 0x30_0000_0000. -/
def Reg.BIL_RX_BYTES (n : Nat) : Nat := 0xE00118 + 0x40 * n
/-- BIL_PEER_FAULTn (R539): offset from 0x30_0000_0000. -/
def Reg.BIL_PEER_FAULT (n : Nat) : Nat := 0xE00120 + 0x40 * n
/-- BIL_PEER_OVFn (R539): offset from 0x30_0000_0000. -/
def Reg.BIL_PEER_OVF (n : Nat) : Nat := 0xE00130 + 0x40 * n
/-- SK_CARVEn (R244): offset from 0x30_0000_0000. -/
def Reg.SK_CARVE (n : Nat) (m : Nat) : Nat := 0x2040100 + 0x100000 * n + 0x4 * m

/-- Registers of the SEC tables, part 0. -/
def regsSec0 : List RegDesc := [
  -- R2
  ⟨"SEC_DEVICE_ID", 0x0, [], 1, [⟨31, 16, .ro, 0x4512⟩, ⟨15, 8, .ro, 0x41⟩, ⟨7, 0, .ro, 0x1⟩]⟩,
  -- R492
  ⟨"SEC_LIFECYCLE", 0x4, [], 1, [⟨31, 31, .ro, 0x0⟩, ⟨5, 4, .ro, 0x0⟩, ⟨1, 0, .ro, 0x0⟩]⟩,
  -- R492
  ⟨"SEC_LC_TOKEN", 0x8, [], 2, [⟨63, 0, .rw, 0x0⟩]⟩,
  -- R492
  ⟨"SEC_LC_CTRL", 0x10, [], 1, [⟨31, 31, .wo, 0x0⟩, ⟨30, 30, .wo, 0x0⟩, ⟨3, 0, .ro, 0x0⟩]⟩,
  -- R492
  ⟨"SEC_SERIAL", 0x18, [], 2, [⟨63, 0, .ro, 0x0⟩]⟩,
  -- R492
  ⟨"SEC_OTP_STATUS", 0x20, [], 1, [⟨6, 6, .ro, 0x0⟩, ⟨5, 5, .ro, 0x0⟩, ⟨4, 4, .ro, 0x0⟩, ⟨0, 0, .ro, 0x0⟩]⟩,
  -- R492
  ⟨"SEC_ROLLBACK", 0x40, [(0x4, 7)], 1, [⟨6, 0, .ro, 0x0⟩]⟩,
  -- R492
  ⟨"SEC_ROLLBACK_COMMIT", 0x60, [], 1, [⟨31, 31, .wo, 0x0⟩, ⟨11, 8, .ro, 0x0⟩, ⟨2, 0, .rw, 0x0⟩]⟩,
  -- R492
  ⟨"SEC_NOR_CTRL", 0x100, [], 1, [⟨31, 31, .wo, 0x0⟩, ⟨30, 30, .ro, 0x0⟩, ⟨25, 24, .rw, 0x0⟩, ⟨3, 0, .ro, 0x0⟩]⟩,
  -- R492
  ⟨"SEC_NOR_SRC", 0x108, [], 2, [⟨63, 0, .rw, 0x0⟩]⟩,
  -- R492
  ⟨"SEC_NOR_DST", 0x110, [], 1, [⟨27, 0, .rw, 0x0⟩]⟩,
  -- R492
  ⟨"SEC_NOR_LEN", 0x114, [], 1, [⟨27, 0, .rw, 0x0⟩]⟩]

/-- Registers of the SEC tables, part 1. -/
def regsSec1 : List RegDesc := [
  -- R492
  ⟨"SEC_KEY_CTRL", 0x200, [], 1, [⟨31, 31, .wo, 0x0⟩, ⟨30, 30, .ro, 0x0⟩, ⟨9, 9, .rw, 0x0⟩, ⟨8, 8, .rwl, 0x0⟩, ⟨3, 0, .ro, 0x0⟩]⟩,
  -- R492
  ⟨"SEC_KEY_LOAD_ADDR", 0x208, [], 2, [⟨63, 0, .rw, 0x0⟩]⟩,
  -- R492
  ⟨"SEC_DKEY", 0x300, [(0x4, 16)], 1, [⟨31, 31, .ro, 0x0⟩, ⟨15, 0, .ro, 0x0⟩]⟩,
  -- R492
  ⟨"SEC_VKEY", 0x340, [(0x4, 16)], 1, [⟨31, 31, .ro, 0x0⟩, ⟨15, 0, .ro, 0x0⟩]⟩,
  -- R492
  ⟨"SEC_ATTEST_CTRL", 0x400, [], 1, [⟨31, 31, .wo, 0x0⟩, ⟨30, 30, .ro, 0x0⟩, ⟨29, 29, .ro, 0x0⟩]⟩,
  -- R492
  ⟨"SEC_ATTEST_NONCE", 0x420, [], 8, [⟨255, 0, .rw, 0x0⟩]⟩,
  -- R492
  ⟨"SEC_ATTEST_REPORT", 0x1000, [], 784, [⟨25087, 0, .ro, 0x0⟩]⟩,
  -- R492
  ⟨"SEC_ID_PUBKEY", 0x2000, [], 328, [⟨10495, 0, .ro, 0x0⟩]⟩]

/-- Every register of the SEC tables. -/
def regsSec : List RegDesc := regsSec0 ++ regsSec1

/-- Registers of the PWR tables, part 0. -/
def regsPwr0 : List RegDesc := [
  -- R42
  ⟨"PWR_PACE_C", 0x100, [(0x10, 4)], 1, [⟨31, 31, .ro, 0x0⟩, ⟨27, 16, .ro, 0x0⟩, ⟨11, 0, .ro, 0x0⟩]⟩,
  -- R43
  ⟨"PWR_PACE_MIN_C", 0x104, [(0x10, 4)], 1, [⟨31, 31, .wo, 0x0⟩, ⟨11, 0, .ro, 0xFFF⟩]⟩,
  -- R45
  ⟨"PWR_PACE_CAP_C", 0x108, [(0x10, 4)], 1, [⟨31, 31, .ro, 0x0⟩, ⟨27, 16, .ro, 0x5DC⟩, ⟨11, 0, .rw, 0x5DC⟩]⟩,
  -- R56
  ⟨"PWR_ALIGN_STATUS", 0x200, [], 1, [⟨8, 8, .ro, 0x0⟩, ⟨5, 4, .ro, 0x0⟩, ⟨0, 0, .ro, 0x0⟩]⟩,
  -- R499
  ⟨"PWR_STATE", 0x0, [], 1, [⟨29, 28, .wo, 0x0⟩, ⟨25, 24, .ro, 0x0⟩, ⟨3, 0, .ro, 0x0⟩]⟩,
  -- R500
  ⟨"PWR_CLUSTER_C", 0x300, [(0x4, 4)], 1, [⟨31, 31, .rw, 0x0⟩, ⟨25, 24, .ro, 0x0⟩]⟩,
  -- R504
  ⟨"PWR_CAP", 0x4, [], 1, [⟨31, 31, .rw, 0x0⟩, ⟨6, 0, .rwl, 0x73⟩]⟩,
  -- R504
  ⟨"PWR_POWER", 0x8, [], 1, [⟨27, 16, .ro, 0x0⟩, ⟨11, 0, .ro, 0x0⟩]⟩,
  -- R507
  ⟨"PWR_REG_C", 0x400, [(0x10, 4)], 1, [⟨31, 31, .ro, 0x0⟩, ⟨22, 20, .ro, 0x0⟩, ⟨11, 0, .ro, 0x0⟩]⟩,
  -- R511
  ⟨"PWR_THERM", 0x500, [], 1, [⟨31, 31, .rw, 0x0⟩, ⟨23, 16, .rwl, 0x82⟩, ⟨7, 0, .rwl, 0x73⟩]⟩,
  -- R511
  ⟨"PWR_TEMP_DIE", 0x504, [], 1, [⟨31, 31, .wo, 0x0⟩, ⟨15, 8, .ro, 0x80⟩, ⟨7, 0, .ro, 0x0⟩]⟩,
  -- R511
  ⟨"PWR_TEMP_C", 0x510, [(0x4, 4)], 1, [⟨31, 31, .wo, 0x0⟩, ⟨15, 8, .ro, 0x80⟩, ⟨7, 0, .ro, 0x0⟩]⟩]

/-- Registers of the PWR tables, part 1. -/
def regsPwr1 : List RegDesc := [
  -- R514
  ⟨"PWR_RESET", 0x10, [], 1, [⟨31, 31, .wo, 0x0⟩, ⟨30, 30, .wo, 0x0⟩, ⟨29, 29, .wo, 0x0⟩, ⟨4, 0, .rw, 0x0⟩]⟩,
  -- R514
  ⟨"PWR_RESET_CAUSE", 0x14, [], 1, [⟨31, 16, .ro, 0x0⟩, ⟨3, 0, .ro, 0x0⟩]⟩]

/-- Every register of the PWR tables. -/
def regsPwr : List RegDesc := regsPwr0 ++ regsPwr1

/-- Registers of the CORE_TW tables, part 0. -/
def regsCoreTw0 : List RegDesc := [
  -- R93
  ⟨"TW_STATUS", 0x0, [], 1, [⟨31, 31, .ro, 0x0⟩, ⟨30, 30, .ro, 0x0⟩, ⟨29, 29, .ro, 0x0⟩, ⟨19, 16, .ro, 0x0⟩, ⟨9, 0, .ro, 0x0⟩]⟩,
  -- R94
  ⟨"TW_COLMAP", 0x10, [(0x4, 16)], 1, [⟨31, 0, .ro, 0x0⟩]⟩,
  -- R95
  ⟨"TW_PASSES", 0x80, [], 1, [⟨31, 0, .ro, 0x0⟩]⟩,
  -- R95
  ⟨"TW_ABANDONED", 0x84, [], 1, [⟨31, 0, .ro, 0x0⟩]⟩,
  -- R95
  ⟨"TW_STEPS", 0x88, [], 2, [⟨63, 0, .ro, 0x0⟩]⟩,
  -- R95
  ⟨"TW_STEPS_SAVED", 0x90, [], 2, [⟨63, 0, .ro, 0x0⟩]⟩,
  -- R95
  ⟨"TW_OVF_PASSES", 0x98, [], 1, [⟨31, 0, .ro, 0x0⟩]⟩,
  -- R118
  ⟨"TW_LEDGER_MODE", 0x100, [], 1, [⟨31, 31, .rw, 0x0⟩, ⟨15, 8, .rwl, 0x4⟩, ⟨0, 0, .rwl, 0x1⟩]⟩,
  -- R119
  ⟨"TW_LEDGER_STATUS", 0x104, [], 1, [⟨15, 12, .ro, 0x0⟩, ⟨11, 8, .ro, 0x0⟩, ⟨2, 0, .ro, 0x0⟩]⟩,
  -- R120
  ⟨"TW_LEDGER_LOC", 0x108, [], 1, [⟨27, 24, .ro, 0x0⟩, ⟨23, 20, .ro, 0x0⟩, ⟨19, 19, .ro, 0x0⟩, ⟨18, 10, .ro, 0x0⟩, ⟨9, 9, .ro, 0x0⟩, ⟨8, 0, .ro, 0x0⟩]⟩,
  -- R121
  ⟨"TW_LEDGER_INJECT", 0x120, [], 1, [⟨31, 31, .rw, 0x0⟩, ⟨30, 30, .rw, 0x0⟩, ⟨29, 28, .rw, 0x0⟩, ⟨24, 20, .rw, 0x0⟩, ⟨18, 10, .rw, 0x0⟩, ⟨8, 0, .rw, 0x0⟩]⟩,
  -- R122
  ⟨"TW_LEDGER_CORRECTED", 0x110, [], 1, [⟨31, 0, .ro, 0x0⟩]⟩]

/-- Registers of the CORE_TW tables, part 1. -/
def regsCoreTw1 : List RegDesc := [
  -- R122
  ⟨"TW_LEDGER_DISAGREE", 0x114, [], 1, [⟨31, 0, .ro, 0x0⟩]⟩,
  -- R122
  ⟨"TW_LEDGER_FAILS", 0x118, [], 1, [⟨31, 0, .ro, 0x0⟩]⟩,
  -- R122
  ⟨"TW_LEDGER_INJECTS", 0x11C, [], 1, [⟨31, 0, .ro, 0x0⟩]⟩,
  -- R122
  ⟨"TW_LEDGER_HIST", 0x140, [(0x4, 16)], 1, [⟨31, 31, .ro, 0x0⟩, ⟨17, 16, .ro, 0x0⟩, ⟨8, 0, .ro, 0x0⟩]⟩]

/-- Every register of the CORE_TW tables. -/
def regsCoreTw : List RegDesc := regsCoreTw0 ++ regsCoreTw1

/-- Registers of the CORE_WF tables, part 0. -/
def regsCoreWf0 : List RegDesc := [
  -- R152
  ⟨"WF_STATUS", 0x0, [], 1, [⟨31, 31, .ro, 0x0⟩, ⟨30, 30, .ro, 0x0⟩, ⟨25, 24, .ro, 0x0⟩, ⟨19, 16, .ro, 0x0⟩, ⟨15, 0, .ro, 0x0⟩]⟩,
  -- R152
  ⟨"WF_RUNS", 0x10, [], 1, [⟨31, 0, .ro, 0x0⟩]⟩,
  -- R152
  ⟨"WF_FEED_WAIT", 0x18, [], 2, [⟨63, 0, .ro, 0x0⟩]⟩,
  -- R152
  ⟨"WF_LINE_HWM", 0x20, [], 1, [⟨31, 31, .wo, 0x0⟩, ⟨17, 0, .ro, 0x0⟩]⟩,
  -- R152
  ⟨"WF_CHECK_MISMATCH", 0x24, [], 1, [⟨31, 0, .ro, 0x0⟩]⟩]

/-- Every register of the CORE_WF tables. -/
def regsCoreWf : List RegDesc := regsCoreWf0

/-- Registers of the CORE_TD tables, part 0. -/
def regsCoreTd0 : List RegDesc := [
  -- R186
  ⟨"TD_STATUS", 0x0, [], 1, [⟨30, 30, .ro, 0x0⟩, ⟨29, 29, .ro, 0x0⟩, ⟨25, 24, .ro, 0x0⟩, ⟨21, 20, .ro, 0x0⟩, ⟨19, 16, .ro, 0x0⟩, ⟨15, 0, .ro, 0x0⟩]⟩,
  -- R187
  ⟨"TD_CHAINS", 0x10, [], 1, [⟨31, 0, .ro, 0x0⟩]⟩,
  -- R187
  ⟨"TD_STEPS", 0x18, [], 2, [⟨63, 0, .ro, 0x0⟩]⟩,
  -- R187
  ⟨"TD_CHECK_RETRIED", 0x20, [], 1, [⟨31, 0, .ro, 0x0⟩]⟩,
  -- R187
  ⟨"TD_CHECK_FAILS", 0x24, [], 1, [⟨31, 0, .ro, 0x0⟩]⟩,
  -- R187
  ⟨"TD_CHECK_INJECTS", 0x28, [], 1, [⟨31, 0, .ro, 0x0⟩]⟩,
  -- R187
  ⟨"TD_SCATTER_DROPPED", 0x2C, [], 1, [⟨31, 0, .ro, 0x0⟩]⟩,
  -- R187
  ⟨"TD_GATHER_FILLED", 0x30, [], 1, [⟨31, 0, .ro, 0x0⟩]⟩,
  -- R188
  ⟨"TD_INJECT", 0x40, [], 1, [⟨31, 31, .rw, 0x0⟩, ⟨30, 30, .rw, 0x0⟩, ⟨28, 24, .rw, 0x0⟩, ⟨19, 16, .rw, 0x0⟩, ⟨8, 0, .rw, 0x0⟩]⟩]

/-- Every register of the CORE_TD tables. -/
def regsCoreTd : List RegDesc := regsCoreTd0

/-- Registers of the CX tables, part 0. -/
def regsCx0 : List RegDesc := [
  -- R224
  ⟨"CX_CTRL", 0x0, [], 1, [⟨31, 31, .rw, 0x0⟩]⟩,
  -- R225
  ⟨"CX_ACTIVE", 0x4, [], 1, [⟨16, 0, .ro, 0x0⟩]⟩,
  -- R226
  ⟨"CX_SEQ_FULL", 0x10, [], 1, [⟨31, 0, .ro, 0x0⟩]⟩,
  -- R226
  ⟨"CX_STALE_DROPPED", 0x14, [], 1, [⟨31, 0, .ro, 0x0⟩]⟩,
  -- R226
  ⟨"CX_LOST", 0x18, [], 1, [⟨31, 0, .ro, 0x0⟩]⟩,
  -- R226
  ⟨"CX_EMPTY_ROWS", 0x1C, [], 1, [⟨31, 0, .ro, 0x0⟩]⟩,
  -- R227
  ⟨"CX_RANGE_S", 0x100, [(0x4, 16)], 1, [⟨31, 16, .rwl, 0x0⟩, ⟨15, 0, .rwl, 0xFFFF⟩]⟩]

/-- Every register of the CX tables. -/
def regsCx : List RegDesc := regsCx0

/-- Registers of the CORE_BT tables, part 0. -/
def regsCoreBt0 : List RegDesc := [
  -- R244
  ⟨"BT_CARVE", 0x100, [(0x4, 8)], 1, [⟨31, 31, .rw, 0x0⟩, ⟨27, 24, .rw, 0x0⟩, ⟨21, 12, .rw, 0x0⟩, ⟨9, 0, .rw, 0x0⟩]⟩,
  -- R264
  ⟨"BT_ECC_CE", 0x10, [], 1, [⟨31, 0, .ro, 0x0⟩]⟩,
  -- R264
  ⟨"BT_ECC_UE", 0x14, [], 1, [⟨31, 0, .ro, 0x0⟩]⟩,
  -- R264
  ⟨"BT_INBOUND_WAIT", 0x18, [], 2, [⟨63, 0, .ro, 0x0⟩]⟩,
  -- R264
  ⟨"BT_SCRUB_PASSES", 0x20, [], 1, [⟨31, 0, .ro, 0x0⟩]⟩,
  -- R264
  ⟨"BT_ECC_INJECTS", 0x24, [], 1, [⟨31, 0, .ro, 0x0⟩]⟩,
  -- R264
  ⟨"BT_ECC_INJECT", 0x40, [], 1, [⟨31, 31, .rw, 0x0⟩, ⟨30, 30, .rw, 0x0⟩, ⟨25, 24, .rw, 0x0⟩]⟩]

/-- Every register of the CORE_BT tables. -/
def regsCoreBt : List RegDesc := regsCoreBt0

/-- Registers of the SAF tables, part 0. -/
def regsSaf0 : List RegDesc := [
  -- R249
  ⟨"SAF_FWR_BASE", 0x1000, [(0x10, 64)], 1, [⟨15, 0, .rwl, 0x0⟩]⟩,
  -- R249
  ⟨"SAF_FWR_LIMIT", 0x1004, [(0x10, 64)], 1, [⟨15, 0, .rwl, 0x0⟩]⟩,
  -- R249
  ⟨"SAF_FWR_MASK", 0x1008, [(0x10, 64)], 1, [⟨31, 16, .rwl, 0x0⟩, ⟨15, 0, .rwl, 0x0⟩]⟩,
  -- R249
  ⟨"SAF_FWR_CTRL", 0x100C, [(0x10, 64)], 1, [⟨31, 31, .rw, 0x0⟩, ⟨8, 8, .ro, 0x0⟩, ⟨4, 4, .ro, 0x0⟩, ⟨1, 1, .rwl, 0x0⟩, ⟨0, 0, .rwl, 0x0⟩]⟩,
  -- R416
  ⟨"SAF_PERM_CTRL", 0x0, [], 1, [⟨31, 31, .rw, 0x0⟩]⟩,
  -- R416
  ⟨"SAF_PERM", 0x100, [(0x4, 64)], 1, [⟨31, 16, .rwl, 0x1⟩, ⟨15, 0, .rwl, 0xFFFF⟩]⟩,
  -- R417
  ⟨"SAF_LOCK_VIOL", 0x10, [], 1, [⟨31, 0, .ro, 0x0⟩]⟩,
  -- R417
  ⟨"SAF_LOCK_LAST", 0x14, [], 1, [⟨31, 28, .ro, 0x0⟩, ⟨25, 0, .ro, 0x0⟩]⟩,
  -- R430
  ⟨"SAF_AGE_CTRL", 0x2000, [(0x20, 64)], 1, [⟨31, 31, .rw, 0x0⟩, ⟨30, 30, .rw, 0x1⟩, ⟨29, 29, .rw, 0x0⟩, ⟨28, 28, .rw, 0x0⟩, ⟨27, 24, .rw, 0x0⟩]⟩,
  -- R430
  ⟨"SAF_AGE_LIMIT", 0x2004, [(0x20, 64)], 1, [⟨31, 0, .rw, 0x0⟩]⟩,
  -- R430
  ⟨"SAF_AGE_PERIOD", 0x2008, [(0x20, 64)], 1, [⟨31, 0, .rw, 0x0⟩]⟩,
  -- R430
  ⟨"SAF_AGE_TOL", 0x200C, [(0x20, 64)], 1, [⟨31, 0, .rw, 0x0⟩]⟩]

/-- Registers of the SAF tables, part 1. -/
def regsSaf1 : List RegDesc := [
  -- R430
  ⟨"SAF_AGE_LAST", 0x2010, [(0x20, 64)], 1, [⟨31, 0, .ro, 0x0⟩]⟩,
  -- R430
  ⟨"SAF_AGE_FRAME", 0x2014, [(0x20, 64)], 1, [⟨31, 0, .ro, 0x0⟩]⟩,
  -- R430
  ⟨"SAF_AGE_COUNT", 0x2018, [(0x20, 64)], 1, [⟨31, 16, .ro, 0x0⟩, ⟨15, 0, .ro, 0x0⟩]⟩,
  -- R436
  ⟨"SAF_DIG_CTRL", 0x3000, [], 1, [⟨15, 0, .rwl, 0x3E8⟩]⟩,
  -- R436
  ⟨"SAF_DIG_ROUNDS", 0x3004, [], 1, [⟨31, 0, .ro, 0x0⟩]⟩,
  -- R436
  ⟨"SAF_DIG_ENT", 0x3100, [(0x40, 64)], 1, [⟨31, 31, .ro, 0x0⟩, ⟨29, 28, .ro, 0x0⟩, ⟨27, 24, .ro, 0x0⟩]⟩,
  -- R436
  ⟨"SAF_DIG_ADDR", 0x3108, [(0x40, 64)], 2, [⟨63, 0, .ro, 0x0⟩]⟩,
  -- R436
  ⟨"SAF_DIG_LENGTH", 0x3110, [(0x40, 64)], 1, [⟨31, 0, .ro, 0x0⟩]⟩,
  -- R436
  ⟨"SAF_DIG_TIME", 0x3118, [(0x40, 64)], 2, [⟨63, 0, .ro, 0x0⟩]⟩,
  -- R436
  ⟨"SAF_DIG_DIGEST", 0x3120, [(0x40, 64)], 8, [⟨255, 0, .ro, 0x0⟩]⟩]

/-- Every register of the SAF tables. -/
def regsSaf : List RegDesc := regsSaf0 ++ regsSaf1

/-- Registers of the CORE_SK tables, part 0. -/
def regsCoreSk0 : List RegDesc := [
  -- R264
  ⟨"SK_ECC_CE", 0x10, [], 1, [⟨31, 0, .ro, 0x0⟩]⟩,
  -- R264
  ⟨"SK_ECC_UE", 0x14, [], 1, [⟨31, 0, .ro, 0x0⟩]⟩,
  -- R264
  ⟨"SK_CHUNK_WAIT", 0x18, [], 2, [⟨63, 0, .ro, 0x0⟩]⟩,
  -- R244
  ⟨"SK_CARVE", 0x100, [(0x4, 4)], 1, [⟨31, 31, .rw, 0x0⟩, ⟨27, 24, .rw, 0x0⟩, ⟨21, 12, .rw, 0x0⟩, ⟨9, 0, .rw, 0x0⟩]⟩]

/-- Every register of the CORE_SK tables. -/
def regsCoreSk : List RegDesc := regsCoreSk0

/-- Registers of the CORE_PORT tables, part 0. -/
def regsCorePort0 : List RegDesc := [
  -- R264
  ⟨"MEM_PORT_STATUS", 0x0, [], 1, [⟨31, 31, .ro, 0x0⟩, ⟨30, 30, .ro, 0x0⟩]⟩,
  -- R264
  ⟨"MEM_PORT_BYTES", 0x8, [], 2, [⟨63, 0, .ro, 0x0⟩]⟩,
  -- R264
  ⟨"MEM_PORT_STARVE", 0x10, [], 2, [⟨63, 0, .ro, 0x0⟩]⟩]

/-- Every register of the CORE_PORT tables. -/
def regsCorePort : List RegDesc := regsCorePort0

/-- Registers of the MEM tables, part 0. -/
def regsMem0 : List RegDesc := [
  -- R265
  ⟨"MEM_DDR_CFG", 0x0, [], 1, [⟨31, 31, .rw, 0x0⟩, ⟨30, 30, .ro, 0x0⟩, ⟨29, 29, .wo, 0x0⟩, ⟨10, 8, .rwl, 0x0⟩, ⟨6, 0, .rwl, 0x0⟩]⟩,
  -- R265
  ⟨"MEM_DDR_CE", 0x10, [], 1, [⟨31, 0, .ro, 0x0⟩]⟩,
  -- R265
  ⟨"MEM_DDR_UE", 0x14, [], 1, [⟨31, 0, .ro, 0x0⟩]⟩,
  -- R265
  ⟨"MEM_DDR_LINK_CE", 0x18, [], 1, [⟨31, 0, .ro, 0x0⟩]⟩,
  -- R265
  ⟨"MEM_DDR_LINK_UE", 0x1C, [], 1, [⟨31, 0, .ro, 0x0⟩]⟩,
  -- R265
  ⟨"MEM_ECC_INJECT", 0x40, [], 1, [⟨31, 31, .rw, 0x0⟩, ⟨30, 30, .rw, 0x0⟩, ⟨25, 24, .rw, 0x0⟩, ⟨19, 16, .rw, 0x0⟩]⟩,
  -- R265
  ⟨"MEM_ECC_INJECTS", 0x44, [], 1, [⟨31, 0, .ro, 0x0⟩]⟩,
  -- R265
  ⟨"MEM_HR_STATUS", 0x100, [], 1, [⟨31, 31, .ro, 0x0⟩, ⟨0, 0, .ro, 0x0⟩]⟩,
  -- R265
  ⟨"MEM_HR_CE", 0x104, [], 1, [⟨31, 0, .ro, 0x0⟩]⟩,
  -- R265
  ⟨"MEM_HR_UE", 0x108, [], 1, [⟨31, 0, .ro, 0x0⟩]⟩]

/-- Every register of the MEM tables. -/
def regsMem : List RegDesc := regsMem0

/-- Registers of the CMD tables, part 0. -/
def regsCmd0 : List RegDesc := [
  -- R300
  ⟨"CMD_STATUS", 0x0, [], 1, [⟨31, 31, .ro, 0x0⟩, ⟨30, 30, .ro, 0x0⟩, ⟨14, 0, .ro, 0x0⟩]⟩,
  -- R300
  ⟨"CMD_EPOCH", 0x4, [], 1, [⟨31, 0, .ro, 0x0⟩]⟩,
  -- R300
  ⟨"CMD_REPLAYED", 0x8, [], 1, [⟨31, 0, .ro, 0x0⟩]⟩,
  -- R300
  ⟨"CMD_SIG", 0x8000, [(0x8, 256)], 2, [⟨63, 0, .ro, 0x0⟩]⟩,
  -- R301
  ⟨"CMD_RING_CTRL", 0x1000, [(0x40, 64)], 1, [⟨31, 31, .rw, 0x0⟩, ⟨30, 30, .ro, 0x0⟩, ⟨20, 16, .rw, 0x4⟩, ⟨11, 8, .rw, 0x0⟩]⟩,
  -- R301
  ⟨"CMD_RING_BASE", 0x1008, [(0x40, 64)], 2, [⟨63, 0, .rw, 0x0⟩]⟩,
  -- R301
  ⟨"CMD_RING_COMP", 0x1010, [(0x40, 64)], 2, [⟨63, 0, .rw, 0x0⟩]⟩,
  -- R301
  ⟨"CMD_RING_SEQ", 0x1018, [(0x40, 64)], 2, [⟨63, 0, .rw, 0x0⟩]⟩,
  -- R301
  ⟨"CMD_RING_PUB", 0x1020, [(0x40, 64)], 2, [⟨63, 0, .ro, 0x0⟩]⟩,
  -- R301
  ⟨"CMD_RING_JOBS", 0x1028, [(0x40, 64)], 1, [⟨31, 0, .ro, 0x0⟩]⟩]

/-- Every register of the CMD tables. -/
def regsCmd : List RegDesc := regsCmd0

/-- Registers of the SCH tables, part 0. -/
def regsSch0 : List RegDesc := [
  -- R326
  ⟨"SCH_BE_SLICE", 0x0, [], 1, [⟨17, 0, .rw, 0x17318⟩]⟩,
  -- R326
  ⟨"SCH_TEST_SLICE", 0x4, [], 1, [⟨17, 0, .rw, 0x39FBC⟩]⟩,
  -- R326
  ⟨"SCH_RING_JOBS", 0x2000, [(0x4, 64)], 1, [⟨31, 16, .ro, 0x0⟩, ⟨15, 0, .ro, 0x0⟩]⟩,
  -- R327
  ⟨"SCH_STALL_CTRL", 0x1000, [(0x40, 16)], 1, [⟨31, 31, .rw, 0x0⟩, ⟨30, 30, .rw, 0x0⟩, ⟨29, 29, .wo, 0x0⟩, ⟨9, 0, .rw, 0x1⟩]⟩,
  -- R327
  ⟨"SCH_STALL_CORES", 0x1004, [(0x40, 16)], 1, [⟨31, 0, .rw, 0xFFFFFFFF⟩]⟩,
  -- R327
  ⟨"SCH_STALL_ALLOW", 0x1008, [(0x40, 16)], 1, [⟨17, 0, .rw, 0x8400⟩]⟩,
  -- R327
  ⟨"SCH_STALL_CARVE", 0x100C, [(0x40, 16)], 1, [⟨22, 16, .rw, 0x0⟩, ⟨10, 0, .rw, 0x0⟩]⟩,
  -- R327
  ⟨"SCH_STALL_SPILL", 0x1010, [(0x40, 16)], 2, [⟨63, 0, .rw, 0x0⟩]⟩,
  -- R327
  ⟨"SCH_STALL_SPILL_MIB", 0x1018, [(0x40, 16)], 1, [⟨15, 0, .rw, 0x0⟩]⟩,
  -- R327
  ⟨"SCH_STALL_STEPS", 0x1020, [(0x40, 16)], 2, [⟨63, 0, .ro, 0x0⟩]⟩,
  -- R327
  ⟨"SCH_STALL_DEBT", 0x1028, [(0x40, 16)], 1, [⟨23, 0, .ro, 0x0⟩]⟩,
  -- R327
  ⟨"SCH_STALL_STATUS", 0x102C, [(0x40, 16)], 1, [⟨3, 0, .ro, 0x0⟩]⟩]

/-- Registers of the SCH tables, part 1. -/
def regsSch1 : List RegDesc := [
  -- R328
  ⟨"SCH_GRAPH_CTRL", 0x4000, [(0x40, 64)], 1, [⟨31, 31, .rw, 0x0⟩, ⟨30, 30, .ro, 0x0⟩, ⟨27, 24, .ro, 0x0⟩, ⟨23, 20, .rw, 0x0⟩, ⟨17, 16, .rw, 0x0⟩, ⟨6, 0, .rw, 0x0⟩]⟩,
  -- R328
  ⟨"SCH_GRAPH_TABLE", 0x4008, [(0x40, 64)], 2, [⟨63, 0, .rw, 0x0⟩]⟩,
  -- R328
  ⟨"SCH_GRAPH_TRIG", 0x4010, [(0x40, 64), (0x4, 4)], 1, [⟨31, 0, .rw, 0x0⟩]⟩,
  -- R328
  ⟨"SCH_GRAPH_PERIOD", 0x4020, [(0x40, 64)], 1, [⟨31, 0, .rw, 0x0⟩]⟩,
  -- R328
  ⟨"SCH_GRAPH_DEADLINE", 0x4024, [(0x40, 64)], 1, [⟨31, 0, .rw, 0x0⟩]⟩,
  -- R328
  ⟨"SCH_GRAPH_FIRED", 0x4028, [(0x40, 64)], 1, [⟨31, 0, .ro, 0x0⟩]⟩,
  -- R328
  ⟨"SCH_GRAPH_SKIPPED", 0x402C, [(0x40, 64)], 1, [⟨31, 0, .ro, 0x0⟩]⟩,
  -- R328
  ⟨"SCH_GRAPH_MISSED", 0x4030, [(0x40, 64)], 1, [⟨31, 0, .ro, 0x0⟩]⟩,
  -- R328
  ⟨"SCH_GRAPH_FAILED", 0x4034, [(0x40, 64)], 1, [⟨31, 0, .ro, 0x0⟩]⟩]

/-- Every register of the SCH tables. -/
def regsSch : List RegDesc := regsSch0 ++ regsSch1

/-- Registers of the ING tables, part 0. -/
def regsIng0 : List RegDesc := [
  -- R360
  ⟨"ING_STR_CTRL", 0x10000, [(0x40, 128)], 1, [⟨31, 31, .rw, 0x0⟩, ⟨30, 28, .ro, 0x0⟩, ⟨27, 24, .rw, 0x0⟩, ⟨22, 20, .rw, 0x0⟩, ⟨17, 16, .rw, 0x0⟩, ⟨11, 8, .rw, 0x0⟩, ⟨3, 0, .rw, 0x0⟩]⟩,
  -- R360
  ⟨"ING_STR_FMT", 0x10004, [(0x40, 128)], 1, [⟨31, 31, .rw, 0x0⟩, ⟨27, 24, .rw, 0x0⟩, ⟨21, 20, .rw, 0x0⟩, ⟨17, 16, .rw, 0x0⟩, ⟨13, 8, .rw, 0x0⟩, ⟨0, 0, .rw, 0x0⟩]⟩,
  -- R360
  ⟨"ING_STR_GEOM", 0x10008, [(0x40, 128)], 1, [⟨31, 16, .rw, 0x0⟩, ⟨15, 0, .rw, 0x0⟩]⟩,
  -- R360
  ⟨"ING_STR_PERIOD", 0x1000C, [(0x40, 128)], 1, [⟨31, 0, .rw, 0x0⟩]⟩,
  -- R360
  ⟨"ING_STR_FILL", 0x10010, [(0x40, 128)], 1, [⟨23, 0, .rw, 0x0⟩]⟩,
  -- R360
  ⟨"ING_STR_SENSOR", 0x10014, [(0x40, 128)], 1, [⟨30, 28, .rw, 0x1⟩, ⟨26, 24, .rw, 0x0⟩, ⟨23, 23, .rw, 0x0⟩, ⟨22, 16, .rw, 0x0⟩, ⟨11, 0, .rw, 0x0⟩]⟩,
  -- R360
  ⟨"ING_STR_MATCH", 0x10018, [(0x40, 128)], 2, [⟨63, 0, .rw, 0x0⟩]⟩,
  -- R360
  ⟨"ING_STR_NET", 0x10020, [(0x40, 128)], 1, [⟨31, 31, .rw, 0x0⟩, ⟨27, 16, .rw, 0x0⟩]⟩,
  -- R360
  ⟨"ING_STR_TRIG", 0x10024, [(0x40, 128)], 1, [⟨31, 31, .rw, 0x0⟩, ⟨30, 28, .rw, 0x0⟩, ⟨27, 14, .rw, 0x0⟩, ⟨13, 0, .rw, 0x0⟩]⟩,
  -- R360
  ⟨"ING_STR_TABLE", 0x10028, [(0x40, 128)], 2, [⟨63, 0, .rw, 0x0⟩]⟩,
  -- R360
  ⟨"ING_STR_FRAME", 0x10030, [(0x40, 128)], 1, [⟨31, 0, .ro, 0x0⟩]⟩,
  -- R360
  ⟨"ING_STR_LAST", 0x10034, [(0x40, 128)], 1, [⟨31, 16, .ro, 0x0⟩, ⟨15, 0, .ro, 0x0⟩]⟩]

/-- Registers of the ING tables, part 1. -/
def regsIng1 : List RegDesc := [
  -- R360
  ⟨"ING_STR_DROPPED", 0x10038, [(0x40, 128)], 1, [⟨31, 0, .ro, 0x0⟩]⟩,
  -- R360
  ⟨"ING_STR_ERRORS", 0x1003C, [(0x40, 128)], 1, [⟨31, 16, .ro, 0x0⟩, ⟨15, 0, .ro, 0x0⟩]⟩,
  -- R362
  ⟨"ING_CSI_CTRL", 0x40000, [(0x100, 12)], 1, [⟨31, 31, .rw, 0x0⟩, ⟨30, 30, .rw, 0x0⟩, ⟨26, 24, .rw, 0x4⟩, ⟨20, 20, .rw, 0x0⟩, ⟨15, 0, .rw, 0x0⟩]⟩,
  -- R362
  ⟨"ING_CSI_STATUS", 0x40004, [(0x100, 12)], 1, [⟨31, 31, .ro, 0x0⟩]⟩,
  -- R362
  ⟨"ING_CSI_ECC_CE", 0x40008, [(0x100, 12)], 1, [⟨31, 0, .ro, 0x0⟩]⟩,
  -- R362
  ⟨"ING_CSI_ERR", 0x4000C, [(0x100, 12)], 1, [⟨31, 16, .ro, 0x0⟩, ⟨15, 0, .ro, 0x0⟩]⟩,
  -- R362
  ⟨"ING_CSI_UNMAPPED", 0x40010, [(0x100, 12)], 1, [⟨31, 0, .ro, 0x0⟩]⟩,
  -- R362
  ⟨"ING_SCC_CTRL", 0x50000, [(0x100, 8)], 1, [⟨31, 31, .rw, 0x0⟩, ⟨25, 24, .rw, 0x1⟩]⟩]

/-- Every register of the ING tables. -/
def regsIng : List RegDesc := regsIng0 ++ regsIng1

/-- Registers of the ISP tables, part 0. -/
def regsIsp0 : List RegDesc := [
  -- R363
  ⟨"ISP_INLINE", 0x0, [], 1, [⟨31, 31, .rw, 0x0⟩, ⟨6, 0, .rw, 0x0⟩]⟩,
  -- R363
  ⟨"ISP_LOAD", 0x4, [], 1, [⟨11, 0, .ro, 0x0⟩]⟩,
  -- R363
  ⟨"ISP_QUEUE", 0x8, [], 1, [⟨7, 0, .ro, 0x0⟩]⟩,
  -- R363
  ⟨"ISP_FRAMES", 0x10, [], 1, [⟨31, 0, .ro, 0x0⟩]⟩,
  -- R363
  ⟨"ISP_CHECK", 0x14, [], 1, [⟨31, 16, .ro, 0x0⟩, ⟨15, 0, .ro, 0x0⟩]⟩]

/-- Every register of the ISP tables. -/
def regsIsp : List RegDesc := regsIsp0

/-- Registers of the TIM tables, part 0. -/
def regsTim0 : List RegDesc := [
  -- R384
  ⟨"TIM_NOW", 0x0, [], 3, [⟨95, 32, .ro, 0x0⟩, ⟨31, 0, .ro, 0x0⟩]⟩,
  -- R384
  ⟨"TIM_INCREMENT_FRAC", 0x10, [], 1, [⟨31, 0, .rw, 0x0⟩]⟩,
  -- R384
  ⟨"TIM_INCREMENT_NS", 0x14, [], 1, [⟨7, 0, .rw, 0x8⟩]⟩,
  -- R384
  ⟨"TIM_OFFSET", 0x20, [], 3, [⟨95, 32, .rw, 0x0⟩, ⟨31, 0, .rw, 0x0⟩]⟩,
  -- R384
  ⟨"TIM_CTRL", 0x30, [], 1, [⟨31, 31, .wo, 0x0⟩, ⟨30, 30, .wo, 0x0⟩, ⟨29, 29, .wo, 0x0⟩, ⟨15, 0, .rw, 0x0⟩]⟩,
  -- R384
  ⟨"TIM_STATUS", 0x34, [], 1, [⟨31, 31, .ro, 0x0⟩, ⟨30, 30, .w1c, 0x0⟩, ⟨29, 29, .w1c, 0x0⟩, ⟨15, 0, .ro, 0x0⟩]⟩,
  -- R384
  ⟨"TIM_TSIN_CTRL", 0x100, [(0x20, 4)], 1, [⟨31, 31, .rw, 0x0⟩, ⟨1, 0, .rw, 0x1⟩]⟩,
  -- R384
  ⟨"TIM_TSIN_OVF", 0x104, [(0x20, 4)], 1, [⟨31, 0, .ro, 0x0⟩]⟩,
  -- R384
  ⟨"TIM_TSIN_REC", 0x110, [(0x20, 4)], 4, [⟨127, 0, .ro, 0x0⟩]⟩,
  -- R384
  ⟨"TIM_TRIG_CTRL", 0x200, [(0x40, 8)], 1, [⟨31, 31, .rw, 0x0⟩, ⟨30, 30, .rw, 0x0⟩]⟩,
  -- R384
  ⟨"TIM_TRIG_START", 0x208, [(0x40, 8)], 2, [⟨63, 0, .rw, 0x0⟩]⟩,
  -- R384
  ⟨"TIM_TRIG_PERIOD", 0x210, [(0x40, 8)], 1, [⟨31, 0, .rw, 0x0⟩]⟩]

/-- Registers of the TIM tables, part 1. -/
def regsTim1 : List RegDesc := [
  -- R384
  ⟨"TIM_TRIG_WIDTH", 0x214, [(0x40, 8)], 1, [⟨31, 0, .rw, 0x0⟩]⟩,
  -- R384
  ⟨"TIM_TRIG_COUNT", 0x218, [(0x40, 8)], 1, [⟨31, 0, .rw, 0x0⟩]⟩,
  -- R384
  ⟨"TIM_TRIG_LAST", 0x220, [(0x40, 8)], 2, [⟨63, 0, .ro, 0x0⟩]⟩,
  -- R384
  ⟨"TIM_TRIG_LATE", 0x228, [(0x40, 8)], 1, [⟨31, 0, .ro, 0x0⟩]⟩,
  -- R384
  ⟨"TIM_PPS_CTRL", 0x400, [], 1, [⟨31, 31, .rw, 0x0⟩, ⟨30, 30, .rw, 0x1⟩, ⟨29, 29, .rw, 0x0⟩, ⟨9, 0, .rw, 0x64⟩]⟩,
  -- R384
  ⟨"TIM_PORT_LAT", 0x500, [(0x10, 2)], 1, [⟨31, 16, .rw, 0x0⟩, ⟨15, 0, .rw, 0x0⟩]⟩,
  -- R384
  ⟨"TIM_PTP_OVF", 0x600, [(0x20, 3)], 1, [⟨31, 0, .ro, 0x0⟩]⟩,
  -- R384
  ⟨"TIM_PTP_REC", 0x610, [(0x20, 3)], 4, [⟨127, 0, .ro, 0x0⟩]⟩,
  -- R384
  ⟨"TIM_BIL_STATUS", 0x700, [(0x20, 3)], 1, [⟨31, 31, .ro, 0x0⟩]⟩,
  -- R384
  ⟨"TIM_BIL_DELAY", 0x704, [(0x20, 3)], 1, [⟨31, 0, .ro, 0x0⟩]⟩,
  -- R384
  ⟨"TIM_BIL_OFFSET", 0x708, [(0x20, 3)], 2, [⟨63, 0, .ro, 0x0⟩]⟩]

/-- Every register of the TIM tables. -/
def regsTim : List RegDesc := regsTim0 ++ regsTim1

/-- Registers of the ETH tables, part 0. -/
def regsEth0 : List RegDesc := [
  -- R412
  ⟨"ETH_PORT_CTRL", 0x0, [(0x1000, 2)], 1, [⟨31, 31, .rw, 0x0⟩, ⟨30, 30, .ro, 0x0⟩, ⟨25, 24, .rw, 0x0⟩, ⟨20, 20, .rw, 0x0⟩, ⟨16, 16, .rw, 0x0⟩, ⟨13, 0, .rw, 0x2400⟩]⟩,
  -- R412
  ⟨"ETH_PORT_CTRL_PORT2", 0x2000, [], 1, [⟨31, 31, .rw, 0x0⟩, ⟨30, 30, .ro, 0x0⟩, ⟨25, 24, .rw, 0x0⟩, ⟨20, 20, .rw, 0x0⟩, ⟨16, 16, .rw, 0x0⟩, ⟨13, 0, .rw, 0x600⟩]⟩,
  -- R412
  ⟨"ETH_MAC_ADDR", 0x8, [(0x1000, 3)], 2, [⟨47, 0, .rw, 0x0⟩]⟩,
  -- R412
  ⟨"ETH_IPV4", 0x10, [(0x1000, 3)], 1, [⟨31, 0, .rw, 0x0⟩]⟩,
  -- R412
  ⟨"ETH_NET", 0x14, [(0x1000, 3)], 1, [⟨31, 31, .rw, 0x0⟩, ⟨27, 16, .rw, 0x0⟩, ⟨14, 12, .rw, 0x0⟩]⟩,
  -- R412
  ⟨"ETH_IPV6", 0x20, [(0x1000, 3)], 4, [⟨127, 0, .rw, 0x0⟩]⟩,
  -- R412
  ⟨"ETH_QUEUE", 0x40, [(0x1000, 2), (0x4, 8)], 1, [⟨31, 31, .rw, 0x0⟩, ⟨22, 16, .ro, 0x0⟩]⟩,
  -- R412
  ⟨"ETH_QUEUE_PORT2", 0x2040, [(0x4, 8)], 1, [⟨31, 31, .ro, 0x0⟩, ⟨22, 16, .ro, 0x0⟩]⟩,
  -- R412
  ⟨"ETH_LATE_NS", 0x60, [(0x1000, 2)], 1, [⟨31, 0, .rw, 0x3E8⟩]⟩,
  -- R412
  ⟨"ETH_LATE_NS_PORT2", 0x2060, [], 1, [⟨31, 0, .ro, 0x0⟩]⟩,
  -- R412
  ⟨"ETH_MACSEC_CTRL", 0x80, [(0x1000, 2)], 1, [⟨31, 31, .rw, 0x0⟩, ⟨29, 28, .rw, 0x2⟩, ⟨27, 27, .rw, 0x1⟩, ⟨25, 24, .rw, 0x0⟩, ⟨21, 20, .rw, 0x0⟩, ⟨17, 16, .rw, 0x0⟩, ⟨12, 12, .rw, 0x1⟩]⟩,
  -- R412
  ⟨"ETH_MACSEC_CTRL_PORT2", 0x2080, [], 1, [⟨31, 31, .ro, 0x0⟩, ⟨29, 28, .ro, 0x0⟩, ⟨27, 27, .ro, 0x0⟩, ⟨25, 24, .ro, 0x0⟩, ⟨21, 20, .ro, 0x0⟩, ⟨17, 16, .ro, 0x0⟩, ⟨12, 12, .ro, 0x0⟩]⟩]

/-- Registers of the ETH tables, part 1. -/
def regsEth1 : List RegDesc := [
  -- R412
  ⟨"ETH_MACSEC_WINDOW", 0x84, [(0x1000, 2)], 1, [⟨31, 0, .rw, 0x0⟩]⟩,
  -- R412
  ⟨"ETH_MACSEC_WINDOW_PORT2", 0x2084, [], 1, [⟨31, 0, .ro, 0x0⟩]⟩,
  -- R412
  ⟨"ETH_RX_FRAMES", 0x100, [(0x1000, 3)], 2, [⟨63, 0, .ro, 0x0⟩]⟩,
  -- R412
  ⟨"ETH_TX_FRAMES", 0x108, [(0x1000, 3)], 2, [⟨63, 0, .ro, 0x0⟩]⟩,
  -- R412
  ⟨"ETH_RX_DROP", 0x110, [(0x1000, 3)], 1, [⟨31, 16, .ro, 0x0⟩, ⟨15, 0, .ro, 0x0⟩]⟩,
  -- R412
  ⟨"ETH_MACSEC_FAIL", 0x114, [(0x1000, 2)], 1, [⟨31, 0, .ro, 0x0⟩]⟩,
  -- R412
  ⟨"ETH_MACSEC_FAIL_PORT2", 0x2114, [], 1, [⟨31, 0, .ro, 0x0⟩]⟩,
  -- R412
  ⟨"ETH_LAUNCH_LATE", 0x118, [(0x1000, 2)], 1, [⟨31, 0, .ro, 0x0⟩]⟩,
  -- R412
  ⟨"ETH_LAUNCH_LATE_PORT2", 0x2118, [], 1, [⟨31, 0, .ro, 0x0⟩]⟩,
  -- R412
  ⟨"ETH_MCAST", 0x300, [(0x1000, 3), (0x8, 16)], 2, [⟨63, 63, .rw, 0x0⟩, ⟨47, 0, .rw, 0x0⟩]⟩,
  -- R412
  ⟨"ETH_MGMT_RX_STATUS", 0x200, [(0x1000, 3)], 1, [⟨31, 31, .ro, 0x0⟩, ⟨30, 30, .wo, 0x0⟩, ⟨9, 0, .ro, 0x0⟩]⟩,
  -- R412
  ⟨"ETH_MGMT_TX_CTRL", 0x204, [(0x1000, 3)], 1, [⟨31, 31, .rw, 0x0⟩, ⟨9, 0, .rw, 0x0⟩]⟩]

/-- Registers of the ETH tables, part 2. -/
def regsEth2 : List RegDesc := [
  -- R412
  ⟨"ETH_MGMT_RX_DATA", 0x400, [(0x1000, 3), (0x4, 128)], 1, [⟨31, 0, .ro, 0x0⟩]⟩,
  -- R412
  ⟨"ETH_MGMT_TX_DATA", 0x600, [(0x1000, 3), (0x4, 128)], 1, [⟨31, 0, .rw, 0x0⟩]⟩]

/-- Every register of the ETH tables. -/
def regsEth : List RegDesc := regsEth0 ++ regsEth1 ++ regsEth2

/-- Registers of the BAR tables, part 0. -/
def regsBar0 : List RegDesc := [
  -- R413
  ⟨"BAR_CTRL", 0x0, [], 1, [⟨30, 30, .rw, 0x1⟩, ⟨29, 29, .rw, 0x1⟩, ⟨28, 28, .rw, 0x1⟩, ⟨15, 0, .rw, 0xC2B8⟩]⟩,
  -- R413
  ⟨"BAR_VERSION", 0x4, [], 1, [⟨15, 8, .ro, 0x1⟩, ⟨7, 0, .ro, 0x1⟩]⟩,
  -- R413
  ⟨"BAR_RTO", 0x8, [], 1, [⟨19, 16, .rw, 0x8⟩, ⟨15, 0, .rw, 0x3E8⟩]⟩,
  -- R413
  ⟨"BAR_IDLE", 0xC, [], 1, [⟨15, 0, .rw, 0xBB8⟩]⟩,
  -- R413
  ⟨"BAR_ELECT", 0x10, [], 1, [⟨9, 0, .rw, 0x64⟩]⟩,
  -- R413
  ⟨"BAR_OWNER", 0x14, [], 1, [⟨31, 31, .ro, 0x0⟩, ⟨30, 30, .wo, 0x0⟩, ⟨15, 0, .ro, 0x0⟩]⟩,
  -- R413
  ⟨"BAR_OWNER_GEN", 0x18, [], 1, [⟨31, 0, .ro, 0x0⟩]⟩,
  -- R413
  ⟨"BAR_HELD", 0x1C, [], 1, [⟨31, 16, .ro, 0x0⟩, ⟨10, 0, .ro, 0x0⟩]⟩,
  -- R413
  ⟨"BAR_DROPPED", 0x20, [], 1, [⟨31, 0, .ro, 0x0⟩]⟩,
  -- R413
  ⟨"BAR_HOST", 0x100, [(0x20, 8)], 1, [⟨31, 31, .rwl, 0x0⟩, ⟨30, 30, .rwl, 0x0⟩, ⟨29, 29, .rwl, 0x0⟩, ⟨28, 28, .rwl, 0x0⟩, ⟨27, 27, .rw, 0x0⟩, ⟨23, 16, .rwl, 0x0⟩, ⟨15, 0, .rwl, 0x0⟩]⟩,
  -- R413
  ⟨"BAR_HOST_ADDR", 0x110, [(0x20, 8)], 4, [⟨127, 0, .rwl, 0x0⟩]⟩,
  -- R413
  ⟨"BAR_WIN", 0x1010, [(0x10, 255)], 1, [⟨31, 31, .ro, 0x0⟩, ⟨30, 30, .wo, 0x0⟩, ⟨29, 29, .wo, 0x0⟩, ⟨25, 25, .rw, 0x0⟩, ⟨24, 24, .rw, 0x0⟩, ⟨15, 0, .ro, 0x0⟩]⟩]

/-- Registers of the BAR tables, part 1. -/
def regsBar1 : List RegDesc := [
  -- R413
  ⟨"BAR_WIN_SIZE", 0x1018, [(0x10, 255)], 2, [⟨47, 0, .rw, 0x0⟩]⟩,
  -- R413
  ⟨"BAR_SESS", 0x3000, [(0x20, 8)], 1, [⟨31, 31, .ro, 0x0⟩, ⟨29, 28, .ro, 0x0⟩, ⟨25, 24, .ro, 0x0⟩, ⟨23, 16, .ro, 0x0⟩, ⟨15, 0, .ro, 0x0⟩]⟩,
  -- R413
  ⟨"BAR_SESS_INFO", 0x3004, [(0x20, 8)], 1, [⟨27, 24, .ro, 0x0⟩, ⟨18, 16, .ro, 0x0⟩, ⟨15, 8, .ro, 0x0⟩]⟩,
  -- R413
  ⟨"BAR_SESS_STATS", 0x3008, [(0x20, 8)], 1, [⟨31, 16, .ro, 0x0⟩, ⟨15, 0, .ro, 0x0⟩]⟩]

/-- Every register of the BAR tables. -/
def regsBar : List RegDesc := regsBar0 ++ regsBar1

/-- Registers of the TAL tables, part 0. -/
def regsTal0 : List RegDesc := [
  -- R443
  ⟨"TAL_REACT", 0x100, [(0x4, 176)], 1, [⟨8, 8, .rwl, 0x0⟩, ⟨4, 4, .rwl, 0x0⟩, ⟨1, 0, .rwl, 0x0⟩]⟩,
  -- R467
  ⟨"TAL_CTRL", 0x0, [], 1, [⟨31, 31, .rw, 0x0⟩]⟩,
  -- R467
  ⟨"TAL_STATUS", 0x4, [], 1, [⟨31, 31, .ro, 0x0⟩, ⟨30, 30, .ro, 0x1⟩, ⟨29, 29, .ro, 0x0⟩, ⟨15, 8, .ro, 0x0⟩, ⟨7, 0, .ro, 0x0⟩]⟩,
  -- R467
  ⟨"TAL_FIRST", 0x10, [], 4, [⟨127, 0, .ro, 0x0⟩]⟩,
  -- R467
  ⟨"TAL_FIRST_CTRL", 0x20, [], 1, [⟨31, 31, .w1c, 0x0⟩]⟩,
  -- R467
  ⟨"TAL_HIST_WR", 0x30, [], 1, [⟨31, 0, .ro, 0x0⟩]⟩,
  -- R467
  ⟨"TAL_HIST_RD", 0x34, [], 1, [⟨31, 0, .rw, 0x0⟩]⟩,
  -- R467
  ⟨"TAL_HIST_OVERFLOW", 0x38, [], 1, [⟨31, 0, .ro, 0x0⟩]⟩,
  -- R467
  ⟨"TAL_COALESCE_FULL", 0x3C, [], 1, [⟨31, 0, .ro, 0x0⟩]⟩,
  -- R467
  ⟨"TAL_FRAME_CTRL", 0x40, [], 1, [⟨31, 31, .rwl, 0x1⟩, ⟨30, 30, .rwl, 0x0⟩, ⟨25, 24, .rwl, 0x0⟩, ⟨15, 0, .rwl, 0x3E8⟩]⟩,
  -- R467
  ⟨"TAL_DEST_MAC", 0x48, [], 2, [⟨47, 0, .rwl, 0xFFFFFFFFFFFF⟩]⟩,
  -- R467
  ⟨"TAL_DEST_IP", 0x50, [], 4, [⟨127, 0, .rwl, 0x0⟩]⟩]

/-- Registers of the TAL tables, part 1. -/
def regsTal1 : List RegDesc := [
  -- R467
  ⟨"TAL_DEST_UDP", 0x60, [], 1, [⟨15, 0, .rwl, 0xC2B8⟩]⟩,
  -- R467
  ⟨"TAL_FRAME_SEQ", 0x64, [], 1, [⟨31, 0, .ro, 0x0⟩]⟩,
  -- R467
  ⟨"TAL_FRAMES_LOST", 0x68, [], 1, [⟨31, 0, .ro, 0x0⟩]⟩,
  -- R467
  ⟨"TAL_PENDING", 0x80, [(0x4, 6)], 1, [⟨31, 0, .w1c, 0x0⟩]⟩,
  -- R467
  ⟨"TAL_HIST", 0x1000, [(0x10, 64)], 4, [⟨127, 0, .ro, 0x0⟩]⟩,
  -- R468
  ⟨"TAL_SW_CTRL", 0x2000, [], 1, [⟨31, 31, .rwl, 0x1⟩, ⟨15, 0, .rwl, 0x3E8⟩]⟩,
  -- R468
  ⟨"TAL_SW_STATUS", 0x2004, [], 1, [⟨31, 31, .ro, 0x0⟩, ⟨20, 16, .ro, 0x0⟩]⟩,
  -- R468
  ⟨"TAL_SW_CYCLES", 0x2008, [], 1, [⟨31, 0, .ro, 0x0⟩]⟩,
  -- R468
  ⟨"TAL_SW_DEFERRED", 0x200C, [], 1, [⟨31, 0, .ro, 0x0⟩]⟩,
  -- R468
  ⟨"TAL_SW_STARVED", 0x2010, [], 1, [⟨31, 0, .ro, 0x0⟩]⟩,
  -- R468
  ⟨"TAL_SW_SLOT", 0x2100, [(0x20, 4)], 1, [⟨31, 31, .ro, 0x0⟩, ⟨30, 30, .ro, 0x0⟩, ⟨29, 29, .wo, 0x0⟩]⟩,
  -- R468
  ⟨"TAL_SW_ADDR", 0x2108, [(0x20, 4)], 2, [⟨63, 0, .rw, 0x0⟩]⟩]

/-- Registers of the TAL tables, part 2. -/
def regsTal2 : List RegDesc := [
  -- R468
  ⟨"TAL_SW_ID", 0x2110, [(0x20, 4)], 1, [⟨31, 0, .ro, 0x0⟩]⟩,
  -- R468
  ⟨"TAL_SW_VER", 0x2114, [(0x20, 4)], 1, [⟨31, 0, .ro, 0x0⟩]⟩]

/-- Every register of the TAL tables. -/
def regsTal : List RegDesc := regsTal0 ++ regsTal1 ++ regsTal2

/-- Registers of the FW tables, part 0. -/
def regsFw0 : List RegDesc := [
  -- R493
  ⟨"FW_STATUS", 0x0, [], 1, [⟨31, 31, .ro, 0x0⟩, ⟨30, 30, .ro, 0x0⟩, ⟨25, 25, .ro, 0x0⟩, ⟨24, 24, .ro, 0x0⟩, ⟨23, 23, .ro, 0x0⟩, ⟨6, 0, .ro, 0x0⟩]⟩,
  -- R493
  ⟨"FW_ACTIVATE", 0x4, [], 1, [⟨31, 31, .wo, 0x0⟩, ⟨30, 30, .ro, 0x0⟩, ⟨11, 8, .ro, 0x0⟩, ⟨0, 0, .rw, 0x0⟩]⟩,
  -- R493
  ⟨"FW_CTRL", 0x8, [], 1, [⟨31, 31, .rw, 0x0⟩]⟩,
  -- R493
  ⟨"FW_IMAGE", 0x100, [(0x40, 7)], 1, [⟨31, 0, .ro, 0x0⟩]⟩,
  -- R493
  ⟨"FW_IMAGE_SVN", 0x104, [(0x40, 7)], 1, [⟨23, 16, .ro, 0x0⟩, ⟨15, 8, .ro, 0x0⟩, ⟨6, 0, .ro, 0x0⟩]⟩,
  -- R493
  ⟨"FW_IMAGE_DIGEST", 0x120, [(0x40, 7)], 8, [⟨255, 0, .ro, 0x0⟩]⟩,
  -- R493
  ⟨"FW_PROC0", 0x400, [], 1, [⟨31, 31, .wo, 0x0⟩, ⟨30, 30, .ro, 0x0⟩, ⟨29, 29, .wo, 0x0⟩, ⟨28, 28, .ro, 0x0⟩, ⟨26, 24, .ro, 0x0⟩, ⟨15, 0, .rwl, 0x32⟩]⟩,
  -- R493
  ⟨"FW_PROC", 0x410, [(0x10, 6)], 1, [⟨31, 31, .wo, 0x0⟩, ⟨30, 30, .ro, 0x0⟩, ⟨29, 29, .wo, 0x0⟩, ⟨28, 28, .ro, 0x0⟩, ⟨26, 24, .ro, 0x0⟩, ⟨15, 0, .rwl, 0xA⟩]⟩,
  -- R493
  ⟨"FW_RESTARTS", 0x404, [(0x10, 7)], 1, [⟨31, 0, .ro, 0x0⟩]⟩,
  -- R493
  ⟨"FW_WDT_EXP", 0x408, [(0x10, 7)], 1, [⟨31, 0, .ro, 0x0⟩]⟩,
  -- R493
  ⟨"FW_TEST_ADDR", 0x800, [], 2, [⟨63, 0, .rw, 0x0⟩]⟩]

/-- Every register of the FW tables. -/
def regsFw : List RegDesc := regsFw0

/-- Registers of the BIL tables, part 0. -/
def regsBil0 : List RegDesc := [
  -- R539
  ⟨"BIL_DEVICE", 0x0, [], 1, [⟨1, 0, .ro, 0x0⟩]⟩,
  -- R539
  ⟨"BIL_VERSION", 0x4, [], 1, [⟨15, 8, .ro, 0x1⟩, ⟨7, 0, .ro, 0x1⟩]⟩,
  -- R539
  ⟨"BIL_PORT_CTRL", 0x100, [(0x40, 3)], 1, [⟨31, 31, .rw, 0x0⟩, ⟨30, 30, .ro, 0x0⟩, ⟨26, 24, .ro, 0x0⟩, ⟨17, 16, .ro, 0x0⟩, ⟨7, 0, .ro, 0x0⟩]⟩,
  -- R539
  ⟨"BIL_PORT_STATUS", 0x104, [(0x40, 3)], 1, [⟨31, 31, .ro, 0x0⟩, ⟨30, 30, .ro, 0x0⟩, ⟨3, 0, .ro, 0x0⟩]⟩,
  -- R539
  ⟨"BIL_RETRIES", 0x108, [(0x40, 3)], 1, [⟨31, 0, .ro, 0x0⟩]⟩,
  -- R539
  ⟨"BIL_CRC_ERR", 0x10C, [(0x40, 3)], 1, [⟨31, 0, .ro, 0x0⟩]⟩,
  -- R539
  ⟨"BIL_TX_BYTES", 0x110, [(0x40, 3)], 2, [⟨63, 0, .ro, 0x0⟩]⟩,
  -- R539
  ⟨"BIL_RX_BYTES", 0x118, [(0x40, 3)], 2, [⟨63, 0, .ro, 0x0⟩]⟩,
  -- R539
  ⟨"BIL_PEER_FAULT", 0x120, [(0x40, 3)], 4, [⟨127, 0, .ro, 0x0⟩]⟩,
  -- R539
  ⟨"BIL_PEER_OVF", 0x130, [(0x40, 3)], 1, [⟨31, 0, .ro, 0x0⟩]⟩]

/-- Every register of the BIL tables. -/
def regsBil : List RegDesc := regsBil0

/-- The registers of register block n (R30); a reserved block has none. -/
def regsOfBlock (n : Nat) : List RegDesc :=
  match n with
  | 0 => regsSec
  | 1 => regsFw
  | 2 => regsPwr
  | 3 => regsSaf
  | 4 => regsTal
  | 5 => regsTim
  | 6 => regsCmd
  | 7 => regsSch
  | 8 => regsCx
  | 9 => regsMem
  | 10 => regsIng
  | 11 => regsIsp
  | 12 => regsEth
  | 13 => regsBar
  | 14 => regsBil
  | _ => []

/-- The registers of unit u of a core's block (R31); a reserved offset has none. -/
def regsOfUnit (u : Nat) : List RegDesc :=
  match u with
  | 0 => regsCoreTw
  | 1 => regsCoreWf
  | 2 => regsCoreTd
  | 3 => regsCoreTd
  | 4 => regsCoreSk
  | 5 => regsCoreBt
  | 6 => regsCorePort
  | 7 => regsCorePort
  | _ => []

/-- The word of a register instance that offset o falls on, and where that instance begins. -/
def hitDims (words : Nat) : Nat → List (Nat × Nat) → Nat → Option (Nat × Nat)
  | b, [], o => if b ≤ o ∧ o < b + 4 * words then some (b, (o - b) / 4) else none
  | b, (st, n) :: ds, o =>
    if o < b then none
    else if (o - b) / st < n then hitDims words (b + (o - b) / st * st) ds o
    else none

/-- The first register of a table that holds offset o: its row, where its instance begins, which word of it. -/
def regHit : List RegDesc → Nat → Option (RegDesc × Nat × Nat)
  | [], _ => none
  | r :: rs, o =>
    match hitDims r.words r.base r.dims o with
    | some (b, w) => some (r, b, w)
    | none => regHit rs o

/-- The register that occupies offset off of the register space (R30 to R32): its row, the offset where its instance begins, which word of it. A word that no register occupies has none. -/
def regAt (off : Nat) : Option (RegDesc × Nat × Nat) :=
  if off < 0x2000000 then
    let p := off / 0x100000 * 0x100000
    (regHit (regsOfBlock (off / 0x100000)) (off - p)).map fun (r, b, w) => (r, b + p, w)
  else if off < 0x4000000 then
    let p := off / 0x10000 * 0x10000
    (regHit (regsOfUnit (off / 0x10000 % 16)) (off - p)).map fun (r, b, w) => (r, b + p, w)
  else none

/-- The part of a field that lies in word w of its register: the bits and the shift of the field's value. -/
def Field.inWord (f : Field) (w : Nat) : Option (Nat × Nat) :=
  let lo := max f.lo (32 * w)
  let hi := min f.hi (32 * w + 31)
  if lo ≤ hi then some (hi - 32 * w, lo - 32 * w) else none

/-- The mask of the bits of word w whose field has one of the access codes given. -/
def RegDesc.mask (r : RegDesc) (w : Nat) (accs : List Access) : Word :=
  r.fields.foldl (fun m f =>
    if accs.contains f.acc then
      match f.inWord w with
      | some (hi, lo) => m ||| BitVec.ofNat 32 ((2 ^ (hi + 1 - lo) - 1) * 2 ^ lo)
      | none => m
    else m) 0#32

/-- The reset value of word w of a register, as its table gives it. -/
def RegDesc.resetOf (r : RegDesc) (w : Nat) : Word :=
  BitVec.ofNat 32 ((r.fields.foldl (fun a f => a + f.reset * 2 ^ f.lo) 0) >>> (32 * w))

end Sys2Proof.Machine
end

