-- ==== Sys2Proof/Machine/Kinds.lean ====
section
/-!
DEFINITION. The fault kinds of R442 with their classes, default reactions and clearing rules, and the status codes of R15.
-/
namespace Sys2Proof.Machine

/-- Fault kinds of R442, part 0: kind, class (0 A, 1 B, 2 C), reaction at reset, clearing (0 none, 1 W1C, 2 POR). -/
def kindTable0 : List (Nat × Nat × Nat × Nat) := [
  (0x00, 2, 0, 0), (0x01, 1, 0, 1), (0x02, 2, 0, 0), (0x03, 1, 0, 1), (0x04, 2, 0, 0), (0x05, 1, 0, 1),
  (0x06, 2, 0, 0), (0x07, 1, 0, 1), (0x08, 2, 0, 0), (0x09, 1, 0, 1), (0x0A, 2, 0, 0), (0x0B, 1, 0, 1),
  (0x0C, 0, 0, 1), (0x0D, 2, 0, 0), (0x0E, 0, 0, 1), (0x0F, 0, 0, 1), (0x10, 2, 0, 0), (0x20, 2, 0, 0),
  (0x21, 2, 0, 0), (0x22, 0, 0, 1), (0x23, 1, 0, 1), (0x24, 1, 0, 1), (0x25, 1, 0, 1), (0x26, 1, 0, 1)]

/-- Fault kinds of R442, part 1: kind, class (0 A, 1 B, 2 C), reaction at reset, clearing (0 none, 1 W1C, 2 POR). -/
def kindTable1 : List (Nat × Nat × Nat × Nat) := [
  (0x27, 2, 0, 0), (0x30, 1, 0, 1), (0x31, 1, 0, 1), (0x32, 1, 0, 1), (0x33, 1, 0, 1), (0x34, 1, 0, 1),
  (0x35, 1, 0, 1), (0x36, 1, 0, 1), (0x37, 1, 0, 1), (0x38, 1, 0, 1), (0x39, 1, 0, 1), (0x3A, 2, 0, 0),
  (0x40, 1, 0, 1), (0x41, 1, 0, 1), (0x42, 1, 0, 1), (0x43, 1, 0, 1), (0x44, 1, 0, 1), (0x45, 2, 0, 0),
  (0x46, 1, 0, 1), (0x47, 1, 0, 1), (0x48, 1, 0, 1), (0x49, 1, 0, 1), (0x4A, 1, 0, 1), (0x4B, 2, 0, 0)]

/-- Fault kinds of R442, part 2: kind, class (0 A, 1 B, 2 C), reaction at reset, clearing (0 none, 1 W1C, 2 POR). -/
def kindTable2 : List (Nat × Nat × Nat × Nat) := [
  (0x4C, 2, 0, 0), (0x4D, 1, 0, 1), (0x50, 1, 0, 1), (0x51, 1, 0, 1), (0x52, 2, 0, 0), (0x53, 1, 0, 1),
  (0x54, 2, 0, 0), (0x55, 2, 0, 0), (0x58, 1, 0, 1), (0x59, 1, 0, 1), (0x5A, 2, 0, 0), (0x5B, 2, 0, 0),
  (0x5C, 2, 0, 0), (0x5D, 1, 0, 1), (0x60, 1, 0, 1), (0x61, 2, 0, 0), (0x62, 0, 3, 1), (0x63, 1, 0, 1),
  (0x64, 0, 0, 1), (0x65, 0, 1, 2), (0x68, 1, 0, 1), (0x69, 1, 0, 1), (0x6A, 1, 0, 1), (0x6B, 2, 0, 0)]

/-- Fault kinds of R442, part 3: kind, class (0 A, 1 B, 2 C), reaction at reset, clearing (0 none, 1 W1C, 2 POR). -/
def kindTable3 : List (Nat × Nat × Nat × Nat) := [
  (0x70, 1, 0, 1), (0x71, 0, 0, 2), (0x72, 1, 0, 1), (0x73, 0, 1, 1), (0x74, 2, 0, 0), (0x75, 0, 1, 1),
  (0x76, 0, 1, 1), (0x77, 0, 0, 2), (0x80, 1, 0, 1), (0x81, 2, 0, 0), (0x82, 2, 0, 0), (0x83, 1, 0, 1),
  (0x84, 2, 0, 0), (0x85, 2, 0, 0), (0x86, 1, 0, 1), (0x87, 1, 0, 1), (0x88, 1, 0, 1), (0x89, 1, 0, 1),
  (0x8A, 2, 0, 0), (0x8B, 1, 0, 1), (0x8C, 2, 0, 0), (0x8D, 1, 0, 1), (0x8E, 2, 0, 0), (0x8F, 1, 0, 1)]

/-- Fault kinds of R442, part 4: kind, class (0 A, 1 B, 2 C), reaction at reset, clearing (0 none, 1 W1C, 2 POR). -/
def kindTable4 : List (Nat × Nat × Nat × Nat) := [
  (0x90, 1, 0, 1), (0x91, 1, 0, 1), (0x92, 1, 0, 1), (0x93, 1, 0, 1), (0x94, 2, 0, 0), (0xA0, 1, 0, 1),
  (0xA1, 1, 0, 1), (0xA2, 0, 1, 1), (0xA3, 1, 0, 1), (0xA4, 1, 0, 1), (0xA5, 1, 0, 1)]

/-- Every fault kind of R442. -/
def kindTable : List (Nat × Nat × Nat × Nat) := kindTable0 ++ kindTable1 ++ kindTable2 ++ kindTable3 ++ kindTable4

/-- Fault kind SKEIN_CE (R442). -/
def Kind.SKEIN_CE : Nat := 0x00
/-- Fault kind SKEIN_UE (R442). -/
def Kind.SKEIN_UE : Nat := 0x01
/-- Fault kind BOLT_CE (R442). -/
def Kind.BOLT_CE : Nat := 0x02
/-- Fault kind BOLT_UE (R442). -/
def Kind.BOLT_UE : Nat := 0x03
/-- Fault kind LINE_CE (R442). -/
def Kind.LINE_CE : Nat := 0x04
/-- Fault kind LINE_UE (R442). -/
def Kind.LINE_UE : Nat := 0x05
/-- Fault kind CTXS_CE (R442). -/
def Kind.CTXS_CE : Nat := 0x06
/-- Fault kind CTXS_UE (R442). -/
def Kind.CTXS_UE : Nat := 0x07
/-- Fault kind DDR_CE (R442). -/
def Kind.DDR_CE : Nat := 0x08
/-- Fault kind DDR_UE (R442). -/
def Kind.DDR_UE : Nat := 0x09
/-- Fault kind DDR_LINK_CE (R442). -/
def Kind.DDR_LINK_CE : Nat := 0x0A
/-- Fault kind DDR_LINK_UE (R442). -/
def Kind.DDR_LINK_UE : Nat := 0x0B
/-- Fault kind DDR_INIT_FAIL (R442). -/
def Kind.DDR_INIT_FAIL : Nat := 0x0C
/-- Fault kind HRAM_CE (R442). -/
def Kind.HRAM_CE : Nat := 0x0D
/-- Fault kind HRAM_UE (R442). -/
def Kind.HRAM_UE : Nat := 0x0E
/-- Fault kind HRAM_NO_RESPONSE (R442). -/
def Kind.HRAM_NO_RESPONSE : Nat := 0x0F
/-- Fault kind SCRUB_LATE (R442). -/
def Kind.SCRUB_LATE : Nat := 0x10
/-- Fault kind LEDGER_CORRECTED (R442). -/
def Kind.LEDGER_CORRECTED : Nat := 0x20
/-- Fault kind LEDGER_TRANSIENT (R442). -/
def Kind.LEDGER_TRANSIENT : Nat := 0x21
/-- Fault kind LEDGER_FAIL (R442). -/
def Kind.LEDGER_FAIL : Nat := 0x22
/-- Fault kind LEDGER_SUSPECT (R442). -/
def Kind.LEDGER_SUSPECT : Nat := 0x23
/-- Fault kind LEDGER_ESCALATED (R442). -/
def Kind.LEDGER_ESCALATED : Nat := 0x24
/-- Fault kind LEDGER_BYPASS (R442). -/
def Kind.LEDGER_BYPASS : Nat := 0x25
/-- Fault kind LEDGER_DISABLE (R442). -/
def Kind.LEDGER_DISABLE : Nat := 0x26
/-- Fault kind LEDGER_RESTORED (R442). -/
def Kind.LEDGER_RESTORED : Nat := 0x27
/-- Fault kind DDR_FIREWALL (R442). -/
def Kind.DDR_FIREWALL : Nat := 0x30
/-- Fault kind CARVE_REFUSED (R442). -/
def Kind.CARVE_REFUSED : Nat := 0x31
/-- Fault kind LINE_STORE_REFUSED (R442). -/
def Kind.LINE_STORE_REFUSED : Nat := 0x32
/-- Fault kind REG_REFUSED (R442). -/
def Kind.REG_REFUSED : Nat := 0x33
/-- Fault kind FABRIC_ERROR (R442). -/
def Kind.FABRIC_ERROR : Nat := 0x34
/-- Fault kind CTX_REFUSED (R442). -/
def Kind.CTX_REFUSED : Nat := 0x35
/-- Fault kind SIGNAL_REFUSED (R442). -/
def Kind.SIGNAL_REFUSED : Nat := 0x36
/-- Fault kind MONITOR_REFUSED (R442). -/
def Kind.MONITOR_REFUSED : Nat := 0x37
/-- Fault kind SELVAGE_CRC (R442). -/
def Kind.SELVAGE_CRC : Nat := 0x38
/-- Fault kind PAYLOAD_CRC (R442). -/
def Kind.PAYLOAD_CRC : Nat := 0x39
/-- Fault kind INPUT_FLAGGED (R442). -/
def Kind.INPUT_FLAGGED : Nat := 0x3A
/-- Fault kind FRAME_TRUNCATED (R442). -/
def Kind.FRAME_TRUNCATED : Nat := 0x40
/-- Fault kind FRAME_OVERLONG (R442). -/
def Kind.FRAME_OVERLONG : Nat := 0x41
/-- Fault kind LINE_CRC (R442). -/
def Kind.LINE_CRC : Nat := 0x42
/-- Fault kind FRAME_NO_START (R442). -/
def Kind.FRAME_NO_START : Nat := 0x43
/-- Fault kind FRAME_EARLY (R442). -/
def Kind.FRAME_EARLY : Nat := 0x44
/-- Fault kind FRAME_DROPPED (R442). -/
def Kind.FRAME_DROPPED : Nat := 0x45
/-- Fault kind TRIGGER_WINDOW (R442). -/
def Kind.TRIGGER_WINDOW : Nat := 0x46
/-- Fault kind SETTING_UNCONFIRMED (R442). -/
def Kind.SETTING_UNCONFIRMED : Nat := 0x47
/-- Fault kind SENSOR_BUS_ERROR (R442). -/
def Kind.SENSOR_BUS_ERROR : Nat := 0x48
/-- Fault kind CSI_LINK_ERROR (R442). -/
def Kind.CSI_LINK_ERROR : Nat := 0x49
/-- Fault kind ISP_MISMATCH (R442). -/
def Kind.ISP_MISMATCH : Nat := 0x4A
/-- Fault kind ISP_RETRIED (R442). -/
def Kind.ISP_RETRIED : Nat := 0x4B
/-- Fault kind CTX_SEQ_FULL (R442). -/
def Kind.CTX_SEQ_FULL : Nat := 0x4C
/-- Fault kind CTX_LOST (R442). -/
def Kind.CTX_LOST : Nat := 0x4D
/-- Fault kind AGE_EXCEEDED (R442). -/
def Kind.AGE_EXCEEDED : Nat := 0x50
/-- Fault kind AGE_UNSYNCED (R442). -/
def Kind.AGE_UNSYNCED : Nat := 0x51
/-- Fault kind AGE_STEPPED (R442). -/
def Kind.AGE_STEPPED : Nat := 0x52
/-- Fault kind PUBLISH_MISSING (R442). -/
def Kind.PUBLISH_MISSING : Nat := 0x53
/-- Fault kind PUBLISH_EARLY (R442). -/
def Kind.PUBLISH_EARLY : Nat := 0x54
/-- Fault kind PUBLISH_REPEATED (R442). -/
def Kind.PUBLISH_REPEATED : Nat := 0x55
/-- Fault kind DEADLINE_MISSED (R442). -/
def Kind.DEADLINE_MISSED : Nat := 0x58
/-- Fault kind ADMISSION_LOST (R442). -/
def Kind.ADMISSION_LOST : Nat := 0x59
/-- Fault kind TRIGGER_SKIPPED (R442). -/
def Kind.TRIGGER_SKIPPED : Nat := 0x5A
/-- Fault kind DEBT_LIMIT (R442). -/
def Kind.DEBT_LIMIT : Nat := 0x5B
/-- Fault kind STALL_RESET (R442). -/
def Kind.STALL_RESET : Nat := 0x5C
/-- Fault kind SPILL_FAIL (R442). -/
def Kind.SPILL_FAIL : Nat := 0x5D
/-- Fault kind FW_WATCHDOG (R442). -/
def Kind.FW_WATCHDOG : Nat := 0x60
/-- Fault kind FW_RESTARTED (R442). -/
def Kind.FW_RESTARTED : Nat := 0x61
/-- Fault kind FW_RESTART_FAIL (R442). -/
def Kind.FW_RESTART_FAIL : Nat := 0x62
/-- Fault kind FW_HANDOFF_BAD (R442). -/
def Kind.FW_HANDOFF_BAD : Nat := 0x63
/-- Fault kind FW_IMAGE_BAD (R442). -/
def Kind.FW_IMAGE_BAD : Nat := 0x64
/-- Fault kind ISLAND_CHECK (R442). -/
def Kind.ISLAND_CHECK : Nat := 0x65
/-- Fault kind RING_SEQ_ERROR (R442). -/
def Kind.RING_SEQ_ERROR : Nat := 0x68
/-- Fault kind ENTRY_CRC (R442). -/
def Kind.ENTRY_CRC : Nat := 0x69
/-- Fault kind JOURNAL_DOWN (R442). -/
def Kind.JOURNAL_DOWN : Nat := 0x6A
/-- Fault kind REPLAY_DONE (R442). -/
def Kind.REPLAY_DONE : Nat := 0x6B
/-- Fault kind PACE_LOW (R442). -/
def Kind.PACE_LOW : Nat := 0x70
/-- Fault kind ALIGN_FAIL (R442). -/
def Kind.ALIGN_FAIL : Nat := 0x71
/-- Fault kind TEMP_HIGH (R442). -/
def Kind.TEMP_HIGH : Nat := 0x72
/-- Fault kind TEMP_TRIP (R442). -/
def Kind.TEMP_TRIP : Nat := 0x73
/-- Fault kind CAP_UNMET (R442). -/
def Kind.CAP_UNMET : Nat := 0x74
/-- Fault kind REG_FAULT (R442). -/
def Kind.REG_FAULT : Nat := 0x75
/-- Fault kind SUPPLY_LOW (R442). -/
def Kind.SUPPLY_LOW : Nat := 0x76
/-- Fault kind REF_CLOCK_LOST (R442). -/
def Kind.REF_CLOCK_LOST : Nat := 0x77
/-- Fault kind ETH_LINK_DOWN (R442). -/
def Kind.ETH_LINK_DOWN : Nat := 0x80
/-- Fault kind MACSEC_RX_FAIL (R442). -/
def Kind.MACSEC_RX_FAIL : Nat := 0x81
/-- Fault kind MACSEC_PN_LOW (R442). -/
def Kind.MACSEC_PN_LOW : Nat := 0x82
/-- Fault kind MACSEC_PN_EXHAUSTED (R442). -/
def Kind.MACSEC_PN_EXHAUSTED : Nat := 0x83
/-- Fault kind LAUNCH_LATE (R442). -/
def Kind.LAUNCH_LATE : Nat := 0x84
/-- Fault kind SESSION_LOST (R442). -/
def Kind.SESSION_LOST : Nat := 0x85
/-- Fault kind OWNER_LOST (R442). -/
def Kind.OWNER_LOST : Nat := 0x86
/-- Fault kind BIL_LINK_DOWN (R442). -/
def Kind.BIL_LINK_DOWN : Nat := 0x87
/-- Fault kind BIL_RETRY_LIMIT (R442). -/
def Kind.BIL_RETRY_LIMIT : Nat := 0x88
/-- Fault kind BIL_LANE_DEGRADED (R442). -/
def Kind.BIL_LANE_DEGRADED : Nat := 0x89
/-- Fault kind BIL_VERSION_DOWN (R442). -/
def Kind.BIL_VERSION_DOWN : Nat := 0x8A
/-- Fault kind BIL_TRAIN_FAIL (R442). -/
def Kind.BIL_TRAIN_FAIL : Nat := 0x8B
/-- Fault kind TIME_STEPPED (R442). -/
def Kind.TIME_STEPPED : Nat := 0x8C
/-- Fault kind TIME_SYNC_LOST (R442). -/
def Kind.TIME_SYNC_LOST : Nat := 0x8D
/-- Fault kind TIME_ACTION_LATE (R442). -/
def Kind.TIME_ACTION_LATE : Nat := 0x8E
/-- Fault kind BIL_TIME_FAULT (R442). -/
def Kind.BIL_TIME_FAULT : Nat := 0x8F
/-- Fault kind SELFTEST_STARVED (R442). -/
def Kind.SELFTEST_STARVED : Nat := 0x90
/-- Fault kind SELFTEST_FAIL (R442). -/
def Kind.SELFTEST_FAIL : Nat := 0x91
/-- Fault kind SWATCH_MISMATCH (R442). -/
def Kind.SWATCH_MISMATCH : Nat := 0x92
/-- Fault kind SWATCH_PACK_BAD (R442). -/
def Kind.SWATCH_PACK_BAD : Nat := 0x93
/-- Fault kind SWATCH_PACK_LOADED (R442). -/
def Kind.SWATCH_PACK_LOADED : Nat := 0x94
/-- Fault kind BLOB_AUTH_FAIL (R442). -/
def Kind.BLOB_AUTH_FAIL : Nat := 0xA0
/-- Fault kind KEY_SLOT_REFUSED (R442). -/
def Kind.KEY_SLOT_REFUSED : Nat := 0xA1
/-- Fault kind WEIGHT_DIGEST_MISMATCH (R442). -/
def Kind.WEIGHT_DIGEST_MISMATCH : Nat := 0xA2
/-- Fault kind DIGEST_PEER_MISMATCH (R442). -/
def Kind.DIGEST_PEER_MISMATCH : Nat := 0xA3
/-- Fault kind DIGEST_LATE (R442). -/
def Kind.DIGEST_LATE : Nat := 0xA4
/-- Fault kind MANIFEST_BAD (R442). -/
def Kind.MANIFEST_BAD : Nat := 0xA5

/-- The row of a fault kind: class, reaction at reset, clearing; none for a reserved kind. -/
def kindInfo (k : Nat) : Option (Nat × Nat × Nat) := (kindTable.find? (fun r => r.1 == k)).map (·.2)

/-- The class of a kind (R441): 0 A, 1 B, 2 C. -/
def kindClass (k : Nat) : Nat := match kindInfo k with | some (c, _, _) => c | none => 2

/-- The reset value of a kind's reaction entry (R442, R443); a reserved kind reads 0. -/
def reactReset (k : Nat) : Word :=
  match kindInfo k with
  | some (c, r, _) => BitVec.ofNat 32 ((if c < 2 then 0x100 else 0) + r)
  | none => 0#32

/-! ### Status codes (R15) -/
def St.OK : Nat := 0x00
def St.OK_RETRIED : Nat := 0x01
def St.OK_CORRECTED : Nat := 0x02
def St.ZERO_FIELD : Nat := 0x10
def St.BAD_OPCODE : Nat := 0x11
def St.BAD_FORMAT : Nat := 0x12
def St.OUT_OF_LIMIT : Nat := 0x13
def St.BAD_VERSION : Nat := 0x14
def St.EMPTY_OUTPUT : Nat := 0x15
def St.PLAN_WIDTH : Nat := 0x16
def St.FIREWALL : Nat := 0x20
def St.ECC_UNCORRECTED : Nat := 0x21
def St.LEDGER_FAIL : Nat := 0x22
def St.SEQ_FULL : Nat := 0x23
def St.INPUT_FLAGGED : Nat := 0x24
def St.CRC_MISMATCH : Nat := 0x25
def St.ABANDONED : Nat := 0x30
def St.STALL_RESET : Nat := 0x31
def St.DEADLINE_MISSED : Nat := 0x32
def St.VERSION_MISMATCH : Nat := 0x33

/-- The status codes that mean success (R16). -/
def succeeded (status : Nat) : Bool := status < 0x10

end Sys2Proof.Machine
end

