-- ==== Sys2Proof/Machine/State.lean ====
section
/-!
DEFINITION. The state of the TVK4512 block: every register, FIFO, buffer, counter, mode and pin the manual gives it,
as plain data, and the queue of commands that wait. Default values are the values at reset.
-/
namespace Sys2Proof.Machine

/-- Why a command stops the model with a fault. -/
inductive Fault where
  /-- SUPPLY_LOW with VDD_CORE below 0.66 V raises it: R546 guarantees no correct operation there and gives no effect. Safe: the model stops where the hardware's behaviour is not stated. [DESIGN CHOICE, log entry 14] -/
  | belowSurvival
  deriving DecidableEq, Repr

/-- Why the model refuses a command. -/
inductive Refusal where
  /-- A row that has no meaning yet, rejected by name in Dispatch. Safe. -/
  | notModelled (mnemonic : String)
  deriving DecidableEq, Repr

/-! ### The Tally (R439 to R457) -/

/-- A fault message waiting at its source, or the record the Tally keeps of it (R439), but for the time. -/
structure Msg where
  source : Nat
  kind : Nat
  stall : Nat
  cls : Nat
  count : Nat
  addr : Nat
  deriving DecidableEq, Repr

/-- An open coalescing window (R446): the record so far, the time of its first message, when it closes (reference ns). -/
structure Win where
  msg : Msg
  time : Nat
  due : Nat
  /-- The kinds that have arrived in it (R444). -/
  kinds : List Nat
  deriving DecidableEq, Repr

/-- A fault frame that still has copies to send (R455): its UDP payload, copies left, when the next is due, whether one was sent. -/
structure FaultFrame where
  seq : Nat
  bytes : List Byte
  left : Nat
  due : Nat
  sent : Bool
  deriving DecidableEq, Repr

/-- The Tally's state without an address. -/
structure Tally where
  /-- Messages waiting for the Tally, oldest first over all sources; at most four per source (R440). -/
  waiting : List Msg := []
  /-- Open coalescing windows, oldest first (R446). -/
  windows : List Win := []
  /-- The stalls of the messages that arrived while each pending bit has been set: (kind, stalls) (R444). -/
  silence : List (Nat × List Nat) := []
  /-- Records waiting for a fault frame and when each entered the batch, oldest first (R455). -/
  batch : List (BitVec 128 × Nat) := []
  /-- Fault frames with copies still to send. -/
  frames : List FaultFrame := []
  /-- When the last fault frame started, or the status interval began (R455). -/
  lastFrame : Nat := 0
  /-- TAL_HIST_OVERFLOW at the last frame (R456, FLAGS bit 3). -/
  ovfAtFrame : Nat := 0
  /-- End of FAULT_N's minimum low time, while it runs (R452). [DESIGN CHOICE, log entry 8] -/
  lowUntil : Option Nat := none
  /-- The ALIVE pin's level (R453). -/
  alive : Bool := false
  /-- When ALIVE last changed, or READY was set. -/
  aliveAt : Nat := 0
  /-- Records appended to the HyperRAM history (R451). -/
  histTotal : Nat := 0
  /-- Appending to the HyperRAM history has stopped (R451). -/
  histStopped : Bool := false
  deriving DecidableEq, Repr

/-! ### The time unit (R364 to R382) -/

/-- A TRIG_OUT pin's schedule (R377). -/
structure Trig where
  /-- Index of the next pulse of the armed schedule. -/
  next : Nat := 0
  /-- The pin is at its active level. -/
  active : Bool := false
  /-- Target of the inactive edge of the active pulse. -/
  off : Nat := 0
  /-- The active pulse belongs to a schedule that was disarmed. -/
  completing : Bool := false
  deriving DecidableEq, Repr

/-- A Bilvan port's time exchanges (R381), in units of 1/256 ns. -/
structure BilTime where
  delays : List Int := []
  offsets : List Int := []
  /-- The delay of the last full window (R382). -/
  lastDelay : Option Int := none
  /-- When the last exchange completed, or the port came up (reference ns). -/
  lastAt : Nat := 0
  /-- When the port sent the message of its last exchange (reference ns). -/
  sentAt : Option Nat := none
  deriving DecidableEq, Repr

/-- The time unit's state without an address. -/
structure TimeUnit where
  /-- The island is released: the counter counts (R364). -/
  on : Bool := false
  /-- The counter: NS in units of 2^32, FRAC below (R364). -/
  now : Nat := 0
  /-- The counter before the last tick (R378). -/
  prev : Nat := 0
  /-- The last tick applied a step (R378). -/
  stepped : Bool := false
  /-- The increment that the next tick adds, with 32 fraction bits (R364, R365). -/
  incr : Nat := 8 * 2 ^ 32
  /-- The increment in force at the last tick (R365, R372, R376). -/
  added : Nat := 8 * 2 ^ 32
  /-- When a step was last applied (reference ns; R381). -/
  stepAt : Option Nat := none
  /-- A requested step not yet applied: the sum of the offsets, 32 fraction bits (R367). -/
  stepReq : Option Int := none
  /-- The end of the sync lease in reference ns (R370). -/
  leaseDue : Option Nat := none
  /-- Capture FIFOs of TS_IN0 to TS_IN3, oldest first (R374). -/
  tsin : List (List (BitVec 128)) := [[], [], [], []]
  /-- Event FIFOs of the three Ethernet ports (R374). -/
  ptp : List (List (BitVec 128)) := [[], [], []]
  /-- TRIG_OUT0 to TRIG_OUT7. -/
  trig : List Trig := List.replicate 8 {}
  /-- PPS_OUT is active, and until when (reference ns) (R378). -/
  ppsEnd : Option Nat := none
  /-- The last second pulsed (R378). -/
  ppsLast : Option Nat := none
  /-- The three Bilvan ports' exchanges. -/
  bil : List BilTime := List.replicate 3 {}
  deriving DecidableEq, Repr

/-! ### Memory errors -/

/-- An error that stands in a stored word (R238): one wrong bit, or more than SECDED corrects. [DESIGN CHOICE, log entry 13] -/
inductive EccMark where
  | single
  | double
  deriving DecidableEq, Repr

/-! ### Jobs and commands (R266 to R298) -/

/-- The propagated part of a selvage (R422). -/
structure Prov where
  hasTime : Bool := false
  capture : Nat := 0
  synced : Bool := false
  frame : Nat := 0
  stream : Nat := 0
  stepGen : Nat := 0
  flags : Nat := 0
  deriving DecidableEq, Repr

/-- Where a command of a job stands. -/
inductive Stage where
  /-- Not started. -/
  | idle
  /-- Waiting for its contexts, before its checks (R206). -/
  | ctxWait
  /-- Its start checks passed; its effect has not begun. -/
  | started
  /-- Its effect has begun and goes on in later steps, or it waits while holding no unit. -/
  | running
  /-- Its status is decided; COMMAND_END is due. -/
  | ending
  /-- Ended. -/
  | done
  deriving DecidableEq, Repr

/-- What an engine command remembers from one pass to the next (R81, R104). -/
structure Eng where
  /-- H is settled and L is due (R81). -/
  lowDue : Bool := false
  /-- The first run was a MISMATCH and the one re-run is due (R104). -/
  rerunDue : Bool := false
  /-- A pre-emption left the next run unstarted (R143). -/
  runDue : Bool := false
  /-- The address field of the first run's outcome (R107). -/
  firstLoc : Nat := 0
  /-- The physical column of the first run's outcome, where CS held exactly one (R114). -/
  firstCol : Option Nat := none
  /-- The injection the first run had: TW_LEDGER_INJECT as it was armed (R116). -/
  injected : Option Nat := none
  /-- H's OVF bits, which L's drain needs (R80). -/
  hOvf : List (List Bool) := []
  deriving DecidableEq, Repr

/-- One command of a job. -/
structure Cmd where
  desc : List Byte
  stage : Stage := .idle
  status : Nat := 0
  /-- Its start checks have begun (R285). -/
  began : Bool := false
  /-- The propagated selvage of its inputs (R422). -/
  prov : Prov := {}
  /-- Flags the command itself adds (R420). -/
  own : Nat := 0
  /-- Its budget in bit-steps as its checks began (R279, R317). [DESIGN CHOICE, log entry 49] -/
  budget : Nat := 0
  /-- Bit-steps saved by width trimming (R73, R317). -/
  saved : Nat := 0
  /-- How far it has come: runs, passes, frames or bytes, as its meaning counts. -/
  progress : Nat := 0
  /-- A second count: the stage or the frames dropped. -/
  aux : Nat := 0
  /-- The target time of a waiting command, ns. -/
  target : Nat := 0
  /-- It ended after the job's deadline (R286). -/
  late : Bool := false
  /-- It runs on the second of its core's two tidy units or porters (R137, R157, R253). [DESIGN CHOICE, log entry 107] -/
  second : Bool := false
  /-- The GHASH state of a DECRYPT that a pre-emption stopped (R257). -/
  hash : Nat := 0
  /-- The write records that a SENSOR_WRITE has read at its start (R354). -/
  held : List Byte := []
  eng : Eng := {}
  deriving DecidableEq, Repr

/-- Who queued a job: a ring slot, or a node of an instance of a standing graph. -/
inductive JobSrc where
  | ring (n : Nat) (seq : Nat)
  | node (g : Nat) (inst : Nat) (k : Nat)
  deriving DecidableEq, Repr

/-- Where a job stands (R274, R289). -/
inductive JobPhase where
  /-- Accepted and waiting for placement. -/
  | accepted
  /-- Its core is chosen and its commands may start. -/
  | placed
  /-- Every command has ended; the record is journalled COMPLETED. -/
  | completed
  /-- Its status array and record are being written to the host. -/
  | publishing
  deriving DecidableEq, Repr

/-- A job (R268) or a node's job (R307). -/
structure Job where
  id : Nat
  src : JobSrc
  stall : Nat
  phase : JobPhase := .accepted
  coreMask : Nat := 0
  core : Nat := 0
  /-- LIST is a device address (true) or a host reference. -/
  listDev : Bool := true
  list : Nat := 0
  nCmds : Nat := 0
  /-- Absolute deadline in reference ns; none for best-effort ring jobs. -/
  deadline : Option Nat := none
  deadlinePassed : Bool := false
  statusPtr : Nat := 0
  user : Nat := 0
  epoch : Nat := 0
  replayed : Bool := false
  cmds : List Cmd := []
  /-- Decided by the entry or the list read, before any command: job status and the failing index. -/
  early : Option (Nat × Nat) := none
  /-- The completion record once journalled (R289): its 32 bytes. -/
  record : List Byte := []
  /-- Pre-empted on its core (R318). -/
  preempted : Bool := false
  /-- What a spill copied: device address, bytes, where in the spill area (R322). -/
  spilled : List (Nat × Nat × Nat) := []
  /-- A stage of publication: 0 status array, 1 bytes 8 to 31, 2 bytes 0 to 7 (R271). -/
  pubStep : Nat := 0
  deriving DecidableEq, Repr

/-- What a ring does with the entry at ACCEPTED (R273 to R275). -/
inductive Fetch where
  | idle
  /-- A read of the entry is outstanding; true on the second read. -/
  | reading (second : Bool)
  /-- The first read was wrong; the second follows at this time (reference ns). -/
  | waiting (due : Nat)
  /-- The entry waits for the HyperRAM's OKAY, with the status its checks decided (none: it passed). -/
  | journalling (entry : List Byte) (status : Option Nat)
  deriving DecidableEq, Repr

/-- A doorbell that is not acknowledged yet (R273). -/
structure Door where
  session : Nat
  seq : Nat
  seqEnd : Nat
  deriving DecidableEq, Repr

/-- A ring's state beside its registers. -/
structure Ring where
  fetch : Fetch := .idle
  doors : List Door := []
  /-- The completion window was refused by the host; held until it is bound again (R403). -/
  refusedHold : Bool := false
  deriving DecidableEq, Repr

/-- A record of the acceptance journal's log (R288). -/
structure LogRec where
  /-- Its place in acceptance order since the journal was empty. -/
  idx : Nat
  ring : Nat
  seq : Nat
  entry : List Byte
  time : Nat
  epoch : Nat
  /-- The completion record once COMPLETED. -/
  completed : Option (List Byte)
  /-- The status array once COMPLETED (R289). -/
  statuses : List Byte
  deriving DecidableEq, Repr

/-- One copy of a ring's state as the journal holds it: its update generation and its CRC-32C among the rest (R288). -/
structure RingCopy where
  accepted : Nat := 0
  published : Nat := 0
  epoch : Nat := 0
  gen : Nat := 0
  crc : Nat := 0
  deriving DecidableEq, Repr

/-- The acceptance journal (R288): per ring state, and the log in acceptance order. [DESIGN CHOICE, log entry 60] -/
structure Journal where
  /-- Copies A and B of the ring state, per ring. -/
  copyA : List RingCopy := List.replicate 64 {}
  copyB : List RingCopy := List.replicate 64 {}
  log : List LogRec := []
  /-- Records written since the journal was empty. -/
  total : Nat := 0
  deriving DecidableEq, Repr

/-- The command plane's state beside its registers. -/
structure CmdPlane where
  jobs : List Job := []
  nextJob : Nat := 0
  rings : List Ring := List.replicate 64 {}
  journal : Journal := {}
  /-- Signals to raise once a job is journalled: (job, device, signal, value) (R283). [DESIGN CHOICE, log entry 90] -/
  after : List (Nat × Nat × Nat × Nat) := []
  /-- Jobs executed again in this replay (R293). -/
  replayCount : Nat := 0
  /-- The COMPLETED records that this replay found and has still to publish: ring and SEQ (R293). -/
  replayLeft : List (Nat × Nat) := []
  /-- A warm reset has ended and the journal's log is still to be scanned (R293). -/
  scanDue : Bool := false
  /-- The HyperRAM has failed the journal since power-on reset (R290). -/
  journalLost : Bool := false
  deriving DecidableEq, Repr

/-! ### Scheduling (R302 to R325) -/

/-- A task of the admission test (R312): graph, node, home core, C, w, P (C in bit-steps, w and P in µs). -/
structure Task where
  graph : Nat
  node : Nat
  core : Nat
  c : Rat
  w : Nat
  p : Nat
  deriving DecidableEq, Repr

/-- A node record of a loaded graph (R307). -/
structure Node where
  list : Nat
  nCmds : Nat
  deps : List Nat
  coreMask : Nat
  dlUs : Nat
  cmds : List (List Byte)
  deriving DecidableEq, Repr

/-- What a graph was when it was disabled under an instance in flight (R310): its nodes, its stall, DEADLINE_US, and the home cores of admitted nodes. -/
structure InstOwn where
  nodes : List Node
  stall : Nat
  dlUs : Nat
  homes : List (Nat × Nat) := []
  deriving DecidableEq, Repr

/-- An instance of a standing graph in flight (R309). -/
structure Inst where
  id : Nat
  /-- Reference time at which it fired. -/
  fired : Nat
  /-- (stream, frame, capture ns) of the frames that fired it (R379, R335). -/
  frames : List (Nat × Nat × Nat)
  /-- Nodes placed so far. -/
  placed : List Nat := []
  missed : Bool := false
  /-- Nodes already reported missed. -/
  missedNodes : List Nat := []
  /-- What it goes on with where the graph has been disabled since. -/
  own : Option InstOwn := none
  deriving DecidableEq, Repr

/-- A standing graph's state beside its registers. -/
structure Graph where
  nodes : List Node := []
  insts : List Inst := []
  nextInst : Nat := 0
  /-- Streams of the trigger set that have closed a frame since the last firing: (stream, frame, capture ns). -/
  closed : List (Nat × Nat × Nat) := []
  /-- The time of the last firing (reference ns). -/
  lastFire : Option Nat := none
  /-- A firing held until this time (R308), with its frames. -/
  heldFire : Option (Nat × List (Nat × Nat × Nat)) := none
  /-- The pending instance of R35: its firing time and frames. -/
  pend : Option (Nat × List (Nat × Nat × Nat)) := none
  deriving DecidableEq, Repr

/-- A pre-emption under way on a core (R318): the victim job, and the new work (none: a self-test slice). -/
structure Preempt where
  victim : Nat
  winner : Option Nat
  since : Nat
  /-- It came during a non-preemptible segment of the victim (R320). -/
  waits : Bool := false
  /-- The units have been given up; the spill of R322 is due. -/
  spilling : Bool := false
  deriving DecidableEq, Repr

/-- The scheduler's state beside its registers. -/
structure Sched where
  tasks : List Task := []
  /-- V_s of the best-effort stalls: charged bit-steps and debt repaid, divided by WEIGHT, as a fraction (numerator, denominator 1) in units of 1/WEIGHT summed; kept exact as a rational. [DESIGN CHOICE, log entry 88] -/
  virt : List Rat := List.replicate 16 0
  /-- Stalls with best-effort work (R316). -/
  active : List Nat := []
  /-- The stall that holds each core's best-effort slice, and the slice's bit-steps. -/
  slice : List (Option (Nat × Nat)) := List.replicate 32 none
  /-- Stalls disabled whose carve-outs are still to be released (R305). -/
  releasing : List Nat := []
  /-- Carve-out entries by stall: (stall, core, skein?, entry) (R305, R518). -/
  carves : List (Nat × Nat × Bool × Nat) := []
  /-- Carve-out entries of stalls disabled since, which stand until their placed work has finished (R305). -/
  oldCarves : List (Nat × Nat × Bool × Nat) := []
  /-- Pre-emptions under way, by core. -/
  preempt : List (Option Preempt) := List.replicate 32 none
  /-- The core running a self-test slice. -/
  testCore : Option Nat := none
  /-- A slice the runner has asked for: the core. -/
  testAsk : Option Nat := none
  deriving DecidableEq, Repr

/-! ### The core-local units -/

/-- The cells of an engine that a pass uses: accumulators by row and logical column, OVF bits, checksum column, checksum row by logical column, corner (R63, R96). A cell outside the lists holds 0. -/
structure Tile where
  acc : List (List Word) := []
  ovf : List (List Bool) := []
  chkCol : List Word := []
  chkRow : List Word := []
  corner : Word := 0
  deriving DecidableEq, Repr

/-- A Twill pass in progress (R65): the command that runs it, its cells after the last K step, its cost. -/
structure Pass where
  job : Nat
  cmd : Nat
  tile : Tile
  /-- Bit-steps of base, K steps and drain. -/
  steps : Nat
  /-- Bit-steps that trimming saved (R73). -/
  saved : Nat
  /-- The re-run of a mismatched pass (R104). -/
  rerun : Bool := false
  /-- The L pass of a WARP16 command (R80). -/
  low : Bool := false
  /-- The injection armed for it: TW_LEDGER_INJECT (R116). -/
  inject : Option Nat := none
  deriving DecidableEq, Repr

/-- Where an escalation of a suspect unit stands between its stages (R110). -/
inductive EscPhase where
  /-- The next stage is due. -/
  | due
  /-- The regulator is settling to the stage's raise (R505). -/
  | settling
  /-- The stage's probe is due. -/
  | probeDue
  /-- The probe runs. -/
  | probing
  deriving DecidableEq, Repr

/-- An escalation of a suspect unit (R110): the stage entered (0: none yet) and what comes next. -/
structure Escal where
  stage : Nat := 0
  phase : EscPhase := .due
  deriving DecidableEq, Repr

/-- A core's state beside its registers. -/
structure Core where
  /-- Disabled in the map in force (R84). -/
  disabled : Bool := false
  /-- Physical columns bypassed in the map in force, ascending. -/
  bypass : List Nat := []
  /-- A map entry not yet in force: disabled, bypassed columns (R84). -/
  pendMap : Option (Bool × List Nat) := none
  pass : Option Pass := none
  /-- Times (reference ns) of corrections and transients within the last second, for the engine and the two tidy units (R108, R178). -/
  window : List (List Nat) := [[], [], []]
  /-- Escalations of the engine and the two tidy units. -/
  escal : List (Option Escal) := [none, none, none]
  /-- The injection that the running probe of each of them took: the register as it was armed (R111, R116, R179). -/
  probeInj : List (Option Nat) := [none, none, none]
  /-- The patrol scrubber's next offset and the time its pass began (R242). -/
  scrubAt : Nat := 0
  scrubSince : Nat := 0
  scrubLateSent : Bool := false
  /-- Writes of stall 0 to the line store that wait for the feeder (R142): address and bytes, oldest first. [DESIGN CHOICE, log entry 37] -/
  lineHeld : List (Nat × List Byte) := []
  /-- How often a window has been staged in the skein or a slice has run, and the line store been filled: what the staging area, or after a slice the chunk area too, and the line store hold since is not stated (R229, R134). [DESIGN CHOICE, log entry 19] -/
  staged : Nat := 0
  /-- How often a slice has left bytes in the chunk area, and what passes have staged there since: offset and bytes (R229). [DESIGN CHOICE, log entry 98] -/
  chunkLost : Nat := 0
  chunkNew : List (Nat × Nat) := []
  /-- Bytes that the porters have staged for passes (R229, R264). -/
  stagedBytes : Nat := 0
  lined : Nat := 0
  /-- What stall 0 has written into the line store since: offset and bytes. -/
  lineNew : List (Nat × Nat) := []
  /-- A self-test slice withdraws the core (R324). -/
  testing : Bool := false
  /-- Until when a core that deferred a slice is not asked again (R459). -/
  testDefer : Option Nat := none
  /-- By stall: the ring whose job last took the core's units in its turn (R315). -/
  served : List Nat := List.replicate 16 63
  deriving DecidableEq, Repr

/-- A context held by commands (R206): exclusive or shared, by job and command. -/
structure CtxHold where
  ctx : Nat
  job : Nat
  cmd : Nat
  excl : Bool
  deriving DecidableEq, Repr

/-! ### The board and the fuses -/

/-- What the board fixes: the straps as sampled at the last rise of PORST_N (R521, R543), the devices installed. [DESIGN CHOICE, log entry 9] -/
structure Board where
  /-- Device number (R521). -/
  devnum : Nat := 0
  /-- Capacity of the boot NOR in MiB (R3). -/
  norMiB : Nat := 32
  /-- Factory entries of the disabled-unit map, fused in OTP: core disabled, columns bypassed, by core (R84). -/
  fused : List (Bool × List Nat) := List.replicate 32 (false, [])
  /-- In-service entries of the map, recorded in the boot NOR (R84). [DESIGN CHOICE, log entry 52] -/
  service : List (Bool × List Nat) := List.replicate 32 (false, [])
  /-- The in-service entries go at the next power-on reset (R480). [DESIGN CHOICE, log entry 52] -/
  mapClear : Bool := false
  /-- The epoch in the boot NOR's record area (R297, R474). [DESIGN CHOICE, log entry 52] -/
  norEpoch : Nat := 0
  /-- OTP (R473): lifecycle state, and a change that waits for the next power-on reset (R480). -/
  lifecycle : Nat := 0
  lcNext : Option Nat := none
  /-- OTP: SHA3-256 hashes of the root keys, whether root 0 is revoked, and a revocation that waits. -/
  rootHash : List Nat := [0, 0]
  revoked0 : Bool := false
  revokeNext : Bool := false
  /-- OTP: hash of the configuration key, none before it is programmed. -/
  cfgHash : Option Nat := none
  /-- OTP: identity seed and provisioning key, none before they are programmed (or once disabled). -/
  seed : Option (List Byte) := none
  prov : Option (List Byte) := none
  /-- OTP: rollback counters by IMAGE_ID (R479). -/
  rollback : List Nat := List.replicate 7 0
  /-- OTP: MAC address base and serial number. -/
  macBase : Nat := 0
  serial : Nat := 0
  deriving DecidableEq, Repr

/-! ### Barrow (R395 to R413) -/

/-- What a device request to a host is for (R403). -/
inductive ReqFor where
  /-- A ring's entry. -/
  | entry (ring : Nat)
  /-- A ring's completion write: status array, bytes 8 to 31, bytes 0 to 7. -/
  | completion (ring : Nat)
  deriving DecidableEq, Repr

/-- A device request that is not answered yet (R399). -/
structure Req where
  seq : Nat
  kind : Nat
  body : List Byte
  sends : Nat
  at_ : Nat
  why : ReqFor
  win : Nat
  deriving DecidableEq, Repr

/-- A claim (R406): priority, lease in ms, when it ends (reference ns). -/
structure Claim where
  prio : Nat
  lease : Nat
  due : Nat
  deriving DecidableEq, Repr

/-- A Barrow session (R399, R400). -/
structure Session where
  num : Nat
  version : Nat
  port : Nat
  host : Nat
  addr : HostAddr
  stall : Nat
  maxData : Nat
  nonce : Nat
  /-- The next SEQ that it expects from the host. -/
  expect : Nat := 1
  /-- Responses stored by SEQ, none while the response is pending; the newest 64. -/
  resps : List (Nat × Option (List Byte)) := []
  /-- SEQ of the next device request. -/
  nextSeq : Nat := 1
  reqs : List Req := []
  /-- When the last valid request came (reference ns). -/
  last : Nat
  claim : Option Claim := none
  retx : Nat := 0
  dup : Nat := 0
  deriving DecidableEq, Repr

/-- Barrow's state beside its registers. -/
structure Barrow where
  slots : List (Option Session) := List.replicate 8 none
  /-- The next session number to try (R400). [DEDUCED, log entry 67] -/
  nextNum : Nat := 1
  owner : Option Nat := none
  /-- BAR_HOST0 admits any address on the management port (R476). -/
  anyHost : Bool := false
  /-- When the election window ends (R406). -/
  elect : Option Nat := none
  deriving DecidableEq, Repr

/-! ### Stream ingest and the image pipeline (R329 to R363) -/

/-- Where a setting's bus writes stand (R355, R356). -/
inductive SetPhase where
  /-- In the queue. -/
  | queued
  /-- The record with this index is on the bus. -/
  | onBus (k : Nat)
  /-- Every record has been sent, or there are none. -/
  | sent
  deriving DecidableEq, Repr

/-- A setting (R354, R355): the frame it aims at, its tag, its tuning set (0: none), its register writes (REG, LEN, DATA), the bytes to confirm. -/
structure Setting where
  frame : Nat
  tag : Nat
  tune : Nat
  writes : List (Nat × Nat × Nat)
  confirm : List Byte
  /-- Its bus writes were not complete at the frame start of T − L + 1. -/
  overrun : Bool := false
  /-- A transaction was refused twice, or its tuning set was refused. -/
  failed : Bool := false
  phase : SetPhase := .queued
  /-- Its issue time, once it has come (reference ns; R355, R357). -/
  dueAt : Option Nat := none
  deriving DecidableEq, Repr

/-- A frame of a stream from its start until it is closed or dropped (R332 to R341). -/
structure InFrame where
  frame : Nat
  capture : Nat
  synced : Bool
  stepGen : Nat
  flags : Nat := 0
  /-- The setting tag and the tuning set in effect (R355, R356). -/
  tag : Nat := 0
  tune : List Byte := []
  /-- The settings that aim at it. -/
  sets : List Setting := []
  /-- Rows placed, by exposure; the rows of an RVF frame that have been placed. -/
  rows : List Nat := [0, 0, 0, 0]
  seen : List Nat := []
  /-- Rows, samples or datagrams received (R341). -/
  got : Nat := 0
  /-- The rows of an in-line frame, by exposure. -/
  pix : List (List (List Nat)) := [[], [], [], []]
  /-- Exposures whose frame end has arrived (R338). -/
  ends : List Nat := []
  emb : List Byte := []
  embLines : Nat := 0
  /-- A write of the frame was refused or met an uncorrectable error (R336). -/
  bad : Bool := false
  /-- When its last packet came (reference ns). -/
  last : Nat
  deriving DecidableEq, Repr

/-- A stream context's state beside its registers. -/
structure Stream where
  /-- The set-up table as read at the enable (R361). -/
  table : List Byte := []
  /-- The frame that is arriving. -/
  cur : Option InFrame := none
  /-- When the last accepted frame started (reference ns). -/
  lastStart : Option Nat := none
  /-- Packets are discarded until the next frame start: the frame was not accepted or was dropped at its start. -/
  ignoring : Bool := false
  /-- Samples or datagrams of such a frame still to discard (SOURCE 2 and 3). -/
  skip : Nat := 0
  /-- FRAME_NO_START has been reported since the last frame start. -/
  noStart : Bool := false
  /-- An end-of-frame marker has been seen (SOURCE 1). -/
  marked : Bool := false
  /-- Raw frames that wait for the pipeline (PATH 2). -/
  raws : List InFrame := []
  /-- An in-line frame whose rows have all arrived. -/
  inl : Option InFrame := none
  /-- Frames complete in their landing buffers that wait to be handed over, in order (R334, R336). -/
  done : List InFrame := []
  /-- The setting queue, in order (R355). -/
  queue : List Setting := []
  /-- Settings whose frame has passed before their records were all written (R355). -/
  tail : List Setting := []
  /-- The AVTP sequence number that comes next, and whether a packet of another channel count was dropped with no block open (R340). -/
  seq : Option Nat := none
  oddPacket : Bool := false
  /-- Exposures whose frame end has come while no frame was open (R338, R339). -/
  lostEnds : List Nat := []
  /-- The tag and the tuning set of the last setting that reached a frame. -/
  tag : Nat := 0
  tune : List Byte := []
  /-- The frame whose statistics record each slot of the ring holds, and the latest written (R352). -/
  recs : List (Option Nat) := [none, none, none, none]
  lastRec : Option Nat := none
  deriving DecidableEq, Repr

/-- The pipeline and the hand-over engine. -/
structure Isp where
  /-- Streams whose raw frames wait, in order of raw completion (R348). -/
  order : List Nat := []
  /-- The memory-to-memory frame in the pipeline, and whether it is being processed once more (R350). -/
  run : Option (Nat × InFrame × Bool) := none
  /-- Streams whose complete frames wait for the hand-over engine, in order of completion (R334). -/
  hand : List Nat := []
  /-- The frame being copied to its published buffers. -/
  copy : Option (Nat × InFrame) := none
  deriving DecidableEq, Repr

/-! ### Ethernet ports (R383 to R394) -/

/-- A frame on a port's control queue. -/
inductive CtlFrame where
  /-- A Barrow datagram: the host it goes to, the UDP payload. -/
  | barrow (dst : HostAddr) (udp : List Byte)
  /-- A reply of R386, rule 6: the frame without FCS. -/
  | reply (bytes : List Byte)
  /-- The management transmit buffer (R394). -/
  | mgmt (bytes : List Byte)
  /-- A fault or status frame of the Tally, on the management port's queue 1 (R455, R457): destination MAC, IP and UDP port, the UDP payload. -/
  | fault (mac : Nat) (dst : HostAddr) (port : Nat) (udp : List Byte)
  deriving DecidableEq, Repr

/-- A frame on a publish queue: its bytes without FCS, its launch time in ns and whether it has been reached, the PUBLISH it belongs to. -/
structure TxFrame where
  bytes : List Byte
  launch : Option Nat
  due : Bool
  /-- It has been counted and reported as late (R387, R389). -/
  late : Bool := false
  job : Nat
  cmd : Nat
  deriving DecidableEq, Repr

/-- A MACsec secure association: whether a SAK is installed, its key slot's fill, the next packet number (R387). -/
structure SecAssoc where
  installed : Bool := false
  sak : List Byte := []
  pn : Nat := 1
  lowSent : Bool := false
  deriving DecidableEq, Repr

/-- An Ethernet port beside its registers. -/
structure EthPort where
  ctrl : List CtlFrame := []
  queues : List (List TxFrame) := List.replicate 8 []
  /-- The management receive FIFO, at most 16 frames (R394). -/
  rx : List (List Byte) := []
  /-- Transmit secure associations, AN 0 to 3. -/
  tx : List SecAssoc := List.replicate 4 {}
  /-- Receive channels 0 to 7, four associations each. -/
  rxSec : List (List SecAssoc) := List.replicate 8 (List.replicate 4 {})
  /-- Frames that validation dropped since the last report, and when that was (R387). -/
  failSince : Nat := 0
  failAt : Option Nat := none
  deriving DecidableEq, Repr

/-! ### Bilvan links (R521 to R539) -/

/-- A message to send, and the command that waits for its response. -/
structure BilPend where
  msg : BilMsg
  owner : Option (Nat × Nat)
  deriving DecidableEq, Repr

/-- A packet sent and not acknowledged (R524). -/
structure BilSent where
  seq : Nat
  what : BilPend
  sends : Nat
  deriving DecidableEq, Repr

/-- A Bilvan port beside its registers. -/
structure BilPort where
  /-- Messages not sent yet, oldest first. -/
  queue : List BilPend := []
  /-- Packets sent and not acknowledged, oldest first; at most 256 (R524). -/
  sent : List BilSent := []
  nextSeq : Nat := 0
  /-- The next sequence number that it accepts. -/
  expect : Nat := 0
  /-- When it last heard its partner (reference ns). -/
  heard : Nat := 0
  training : Bool := false
  /-- When a failed training is tried again (R525). -/
  retryAt : Option Nat := none
  /-- The last TRAIN_ERR reported (R525). -/
  lastErr : Nat := 0
  /-- Forwarded records, oldest first; at most 16 (R534). -/
  peer : List (BitVec 128) := []
  deriving DecidableEq, Repr

/-! ### What leaves the block -/

/-- Something the block sent outside: the model's own record of it, newest last. [DESIGN CHOICE, log entry 7] -/
inductive Out where
  /-- An Ethernet frame on a port, without FCS. -/
  | frame (port : Nat) (bytes : List Byte)
  /-- A Barrow datagram on a port: destination and payload. [DESIGN CHOICE, log entry 83] -/
  | datagram (port : Nat) (dst : HostAddr) (udp : List Byte)
  /-- A fault or status frame on the management port: destination MAC, IP and UDP port, payload. [DESIGN CHOICE, log entry 83] -/
  | fault (mac : Nat) (dst : HostAddr) (port : Nat) (udp : List Byte)
  /-- The answer to a register read: address and value. -/
  | read (addr : Nat) (v : Word)
  /-- An ERROR response to a transaction: its address. -/
  | error (addr : Nat)
  /-- Bytes to a sensor over a sensor-control controller: controller, 7-bit address, bytes. -/
  | bus (ctrl addr : Nat) (bytes : List Byte)
  /-- A time message on a Bilvan port, with its send stamp in 1/256 ns (R381). -/
  | timeMsg (port : Nat) (stamp : Int)
  /-- A packet on a Bilvan port. -/
  | link (port : Nat) (p : BilPacket)
  deriving DecidableEq, Repr

/-! ### Age monitors and weight digests (R426 to R436) -/

/-- An age monitor's watchdog (R428): the expectation D, when the last accepted publish was (both reference ns), and its stream and frame. All none: not armed. -/
structure AgeMon where
  due : Option Nat := none
  last : Option Nat := none
  key : Option (Nat × Nat) := none
  deriving DecidableEq, Repr

/-- What the security core keeps of the digest entries and rounds. -/
structure Digests where
  /-- Expected digest and MODEL_ID of each entry (R434). -/
  expect : List (Nat × Nat) := List.replicate 64 (0, 0)
  /-- When the last round began (reference ns). -/
  start : Nat := 0
  running : Bool := false
  /-- The running round is late: the next one was due before its end (R432). -/
  late : Bool := false
  deriving DecidableEq, Repr

/-! ### The security core and the firmware processors (R469 to R493) -/

/-- A NOR operation that runs (R477): erase of sectors, or a program with its bytes. -/
inductive NorOp where
  | erase (off sectors : Nat)
  | program (off : Nat) (data : List Byte)
  deriving DecidableEq, Repr

/-- The security core's state beside its registers. -/
structure Sec where
  /-- Decryption keys by slot; empty: no key (R486). -/
  dkeys : List (List Byte) := List.replicate 16 []
  /-- Verification keys by slot. -/
  vkeys : List (List Byte) := List.replicate 16 []
  nor : Option NorOp := none
  /-- The blob address of a key load that runs (R487). -/
  keyLoad : Option Nat := none
  /-- The set of an activation that runs (R478). -/
  activate : Option Nat := none
  /-- The report that is being signed (R490). -/
  attest : Option (List Byte) := none
  /-- The device configuration in use; none when it was not used (R476). -/
  config : Option (List Byte) := none
  /-- The highest pack version loaded since power-on reset, by PACK_ID (R465). -/
  packs : List (Nat × Nat) := []
  deriving DecidableEq, Repr

/-- A handoff block (R482): HANDOFF_VER, CAUSE, WRITER_VERSION and GEN; its body is private to the images. [DESIGN CHOICE, log entry 60] -/
structure Handoff where
  ver : Nat := 0
  cause : Nat := 0
  writer : Nat := 0
  gen : Nat := 0
  deriving DecidableEq, Repr

/-- A firmware processor beside its registers. -/
structure FwProc where
  /-- A restart in progress (R481): its cause and when it began (reference ns). -/
  restart : Option (Nat × Nat) := none
  /-- The header of a test image that the restart takes (R483). -/
  test : Option (List Byte) := none
  /-- When its last watchdog restart began (R484). -/
  watchAt : Option Nat := none
  /-- The running image is a test image: DEBUG in its header (R471, R479). -/
  debug : Bool := false
  handoff : Handoff := {}
  deriving DecidableEq, Repr

/-! ### Self-test (R458 to R466) -/

/-- The result entry of a cycle's part, as R466 keeps it. -/
structure TestEntry where
  fails : Bool := false
  first : Nat := 0xFFFF
  got : Nat := 0
  skipped : Nat := 0
  deriving DecidableEq, Repr

/-- A core's test cycle (R458, R459). -/
structure CoreTest where
  /-- Segments and patterns of the cycle that have run. -/
  at_ : Nat := 0
  /-- The patterns the cycle began with: by slot, PACK_ID, PACK_VERSION and the pattern records (R461). -/
  packs : List (Nat × Nat × Nat × List (List Byte)) := []
  /-- When the last cycle completed, or the core became enabled and powered (reference ns). -/
  since : Nat := 0
  /-- When SELFTEST_STARVED was last reported. -/
  starvedAt : Nat := 0
  deriving DecidableEq, Repr

/-- The swatch runner beside its registers. -/
structure Runner where
  cores : List CoreTest := List.replicate 32 {}
  /-- The pack bytes that each slot holds; empty: none. -/
  slots : List (List Byte) := List.replicate 4 []
  /-- The pack address of a load that the security core checks. -/
  loads : List (Option Nat) := List.replicate 4 none
  deriving DecidableEq, Repr

/-! ### Power and reset -/

/-- How far the device has come since PORST_N (R54, R475), and where it stopped. [DESIGN CHOICE, log entry 8] -/
inductive Phase where
  /-- PORST_N is low. -/
  | held
  /-- PORST_N has risen; the PLLs have not locked (t0 to t1 of R54). -/
  | started
  /-- The alignment counter runs; the dividers are held (t1 to t2). -/
  | locked
  /-- The dividers are released and compared (t2 to t3). -/
  | aligned
  /-- Three attempts failed: the device does not boot (R55). -/
  | failed
  /-- The security core is released (t3): the device boots and then runs. -/
  | live
  /-- Thermal shutdown (R510). -/
  | shutdown
  deriving DecidableEq, Repr

/-- How far boot has come (R475, R476). -/
inductive Boot where
  /-- The ROM has not checked the images. -/
  | start
  /-- All seven images of a set have passed. -/
  | checked
  /-- BOOTED. -/
  | done
  /-- Neither set passed. -/
  | failed
  deriving DecidableEq, Repr

/-- The power core's and the power block's state beside their registers (R42 to R44, R495 to R515). -/
structure Power where
  boot : Boot := .start
  /-- GATE is in effect for the cluster (R495). -/
  gated : List Bool := List.replicate 4 false
  /-- The cap that escalation holds on a cluster (R110, R502). -/
  escCap : List Nat := List.replicate 4 1500
  /-- The watt-derived limit c (R502). -/
  limit : Nat := 1500
  /-- The last ten power samples, newest last (R501). -/
  samples : List Nat := []
  /-- The TEMP_HIGH condition stands (R509). -/
  high : Bool := false
  /-- The condition temp_trip stands (R510). -/
  trip : Bool := false
  /-- Since when every sensor has been below HIGH_C − 5, and below TRIP_C − 5 (reference ns). -/
  coolHigh : Option Nat := none
  coolTrip : Option Nat := none
  /-- Since when each sensor has been at or above TRIP_C (R510). -/
  hotSince : List (Option Nat) := List.replicate 20 none
  /-- A sensor has reached TRIP_C + 10. -/
  scorched : Bool := false
  /-- The sensor and temperature that thermal shutdown would report. -/
  hottest : Nat × Nat := (0, 0)
  /-- The hottest sensor of each group as last sampled, and its highest since reset or CLEAR: clusters 0 to 3, then the die (R511). -/
  temps : List Int := List.replicate 5 0
  peaks : List (Option Int) := List.replicate 5 none
  /-- Consecutive periods above target + 20 at c = 95, periods at or below target, and whether CAP_UNMET may be reported (R503). -/
  above : Nat := 0
  met : Nat := 0
  unmetArmed : Bool := true
  /-- The last 1,024 pace windows of each cluster, newest last (R42). -/
  pace : List (List Nat) := List.replicate 4 []
  /-- Consecutive windows below 950, and when PACE_LOW was last reported (R44). -/
  paceLow : List Nat := List.replicate 4 0
  paceLowAt : List (Option Nat) := List.replicate 4 none
  /-- When the alignment counter started (reference ns): it counts reference cycles of 40 ns modulo 24 (R54, R57). -/
  alignT1 : Option Nat := none
  /-- The alignment edge at which held or stopped dividers are released (reference ns) (R54, R55, R57). -/
  edgeAt : Nat := 0
  /-- A warm reset is in progress, and whether WRST_N holds it (R512). -/
  warm : Bool := false
  warmPin : Bool := false
  /-- The cause of a warm reset that waits for the exit from STANDBY (R515). -/
  warmNext : Option Nat := none
  deriving DecidableEq, Repr

/-! ### The test access port (R556) -/

/-- The states of the test access port's controller (IEEE 1149.1). -/
inductive TapState where
  | testLogicReset | runTestIdle
  | selectDr | captureDr | shiftDr | exit1Dr | pauseDr | exit2Dr | updateDr
  | selectIr | captureIr | shiftIr | exit1Ir | pauseIr | exit2Ir | updateIr
  deriving DecidableEq, Repr

/-- The instructions of R556; the others are private to the maker. -/
inductive TapInstr where
  | bypass | samplePreload | extest | extestPulse | extestTrain | clamp | highz
  | other (code : Nat)
  deriving DecidableEq, Repr

/-- The test access port. -/
structure Tap where
  state : TapState := .testLogicReset
  instr : TapInstr := .bypass
  /-- Bits shifted in since the last capture, newest first. -/
  shifted : List Bool := []
  /-- The one-bit bypass register. -/
  bypass : Bool := false
  /-- What the boundary register's update stage holds: the bits last shifted in, newest first. -/
  boundary : List Bool := []
  /-- TDO: none while it is not driven. -/
  tdo : Option Bool := none
  deriving DecidableEq, Repr

/-! ### The whole -/

/-- The state of the block. -/
structure State where
  /-- The commands that wait, first in, first out. [DESIGN CHOICE, log entry 1] -/
  pending : List Instr := []
  /-- How far the device has come since PORST_N. -/
  phase : Phase := .started
  /-- Register words by offset from 0x30_0000_0000; an unlisted word holds its reset value. -/
  regs : List (Nat × Word) := []
  /-- Snapshots of wide registers: the low word's offset and the words latched (R8). -/
  latch : List (Nat × List Word) := []
  /-- Device memory by 40-bit address, canonical. -/
  mem : List Host.Cell := []
  /-- Errors that stand in stored words, by word address (R238). [DESIGN CHOICE, log entry 13] -/
  ecc : List (Nat × EccMark) := []
  /-- Link read errors still to be met: channel, and whether the retry fails too (R247). [DESIGN CHOICE, log entry 13] -/
  links : List (Nat × Bool) := []
  /-- LPDDR5X training: 0 never started, 1 in progress, 2 ended (R246). -/
  ddr : Nat := 0
  /-- The capacity in GiB that the last training was started with; mapped while READY is 1 (R246). -/
  ddrCap : Nat := 0
  /-- Corrected words still to be written back (R239). -/
  writeback : List Nat := []
  /-- Reference-derived time in ns (R60). [DESIGN CHOICE, log entry 11] -/
  refNs : Nat := 0
  /-- The model's own count of free values taken. [DESIGN CHOICE, log entry 6] -/
  freeN : Nat := 0
  tal : Tally := {}
  tim : TimeUnit := {}
  cmd : CmdPlane := {}
  sch : Sched := {}
  graphs : List Graph := List.replicate 64 {}
  cores : List Core := List.replicate 32 {}
  holds : List CtxHold := []
  /-- Contexts whose record has lost word 0 or word 1, until CTX_RESET with MODE 1 (R221). -/
  ctxHurt : List Nat := []
  board : Board := {}
  pwr : Power := {}
  bar : Barrow := {}
  eth : List EthPort := List.replicate 3 {}
  bil : List BilPort := List.replicate 3 {}
  streams : List Stream := List.replicate 128 {}
  isp : Isp := {}
  age : List AgeMon := List.replicate 64 {}
  dig : Digests := {}
  sec : Sec := {}
  fw : List FwProc := List.replicate 7 {}
  swr : Runner := {}
  tap : Tap := {}
  /-- What the block has sent outside, newest last (the model's own record). [DESIGN CHOICE, log entry 7] -/
  out : List Out := []
  deriving DecidableEq, Repr

/-- The block right after the rise of PORST_N: every field at its default; the MAC address of Ethernet port p is the OTP base plus p (R412). [DESIGN CHOICE, log entries 8, 9] -/
def State.reset : State := { regs := [(0xC01008, 1#32), (0xC02008, 2#32)] }

end Sys2Proof.Machine
end

