-- ==== Sys2Proof/Machine/Ops.lean ====
section
/-!
DEFINITION. The named operations over registers, time, fault messages and memory that the meanings of the commands share.
-/
namespace Sys2Proof.Machine

/-! ### Registers -/

/-- The value a register word holds at reset: its table's, or the reaction table's (R442, R443); a word no register occupies is zero. -/
def resetWord (off : Nat) : Word :=
  if 0x400100 ≤ off ∧ off < 0x4003C0 then reactReset ((off - 0x400100) / 4)
  else match regAt off with
    | some (r, _, w) => r.resetOf w
    | none => 0#32

/-- The register word at an offset. -/
def State.rd (s : State) (off : Nat) : Word := tabGet (resetWord off) off s.regs

/-- Set the register word at an offset. -/
def State.wr (s : State) (off : Nat) (v : Word) : State := { s with regs := tabSet (resetWord off) off v s.regs }

/-- Bits hi to lo of a register word. -/
def State.fld (s : State) (off hi lo : Nat) : Nat := bits (s.rd off).toNat hi lo

/-- One bit of a register word. -/
def State.bit (s : State) (off n : Nat) : Bool := (s.rd off).getLsbD n

/-- Set bits hi to lo of a register word. -/
def State.setFld (s : State) (off hi lo v : Nat) : State := s.wr off (BitVec.ofNat 32 (putBits (s.rd off).toNat hi lo v))

/-- Set one bit of a register word. -/
def State.setBit (s : State) (off n : Nat) (b : Bool) : State := s.setFld off n n (b2n b)

/-- A register of n words as a number, low word first (R8). -/
def State.rdN (s : State) (off : Nat) : Nat → Nat
  | 0 => 0
  | n + 1 => (s.rd off).toNat + 2 ^ 32 * s.rdN (off + 4) n

/-- Set a register of n words, low word first (R8). -/
def State.wrN (s : State) (off : Nat) : Nat → Nat → State
  | 0, _ => s
  | n + 1, v => (s.wr off (BitVec.ofNat 32 v)).wrN (off + 4) n (v / 2 ^ 32)

/-- A 64-bit register. -/
def State.rd64 (s : State) (off : Nat) : Nat := s.rdN off 2

/-- Set a 64-bit register. -/
def State.wr64 (s : State) (off v : Nat) : State := s.wrN off 2 v

/-- Add to a 32-bit counter that wraps. -/
def State.inc (s : State) (off n : Nat) : State := s.wr off (BitVec.ofNat 32 ((s.rd off).toNat + n))

/-- Add to a 64-bit counter that wraps. -/
def State.inc64 (s : State) (off n : Nat) : State := s.wr64 off (s.rd64 off + n)

/-- Add to a counter in bits hi to lo that stays at its largest value. -/
def State.sat (s : State) (off hi lo n : Nat) : State := s.setFld off hi lo (satAdd (hi + 1 - lo) (s.fld off hi lo) n)

/-- Add to a 64-bit counter that stays at its largest value. -/
def State.sat64 (s : State) (off n : Nat) : State := s.wr64 off (satAdd 64 (s.rd64 off) n)

/-! ### Time -/

/-- The counter's NS (R364, R366). -/
def State.ns (s : State) : Nat := s.tim.now / 2 ^ 32

/-- TIM_STATUS.SYNCED (R370). -/
def State.synced (s : State) : Bool := s.bit Reg.TIM_STATUS 31

/-- TIM_STATUS.STEP_GEN (R368). -/
def State.stepGen (s : State) : Nat := s.fld Reg.TIM_STATUS 15 0

/-- NS[62:0] with SYNCED in bit 63 (R366, R371). -/
def State.timeWord (s : State) : Nat := s.ns % 2 ^ 63 + b2n s.synced * 2 ^ 63

/-- The counter at the sampling tick less a latency of some ticks of the increment in force and some ns (R372). -/
def State.capture (s : State) (ticks ns : Nat) : Nat := (s.tim.now - ticks * s.tim.added - ns * 2 ^ 32) / 2 ^ 32

/-! ### Fault messages -/

/-- The source ID of unit u of global core g (R14). -/
def unitSrc (g u : Nat) : Nat := g * 8 + u

/-- Add one detection to a waiting message (R440). -/
def Msg.bump (m : Msg) : Msg := { m with count := satAdd 14 m.count 1 }

/-- Add one to the newest message of a source. -/
def bumpNewest (src : Nat) (l : List Msg) : List Msg :=
  (l.reverse.foldl (fun (acc : List Msg × Bool) m =>
    if !acc.2 && m.source == src then (m.bump :: acc.1, true) else (m :: acc.1, acc.2)) ([], false)).1

/-- A detection at a source: it merges into a waiting message of the same kind and address, waits as a message of its own, or adds to the newest when all four places are taken (R440). [DESIGN CHOICE, log entry 92] -/
def State.report (s : State) (src kind stall addr : Nat) : State :=
  let addr := addr % 2 ^ 40
  let l := s.tal.waiting
  let l' :=
    if l.any (fun m => m.source == src && m.kind == kind && m.addr == addr) then
      l.map (fun m => if m.source == src && m.kind == kind && m.addr == addr then m.bump else m)
    else if 4 ≤ (l.filter (fun m => m.source == src)).length then bumpNewest src l
    else l ++ [{ source := src, kind := kind, stall := stall, cls := kindClass kind, count := 1, addr := addr }]
  { s with tal := { s.tal with waiting := l' } }

/-! ### Sending outside -/

/-- Record something sent outside the block. [DESIGN CHOICE, log entry 92] -/
def State.emit (s : State) (o : Out) : State := { s with out := s.out ++ [o] }

/-! ### Memory -/

/-- What an unlisted byte of device memory reads as: erased NOR is all ones, every other memory reads zero. [DESIGN CHOICE, log entry 4; PRESUMED, log entry 5] -/
def memDefault (a : Nat) : Byte := if 0x5000000000 ≤ a ∧ a < 0x5010000000 then 0xFF#8 else 0#8

/-- The byte at a device address. [DESIGN CHOICE, log entry 4] -/
def State.byte (s : State) (a : Nat) : Byte := tabGet (memDefault a) a s.mem

/-- Put a byte at a device address. [DESIGN CHOICE, log entry 4] -/
def State.putByte (s : State) (a : Nat) (b : Byte) : State := { s with mem := tabSet (memDefault a) a b s.mem }

/-- The canonical form of device memory. -/
def Memory.wf (m : List Host.Cell) : Bool := tabWf memDefault m

/-- n bytes from a device address. -/
def State.peek (s : State) (a n : Nat) : List Byte := (List.range n).map (fun i => s.byte (a + i))

/-- Put bytes at a device address. -/
def State.poke (s : State) (a : Nat) : List Byte → State
  | [] => s
  | b :: t => (s.putByte a b).poke (a + 1) t

/-- Device memory from an address on for n bytes reads zero, with no error left in it. -/
def State.zeroMem (s : State) (a n : Nat) : State :=
  let inside := fun x => a ≤ x && x < a + n
  { s with mem := s.mem.filter (fun c => !inside c.1), ecc := s.ecc.filter (fun m => !inside m.1), writeback := s.writeback.filter (fun w => !inside w) }

/-- n bytes from an address become free values. [DESIGN CHOICE, log entries 6, 40] -/
def State.undefine (s : State) (a n : Nat) : State :=
  ({ s with freeN := s.freeN + n } : State).poke a ((List.range n).map fun i => Config.free 8 (s.freeN + i))

/-- The regions of the device address map (R27, R29). -/
inductive Region where
  | ddr
  | bolt (g o : Nat)
  | skein (g o : Nat)
  | line (g o : Nat)
  | ctx (n : Nat)
  | regs (off : Nat)
  | hyper (o : Nat)
  | xspi (o : Nat)
  | remote (d o : Nat)
  | hole
  deriving DecidableEq, Repr

/-- The device address of offset 0 of a core's window (R29). -/
def coreBase (g : Nat) : Nat := 0x1000000000 + g * 0x1000000
/-- The device address of a bolt offset. -/
def boltAddr (g o : Nat) : Nat := coreBase g + o
/-- The device address of a skein offset. -/
def skeinAddr (g o : Nat) : Nat := coreBase g + 0x400000 + o
/-- The device address of a line-store offset. -/
def lineAddr (g o : Nat) : Nat := coreBase g + 0x600000 + o
/-- The device address of a context record (R189). -/
def ctxAddr (n : Nat) : Nat := 0x2000000000 + n * 32

/-- Where a device address lies (R27, R29). -/
def regionOf (a : Nat) : Region :=
  if a < 0x1000000000 then .ddr
  else if a < 0x1020000000 then
    let g := (a - 0x1000000000) / 0x1000000
    let o := (a - 0x1000000000) % 0x1000000
    if o < 0x400000 then .bolt g o
    else if o < 0x4C0000 then .skein g (o - 0x400000)
    else if 0x600000 ≤ o ∧ o < 0x630000 then .line g (o - 0x600000)
    else .hole
  else if 0x2000000000 ≤ a ∧ a < 0x2000200000 then .ctx ((a - 0x2000000000) / 32)
  else if 0x3000000000 ≤ a ∧ a < 0x3004000000 then .regs (a - 0x3000000000)
  else if 0x4000000000 ≤ a ∧ a < 0x4004000000 then .hyper (a - 0x4000000000)
  else if 0x5000000000 ≤ a ∧ a < 0x5010000000 then .xspi (a - 0x5000000000)
  else if 0x8000000000 ≤ a ∧ a < 0xC000000000 then .remote ((a - 0x8000000000) / 0x1000000000) ((a - 0x8000000000) % 0x1000000000)
  else .hole

/-- A core of the state. -/
def State.core (s : State) (g : Nat) : Core := s.cores.getD g {}

/-- Change a core of the state. -/
def State.updCore (s : State) (g : Nat) (f : Core → Core) : State := { s with cores := updAt f g s.cores }

/-- A stall's class: stall 0 is best-effort (R303, R327). -/
def State.deadlineStall (s : State) (n : Nat) : Bool := n != 0 && s.bit (Reg.SCH_STALL_CTRL n) 30

/-- A stall's ENABLE: stall 0 is always enabled (R303). -/
def State.stallEnabled (s : State) (n : Nat) : Bool := n == 0 || s.bit (Reg.SCH_STALL_CTRL n) 31

/-- The cluster of a core is powered: neither IDLE nor off in STANDBY (R495, R500). -/
def State.clusterUp (s : State) (c : Nat) : Bool := s.fld (Reg.PWR_CLUSTER_C c) 25 24 < 2

/-- A core's window and registers answer (R26, R32). -/
def State.coreUp (s : State) (g : Nat) : Bool := !(s.core g).disabled && s.clusterUp (g / 8)

/-- The mapped LPDDR5X capacity in bytes: what the last training found, none until READY (R246). -/
def State.ddrBytes (s : State) : Nat := if s.bit Reg.MEM_DDR_CFG 30 then s.ddrCap * 2 ^ 30 else 0

/-- Training begins at the rate and capacity then written; until it succeeds no capacity is mapped (R246). -/
def State.trainDdr (s : State) : State :=
  { s.setBit Reg.MEM_DDR_CFG 30 false with ddr := 1, ddrCap := s.fld Reg.MEM_DDR_CFG 6 0 }

/-- The size of the NOR device in bytes. [DESIGN CHOICE, log entry 9] -/
def State.norBytes (s : State) : Nat := s.board.norMiB * 2 ^ 20

/-- The KIND of a transaction's tag (R22). Its other three fields are Tag's: one unit uses them for every transaction of a command, while KIND is the transaction's own. -/
inductive AccessOp where
  | read
  | write
  | atomicAdd
  | atomicSwap
  | fence
  deriving DecidableEq, Repr

/-- The kinds that R236 performs. -/
def AccessOp.isAtomic (op : AccessOp) : Bool := op = .atomicAdd || op = .atomicSwap

/-- A refusal: the unit that reports it and the kind (R415). -/
structure Deny where
  src : Nat
  kind : Nat
  deriving DecidableEq, Repr

/-- The fabric's own refusal (R26). -/
def denyFabric : Option Deny := some ⟨0x180, Kind.FABRIC_ERROR⟩

/-- The enabled firewall region that holds a MiB of LPDDR5X (R249). -/
def State.fwRegion (s : State) (mib : Nat) : Option Nat :=
  (List.range 64).find? fun n =>
    s.bit (Reg.SAF_FWR_CTRL n) 0 && s.fld (Reg.SAF_FWR_BASE n) 15 0 ≤ mib && mib ≤ s.fld (Reg.SAF_FWR_LIMIT n) 15 0

/-- The MiB of a firewall region (R249). -/
def State.fwSize (s : State) (n : Nat) : Nat := s.fld (Reg.SAF_FWR_LIMIT n) 15 0 + 1 - s.fld (Reg.SAF_FWR_BASE n) 15 0

/-- Whether an LPDDR5X access passes the firewall (R248, R250). [DESIGN CHOICE, log entry 99] -/
def State.ddrAllowed (s : State) (stall : Nat) (op : AccessOp) (a : Nat) : Bool :=
  let mib := a / 2 ^ 20
  match s.fwRegion mib with
  | none => stall == 0
  | some n =>
    let inl := s.bit (Reg.SAF_FWR_CTRL n) 1
    let data := !inl || mib < s.fld (Reg.SAF_FWR_BASE n) 15 0 + 7 * s.fwSize n / 8
    let right := if op = .read then s.bit (Reg.SAF_FWR_MASK n) stall else s.bit (Reg.SAF_FWR_MASK n) (16 + stall)
    data && right && (inl || !s.deadlineStall stall)

/-- The carve-out entry of a table of n entries at off that holds a 4 KiB unit (R244). -/
def State.carveAt (s : State) (off n unit : Nat) : Option Nat :=
  (List.range n).find? fun k =>
    s.bit (off + 4 * k) 31 && s.fld (off + 4 * k) 9 0 ≤ unit && unit ≤ s.fld (off + 4 * k) 21 12

/-- Whether a carve-out lets a stall at an offset (R244). -/
def State.carveAllowed (s : State) (stall off n o : Nat) : Bool :=
  stall == 0 || match s.carveAt off n (o / 4096) with
    | none => true
    | some k => s.fld (off + 4 * k) 27 24 == stall

/-- The owner stall of a context record (R190). -/
def State.ctxOwner (s : State) (n : Nat) : Nat := bits (s.byte (ctxAddr n + 1)).toNat 3 0
/-- The STATE of a context record (R191). -/
def State.ctxState (s : State) (n : Nat) : Nat := bits (s.byte (ctxAddr n)).toNat 2 0

/-- Whether a context record lets a stall (R189). -/
def State.ctxAllowed (s : State) (stall : Nat) (op : AccessOp) (n : Nat) : Bool :=
  (op = .write && stall == 0) || (op = .read && (stall == 0 || s.ctxState n == 0 || s.ctxOwner n == stall))

/-- The records that n bytes at offset o of record k's own 32 touch (R189). -/
def ctxTouched (k a n : Nat) : List Nat := (List.range ((a % 32 + max n 1 + 31) / 32)).map (k + ·)

/-- The firmware processors (R14). -/
def isFirmware (src : Nat) : Bool := 0x100 ≤ src && src ≤ 0x107

/-- Judge an access of one 64-byte line or less by the barriers, none where it passes (R26 to R28, R236, R415). [DESIGN CHOICE, log entries 32, 39] -/
def State.barrier (s : State) (t : Tag) (op : AccessOp) (a n : Nat) : Option Deny :=
  let st := t.stall.val
  let ini := t.initiator.toNat
  match regionOf a with
  | .ddr =>
    if s.ddrBytes ≤ a then denyFabric
    else if s.ddrAllowed st op a then none else some ⟨0x110 + a / 256 % 16, Kind.DDR_FIREWALL⟩
  | .bolt g o =>
    if !s.coreUp g then denyFabric
    else if s.carveAllowed st (Reg.BT_CARVE g 0) 8 o then none else some ⟨unitSrc g 7, Kind.CARVE_REFUSED⟩
  | .skein g o =>
    if !s.coreUp g then denyFabric
    else if o < 0x80000 then
      if st == 0 && op = .read then none else some ⟨unitSrc g 6, Kind.CARVE_REFUSED⟩
    else if s.carveAllowed st (Reg.SK_CARVE g 0) 4 o then none else some ⟨unitSrc g 6, Kind.CARVE_REFUSED⟩
  | .line g _ =>
    if !s.coreUp g then denyFabric
    else if st == 0 && !op.isAtomic then none else some ⟨unitSrc g 1, Kind.LINE_STORE_REFUSED⟩
  | .ctx k => if (ctxTouched k a n).all (s.ctxAllowed st op) then none else some ⟨0x161, Kind.CTX_REFUSED⟩
  | .regs _ => if a % 4 = 0 ∧ n = 4 ∧ !op.isAtomic then none else denyFabric
  | .hyper o =>
    if 0x700000 ≤ o ∨ op.isAtomic then denyFabric
    else if ini == 0x170 || ini == 0x172 || ini == 0x174 || (ini == 0x100 && o < 0x400000)
        || (ini == 0x101 && 0x680000 ≤ o && op = .write) then none
    else denyFabric
  | .xspi o =>
    if op = .read ∧ o < s.norBytes ∧ (isFirmware ini ∨ (st = 0 ∧ ini < 0x100 ∧ (ini % 8 = 4 ∨ ini % 8 = 5))) then none
    else denyFabric
  | .remote d o => if d = s.board.devnum ∨ op ≠ .write ∨ 0xFE0000000 ≤ o then denyFabric else none
  | .hole => denyFabric

/-- The reports of a refused access: the target's own record, and the fabric's (R26, R415). -/
def State.refuse (s : State) (d : Deny) (stall a : Nat) : State :=
  let s := if d.src == 0x180 then s else s.report d.src d.kind stall (if d.kind == Kind.CTX_REFUSED then a / 32 * 32 else a)
  s.report 0x180 (if d.src == 0x180 then d.kind else Kind.FABRIC_ERROR) stall a

end Sys2Proof.Machine
end

