-- ==== Sys2Proof/Machine/MemOps.lean ====
section
/-!
DEFINITION. Reads and writes of device memory by tagged transactions: the barriers, the ECC checks and injections of
R238 to R243, the link errors of R247. A transaction that fails ends with the status of its case.
-/
namespace Sys2Proof.Machine

/-- A computation over the state that may end with a status code; what it did before stays done. -/
abbrev Run (α : Type) := ExceptT Nat (StateM State) α

/-- Run a computation: its result or the status it ended with, and the state. -/
def runOn {α : Type} (m : Run α) (s : State) : Except Nat α × State := Id.run (StateT.run (ExceptT.run m) s)

/-- Change the state. -/
def change (f : State → State) : Run Unit := modify f

/-- Do f for each element of a list, in order. -/
def eachDo {α : Type} (f : α → Run Unit) : List α → Run Unit
  | [] => pure ()
  | a :: t => do f a; eachDo f t

/-- The parts of n bytes from an address that lie in one aligned 64-byte line each (R22). -/
def linesOf : Nat → Nat → Nat → List (Nat × Nat)
  | 0, _, _ => []
  | fuel + 1, a, n =>
    if n = 0 then []
    else
      let k := min n (64 - a % 64)
      (a, k) :: linesOf fuel (a + k) (n - k)

/-- The lines of n bytes from an address. -/
def lines (a n : Nat) : List (Nat × Nat) := linesOf (n / 64 + 2) a n

/-- The unit that reports errors of a memory word, and its correctable and uncorrectable kinds (R263); none where the word has no check bits (R238). [DESIGN CHOICE, log entry 99] -/
def State.eccUnit (s : State) (a : Nat) : Option (Nat × Nat × Nat) :=
  match regionOf a with
  | .ddr =>
    match s.fwRegion (a / 2 ^ 20) with
    | some n => if s.bit (Reg.SAF_FWR_CTRL n) 1 then some (0x110 + a / 256 % 16, Kind.DDR_CE, Kind.DDR_UE) else none
    | none => none
  | .bolt g _ => some (unitSrc g 7, Kind.BOLT_CE, Kind.BOLT_UE)
  | .skein g _ => some (unitSrc g 6, Kind.SKEIN_CE, Kind.SKEIN_UE)
  | .line g _ => some (unitSrc g 1, Kind.LINE_CE, Kind.LINE_UE)
  | .ctx _ => some (0x161, Kind.CTXS_CE, Kind.CTXS_UE)
  | .hyper _ => some (0x172, Kind.HRAM_CE, Kind.HRAM_UE)
  | _ => none

/-- Count a corrected or uncorrectable word in the counter of its memory (R264, R265); the context store has none. -/
def State.countEcc (s : State) (a : Nat) (ue : Bool) : State :=
  match regionOf a with
  | .ddr => s.inc (if ue then Reg.MEM_DDR_UE else Reg.MEM_DDR_CE) 1
  | .bolt g _ => s.inc (if ue then Reg.BT_ECC_UE g else Reg.BT_ECC_CE g) 1
  | .line g _ => s.inc (if ue then Reg.BT_ECC_UE g else Reg.BT_ECC_CE g) 1
  | .skein g _ => s.inc (if ue then Reg.SK_ECC_UE g else Reg.SK_ECC_CE g) 1
  | .hyper _ => s.inc (if ue then Reg.MEM_HR_UE else Reg.MEM_HR_CE) 1
  | _ => s

/-- Insert a word among those waiting to be written back (R239). -/
def State.addWriteback (s : State) (a : Nat) : State :=
  if s.writeback.contains a then s else { s with writeback := s.writeback ++ [a] }

/-- A correctable error met at a word: counted, reported with class C, written back later (R239). -/
def State.correctable (s : State) (a stall : Nat) : State :=
  match s.eccUnit a with
  | some (src, ce, _) => ((s.countEcc a false).report src ce stall a).addWriteback a
  | none => s

/-- An uncorrectable error met at a word: counted and reported by the memory (R240). -/
def State.uncorrectable (s : State) (a stall : Nat) : State :=
  match s.eccUnit a with
  | some (src, _, ue) => (s.countEcc a true).report src ue stall a
  | none => s

/-- The error marks of protected words that n bytes from an address touch, ascending. [DESIGN CHOICE, log entry 99] -/
def State.marks (s : State) (a n : Nat) : List (Nat × EccMark) :=
  s.ecc.filter fun m => a < m.1 + 8 && m.1 < a + n && (s.eccUnit m.1).isSome

/-- The injection armed for a read of this address: INJECTED record's unit, double, and the register to disarm (R243). -/
def State.injection (s : State) (a : Nat) : Option (Nat × Nat × Bool × Nat × Nat) :=
  let core (g target : Nat) (u : Nat × Nat × Nat) : Option (Nat × Nat × Bool × Nat × Nat) :=
    let r := Reg.BT_ECC_INJECT g
    if s.bit r 31 && s.fld r 25 24 == target then
      some (u.1, (if s.bit r 30 then u.2.2 else u.2.1), s.bit r 30, r, Reg.BT_ECC_INJECTS g)
    else none
  let die (target : Nat) (chan : Bool) (u : Nat × Nat × Nat) : Option (Nat × Nat × Bool × Nat × Nat) :=
    let r := Reg.MEM_ECC_INJECT
    if s.bit r 31 && s.fld r 25 24 == target && (!chan || s.fld r 19 16 == a / 256 % 16) then
      some (u.1, (if s.bit r 30 then u.2.2 else u.2.1), s.bit r 30, r, Reg.MEM_ECC_INJECTS)
    else none
  match regionOf a with
  | .skein g _ => core g 0 (unitSrc g 6, Kind.SKEIN_CE, Kind.SKEIN_UE)
  | .bolt g _ => core g 1 (unitSrc g 7, Kind.BOLT_CE, Kind.BOLT_UE)
  | .line g _ => core g 2 (unitSrc g 1, Kind.LINE_CE, Kind.LINE_UE)
  | .ddr =>
    let ch := 0x110 + a / 256 % 16
    match (if (s.eccUnit a).isSome then die 0 true (ch, Kind.DDR_CE, Kind.DDR_UE) else none) with
    | some x => some x
    | none => die 1 true (ch, Kind.DDR_LINK_CE, Kind.DDR_LINK_UE)
  | .ctx _ => die 2 false (0x161, Kind.CTXS_CE, Kind.CTXS_UE)
  | .hyper _ => die 3 false (0x172, Kind.HRAM_CE, Kind.HRAM_UE)
  | _ => none

/-- The mark of a word leaves: it has been corrected in place, or written. -/
def State.clearMark (s : State) (a : Nat) : State :=
  { s with ecc := s.ecc.filter (fun m => m.1 != a), writeback := s.writeback.filter (· != a) }

/-- Words that n bytes from an address touch get fresh check bits (R240, R241). -/
def State.freshWords (s : State) (a n : Nat) : State :=
  let touched := fun w => a < w + 8 && w < a + n
  { s with ecc := s.ecc.filter (fun m => !touched m.1), writeback := s.writeback.filter (fun w => !touched w) }

/-- Initialisation of a firewall region has zero and valid check bits written over all of it (R248). -/
def State.initDone (s : State) (n : Nat) : State :=
  let c := Reg.SAF_FWR_CTRL n
  if s.bit c 8 then (s.zeroMem (s.fld (Reg.SAF_FWR_BASE n) 15 0 * 2 ^ 20) (s.fwSize n * 2 ^ 20)).setBit c 8 false else s

/-- An access to an LPDDR5X region whose initialisation runs waits until it is done (R248): it comes after it. [DESIGN CHOICE, log entry 38] -/
def State.awaitInit (s : State) (a : Nat) : State :=
  match regionOf a with
  | .ddr => match s.fwRegion (a / 2 ^ 20) with
    | some n => s.initDone n
    | none => s
  | _ => s

/-- Set a context LOST: counted and reported (R221). -/
def State.setLost (s : State) (n : Nat) : State :=
  ((s.poke (ctxAddr n) (leBytes 1 ((s.byte (ctxAddr n)).toNat / 8 * 8 + 3))).inc Reg.CX_LOST 1).report 0x161 Kind.CTX_LOST (s.ctxOwner n) (ctxAddr n)

/-- An uncorrectable error has been met in a record (R221): the record is rewritten whole, the words that had one zero, STATE LOST. An injected error leaves the stored fields as they are (R243). [DESIGN CHOICE, log entry 110] -/
def State.loseRecord (s : State) (n : Nat) : State :=
  let a := ctxAddr n
  let bad := (s.marks a 32).filter fun m => m.2 == .double
  let s1 := (bad.foldl (fun s m => s.poke m.1 (List.replicate 8 0)) s).freshWords a 32
  let hurt := if bad.any fun m => m.1 < a + 16 then n :: s.ctxHurt.filter (· != n) else s.ctxHurt
  ({ s1 with ctxHurt := hurt }).setLost n

/-- What a command's uncorrectable error does to a record of the context store that it was met in (R221). -/
def State.afterDouble (s : State) (a : Nat) : State :=
  match regionOf a with
  | .ctx n => s.loseRecord n
  | _ => s

/-- The checked read of one line (R239, R240, R247): it ends with ECC_UNCORRECTED at an uncorrectable word. Only a command's read takes an armed injection (R243). -/
def lineRead (command : Bool) (t : Tag) (a n : Nat) : Run Unit := do
  let s ← get
  let st := t.stall.val
  match (if command then s.injection a else none) with
  | some (src, kind, dbl, reg, cnt) => do
    set (((s.setBit reg 31 false).inc cnt 1).report src kind st (a / 8 * 8 % 2 ^ 39 + 2 ^ 39))
    if dbl then do
      change fun s => s.afterDouble a
      throw St.ECC_UNCORRECTED
  | none => pure ()
  let s ← get
  match regionOf a with
  | .ddr =>
    let ch := a / 256 % 16
    match s.links.find? (fun l => l.1 == ch) with
    | some (_, failed) => do
      let s := { s with links := s.links.erase (ch, failed) }
      if failed then do
        set ((s.inc Reg.MEM_DDR_LINK_UE 1).report (0x110 + ch) Kind.DDR_LINK_UE st (a / 64 * 64))
        throw St.ECC_UNCORRECTED
      else set ((s.inc Reg.MEM_DDR_LINK_CE 1).report (0x110 + ch) Kind.DDR_LINK_CE st (a / 64 * 64))
    | none => pure ()
  | _ => pure ()
  let s ← get
  eachDo (fun m => match m.2 with
    | .single => change fun s => s.correctable m.1 st
    | .double => do change fun s => (s.uncorrectable m.1 st).afterDouble m.1; throw St.ECC_UNCORRECTED) (s.marks a n)

/-- The checked read of one line by a command. -/
def eccRead (t : Tag) (a n : Nat) : Run Unit := lineRead true t a n

/-- A refusal with status FIREWALL that no barrier reports (R16, R287, R415): the fabric records it. [DESIGN CHOICE, log entry 103] -/
def State.reportRefusal (s : State) (stall a : Nat) : State := s.report 0x180 Kind.FABRIC_ERROR stall a

/-- End a command with FIREWALL, recorded. [DESIGN CHOICE, log entry 103] -/
def refusedRun {α : Type} (stall a : Nat) : Run α := do
  change fun s => s.reportRefusal stall a
  throw St.FIREWALL

/-- Refuse a transaction: reports, and the command ends with FIREWALL (R26, R415). -/
def denied {α : Type} (d : Deny) (t : Tag) (a : Nat) : Run α := do
  change fun s => s.refuse d t.stall.val a
  throw St.FIREWALL

/-- The byte that a read of a device address returns: what window staging, a slice and the feeder leave in their own areas is not stated (R134, R229). [DESIGN CHOICE, log entry 19] -/
def State.viewByte (s : State) (a : Nat) : Byte :=
  match regionOf a with
  | .skein g o =>
    let c := s.core g
    if 0x60000 ≤ o && o < 0x80000 && c.staged != 0 then Config.left 0 g o c.staged
    else if o < 0x60000 && c.chunkLost != 0 && !(c.chunkNew.any fun r => r.1 ≤ o && o < r.1 + r.2) then Config.left 0 g o c.chunkLost
    else s.byte a
  | .line g o => if (s.core g).lined != 0 && !((s.core g).lineNew.any fun r => r.1 ≤ o && o < r.1 + r.2) then Config.left 1 g o (s.core g).lined else s.byte a
  | _ => s.byte a

/-- n bytes as a read returns them. -/
def State.view (s : State) (a n : Nat) : List Byte := (List.range n).map fun i => s.viewByte (a + i)

/-- A window has been staged in a core's skein (R215, R229). [DESIGN CHOICE, log entry 19] -/
def State.stage (s : State) (g : Nat) : State := s.updCore g fun c => { c with staged := c.staged + 1 }

/-- A slice or a probe has left bytes in a core's chunk area that are not stated (R229). [DESIGN CHOICE, log entry 98] -/
def State.loseChunks (s : State) (g : Nat) : State := s.updCore g fun c => { c with chunkLost := c.chunkLost + 1, chunkNew := [] }

/-- The porters put bytes of a pass at a place in its core's chunk area, with fresh check bits (R229, R238). [DESIGN CHOICE, log entry 109] -/
def State.stageBytes (s : State) (g a : Nat) (b : List Byte) : State :=
  let o := a - skeinAddr g 0
  ((s.poke a b).freshWords a b.length).updCore g fun c =>
    { c with stagedBytes := c.stagedBytes + b.length, chunkNew := if c.chunkLost = 0 || c.chunkNew.contains (o, b.length) then c.chunkNew else (o, b.length) :: c.chunkNew }

/-- The first n bytes of a core's line store have been filled: whole words with fresh check bits (R134, R240). -/
def State.fillLine (s : State) (g n : Nat) : State :=
  (s.updCore g fun c => { c with lined := c.lined + 1, lineNew := [] }).freshWords (lineAddr g 0) (min n 196608)

/-- A write into a line store has put known bytes there. -/
def State.noteLine (s : State) (a n : Nat) : State :=
  match regionOf a with
  | .line g o => s.updCore g fun c => { c with lineNew := c.lineNew ++ [(o, n)] }
  | _ => s

/-- Bytes that a porter has written count in MEM_PORT_BYTES (R264). [DESIGN CHOICE, log entry 33] -/
def State.countPorter (s : State) (t : Tag) (n : Nat) : State :=
  let i := t.initiator.toNat
  if i < 0x100 ∧ (i % 8 = 4 ∨ i % 8 = 5) then s.inc64 (Reg.MEM_PORT_BYTES (i / 8) (i % 8 - 4)) n else s

/-- Put bytes where a write goes; a write into a line store waits while the feeder runs a command (R142). [DESIGN CHOICE, log entry 37] -/
def State.pokeLine (s : State) (a : Nat) (b : List Byte) : State :=
  match regionOf a with
  | .line g _ =>
    if s.bit (Reg.WF_STATUS g) 31 then s.updCore g fun c => { c with lineHeld := c.lineHeld ++ [(a, b)] } else (s.poke a b).noteLine a b.length
  | _ => s.poke a b

/-- Read bytes with a tag, line by line: barriers, then the checked read. -/
def readLines (command : Bool) (t : Tag) (a n : Nat) : Run (List Byte) := do
  eachDo (fun l => do
    let s ← get
    match s.barrier t .read l.1 l.2 with
    | some d => denied d t l.1
    | none => do
      change (·.awaitInit l.1)
      lineRead command t l.1 l.2) (lines a n)
  let s ← get
  pure (s.view a n)

/-- A command's read. -/
def readMem (t : Tag) (a n : Nat) : Run (List Byte) := readLines true t a n

/-- A read by a unit that runs no command: no injection meets it (R243). -/
def readUnit (t : Tag) (a n : Nat) : Run (List Byte) := readLines false t a n

/-- Put bytes of one line, with fresh check bits in their words; a porter counts them. -/
def State.putLine (s : State) (t : Tag) (a : Nat) (b : List Byte) : State :=
  ((s.pokeLine a b).countPorter t b.length).freshWords a b.length

/-- Write bytes of one line after its barrier passed: a partly covered word is read and merged first (R241); whole words get fresh check bits, and a porter counts its bytes. -/
def writeLine (t : Tag) (a : Nat) (b : List Byte) : Run Unit := do
  let s ← get
  let st := t.stall.val
  let n := b.length
  let part := (s.marks a n).filter fun m => m.1 < a || a + n < m.1 + 8
  match part.find? (fun m => m.2 == .double) with
  | some m => do change fun s => (s.uncorrectable m.1 st).afterDouble m.1; throw St.ECC_UNCORRECTED
  | none => do
    eachDo (fun m => change fun s => s.correctable m.1 st) part
    change fun s => s.putLine t a b

/-- Write bytes with a tag, line by line. -/
def writeMem (t : Tag) (a : Nat) (b : List Byte) : Run Unit :=
  eachDo (fun l => do
    let s ← get
    match s.barrier t .write l.1 l.2 with
    | some d => denied d t l.1
    | none => do
      change (·.awaitInit l.1)
      writeLine t l.1 ((b.drop (l.1 - a)).take l.2)) (lines a b.length)

/-- An atomic on one aligned element (R236): the bank reads it, with its check, and writes what f makes of it; it answers the value from before. -/
def atomic (op : AccessOp) (f : Nat → Nat) (t : Tag) (a n : Nat) : Run Nat := do
  let s ← get
  match s.barrier t op a n with
  | some d => denied d t a
  | none => do
    change (·.awaitInit a)
    eccRead t a n
    let s ← get
    let old := leNat (s.peek a n)
    change fun s => s.putLine t a (leBytes n (f old))
    pure old

/-- ADD16 and ADD32 (R236): the sum wraps at the element width. -/
def atomicAdd (t : Tag) (a n : Nat) (v : Int) : Run Nat :=
  atomic .atomicAdd (fun x => unsigned (8 * n) (signed (8 * n) x + v)) t a n

/-- SWAP32 and SWAP64 (R236); no command of the table asks for one. -/
def atomicSwap (t : Tag) (a n v : Nat) : Run Nat := atomic .atomicSwap (fun _ => v) t a n

/-- The tag of a unit of a core acting for a stall (R23). -/
def State.tagOf (s : State) (stall src : Nat) : Tag :=
  ⟨Fin.ofNat 16 stall, BitVec.ofNat 12 src, Fin.ofNat 4 s.board.devnum⟩

end Sys2Proof.Machine
end

