-- ==== Sys2Proof/Machine/Jobs.lean ====
section
/-!
DEFINITION. Jobs and their commands as the other families see them: finding and changing them, the fields of the common
header (R277), and running a command's effect once its start checks have passed.
-/
namespace Sys2Proof.Machine

/-- A job by its number. [DESIGN CHOICE, log entry 95] -/
def State.job? (s : State) (id : Nat) : Option Job := s.cmd.jobs.find? (fun j => j.id == id)

/-- Change a job. -/
def State.updJob (s : State) (id : Nat) (f : Job → Job) : State :=
  { s with cmd := { s.cmd with jobs := s.cmd.jobs.map (fun j => if j.id == id then f j else j) } }

/-- Change a command of a job. -/
def State.updCmd (s : State) (id i : Nat) (f : Cmd → Cmd) : State :=
  s.updJob id fun j => { j with cmds := updAt f i j.cmds }

/-- A command of a job. -/
def Job.cmd? (j : Job) (i : Nat) : Option Cmd := j.cmds[i]?

/-- Every command of the job has ended, or its status was decided before any command was known. -/
def Job.ended (j : Job) : Bool := (j.early.isSome || !j.cmds.isEmpty) && j.cmds.all (·.stage = .done)

/-- OPCODE of a descriptor (R277). -/
def opcodeOf (d : List Byte) : Nat := le d 0 1
/-- VERSION of a descriptor. -/
def versionOf (d : List Byte) : Nat := bits (le d 1 1) 3 0
/-- FLAG_REFUSE of a descriptor. -/
def flagRefuseOf (d : List Byte) : Nat := le d 2 2
/-- STALL of a descriptor. -/
def stallOf (d : List Byte) : Nat := bits (le d 4 1) 3 0
/-- The dependencies of a descriptor (R277). -/
def depsOf (d : List Byte) : List Nat :=
  match bits (le d 5 1) 1 0 with
  | 0 => []
  | 1 => [le d 8 2]
  | _ => [le d 8 2, le d 10 2]

/-- Bytes i to j (inclusive) of a descriptor are zero (reserved bytes, R12). -/
def zeroBytes (d : List Byte) (i j : Nat) : Bool := allZero (slice d i (j + 1 - i))

/-- Make a command's status final, for COMMAND_END to take up. -/
def State.finishCmd (s : State) (id i status : Nat) : State :=
  s.updCmd id i fun c => { c with stage := .ending, status := status }

/-- The status of a command that ran to its end (R105, R286): a re-run ranks above a correction. -/
def successStatus (own : Nat) : Nat :=
  if bitOf own 4 then St.OK_RETRIED else if bitOf own 5 then St.OK_CORRECTED else St.OK

/-- Add flags that a command itself causes (R420). -/
def State.addOwn (s : State) (id i flags : Nat) : State :=
  s.updCmd id i fun c => { c with own := c.own ||| flags }

/-- The flags a command has added so far. -/
def State.ownOf (s : State) (id i : Nat) : Nat :=
  match s.job? id with
  | some j => match j.cmd? i with
    | some c => c.own
    | none => 0
  | none => 0

/-- A command of the job may go on: the job is placed, and not pre-empted unless the command holds no core unit (R319). -/
def Job.runs (j : Job) (opcode : Nat) : Bool := j.phase = .placed && (!j.preempted || 0x10 ≤ opcode)

/-- Run the whole effect of a started command: it ends with success or with the status its effect ended with. [DESIGN CHOICE, log entry 95] -/
def runWhole (s : State) (id i opcode : Nat) (body : Job → Cmd → Run Unit) : State :=
  match s.job? id with
  | none => s
  | some j =>
    match j.cmd? i with
    | none => s
    | some c =>
      if c.stage = .started ∧ opcodeOf c.desc = opcode ∧ j.runs opcode then
        match runOn (body j c) s with
        | (.ok _, s') => s'.finishCmd id i (successStatus (s'.ownOf id i))
        | (.error st, s') => s'.finishCmd id i st
      else s

/-- Run one part of a command's effect that may go on in later steps: the part itself says when the command ends, by finishing it. [DESIGN CHOICE, log entry 95] -/
def runPart (s : State) (id i opcode : Nat) (st : Stage) (body : Job → Cmd → Run Unit) : State :=
  match s.job? id with
  | none => s
  | some j =>
    match j.cmd? i with
    | none => s
    | some c =>
      if c.stage = st ∧ opcodeOf c.desc = opcode ∧ j.runs opcode then
        match runOn (body j c) s with
        | (.ok _, s') => s'
        | (.error e, s') => s'.finishCmd id i e
      else s

/-- WEIGHT of a stall (R302, R303). -/
def State.weight (s : State) (n : Nat) : Nat := if n = 0 then 1000 else max 1 (s.fld (Reg.SCH_STALL_CTRL n) 9 0)

/-- Charge bit-steps to a stall (R317); a best-effort stall's virtual time advances by the charge over its weight (R316). -/
def State.charge (s : State) (stall n : Nat) : State :=
  let s := s.inc64 (Reg.SCH_STALL_STEPS stall) n
  if s.deadlineStall stall then s
  else { s with sch := { s.sch with virt := updAt (fun v => v + (n : Rat) / (s.weight stall : Rat)) stall s.sch.virt } }

/-- The tag of unit u of the job's core for the job's stall (R23). [DESIGN CHOICE, log entry 91] -/
def Job.tag (j : Job) (s : State) (u : Nat) : Tag := s.tagOf j.stall (unitSrc j.core u)

/-- The tag of the porter that a command runs on. [DESIGN CHOICE, log entry 91] -/
def Job.portTag (j : Job) (s : State) (c : Cmd) : Tag := j.tag s (4 + b2n c.second)

end Sys2Proof.Machine
end

