-- ==== Sys2Proof/Machine/Selvage.lean ====
section
/-!
DEFINITION. Selvages (R419 to R425): their layout, the provisional and the valid selvage, the propagation of age and
flags, the checks at consumption.
-/
namespace Sys2Proof.Machine

/-- A buffer with a selvage: its base, its extent in bytes, and the unit of the core that reads or writes it. -/
structure Buf where
  base : Nat
  extent : Nat
  unit : Nat
  /-- The bytes of the extent that the command's layout addresses: rows (offset, bytes); the rest is set to zero first (R421). -/
  rows : List (Nat × Nat) := []
  deriving DecidableEq, Repr

/-- Where a buffer's selvage lies (R419). -/
def selvageAt (base extent : Nat) : Nat := base + roundUp extent 64

/-- Bytes 0 to 27 of a selvage (R419). -/
def selvageHead (p : Prov) (stall extent payloadCrc : Nat) : List Byte :=
  let t := p.hasTime
  leBytes 8 ((if t then p.capture % 2 ^ 63 + b2n p.synced * 2 ^ 63 else 0))
  ++ leBytes 4 (if t then p.frame else 0)
  ++ leBytes 1 ((if t then p.stream % 128 else 0) + b2n t * 128)
  ++ leBytes 1 (stall % 16 + 16)
  ++ leBytes 2 p.flags
  ++ leBytes 2 (if t then p.stepGen else 0)
  ++ leBytes 2 0
  ++ leBytes 4 extent
  ++ leBytes 4 payloadCrc

/-- The valid selvage. -/
def selvageBytes (p : Prov) (stall extent payloadCrc : Nat) : List Byte :=
  let h := selvageHead p stall extent payloadCrc
  h ++ leBytes 4 (crc32c h).toNat

/-- A selvage whose SELVAGE_CRC is inverted: bytes 0 to 27 and their complemented CRC (R421). -/
def selvageOpen (p : Prov) (stall extent payloadCrc : Nat) : List Byte :=
  let h := selvageHead p stall extent payloadCrc
  h ++ leBytes 4 (~~~ (crc32c h)).toNat

/-- The propagated fields that a stored selvage carries. -/
def provOf (b : List Byte) : Prov :=
  let w0 := le b 0 8
  let w12 := le b 12 1
  { hasTime := bitOf w12 7, capture := w0 % 2 ^ 63, synced := bitOf w0 63, frame := le b 8 4, stream := w12 % 128,
    stepGen := le b 16 2, flags := le b 14 2 }

/-- SELVAGE_CRC of a stored selvage is right. -/
def selvageCrcOk (b : List Byte) : Bool := le b 28 4 == (crc32c (slice b 0 28)).toNat

/-- One input into the output's propagated fields (R422): flags join; the oldest timed input gives the time; SYNCED only if every timed input is. -/
def provJoin (out x : Prov) : Prov :=
  let fl := out.flags ||| x.flags
  if x.hasTime then
    if out.hasTime then
      let syn := out.synced && x.synced
      if x.capture < out.capture then { x with flags := fl, synced := syn } else { out with flags := fl, synced := syn }
    else { x with flags := fl }
  else { out with flags := fl }

/-- The propagated fields of a command's outputs from its inputs in descriptor order and its own flags (R422). -/
def provOfInputs (inputs : List Prov) (own : Nat) : Prov :=
  let p := inputs.foldl provJoin {}
  { p with flags := p.flags ||| own }

/-- Check one selvage-carrying input at consumption (R424): it ends with CRC_MISMATCH or INPUT_FLAGGED, reported by the consuming unit. -/
def checkSelvage (command : Bool) (t : Tag) (b : Buf) (idx flagRefuse : Nat) : Run Prov := do
  let a := selvageAt b.base b.extent
  let v ← readLines command t a 32
  let src := t.initiator.toNat
  if !selvageCrcOk v || bits (le v 13 1) 7 4 != 1 || le v 20 4 != b.extent then do
    change fun s => s.report src Kind.SELVAGE_CRC t.stall.val a
    throw St.CRC_MISMATCH
  let bad := le v 14 2 &&& flagRefuse
  if bad != 0 then do
    change fun s => s.report src Kind.INPUT_FLAGGED t.stall.val (bad + idx % 256 * 2 ^ 16)
    throw St.INPUT_FLAGGED
  pure (provOf v)

/-- Check an input of a command. -/
def checkInput (t : Tag) (b : Buf) (idx flagRefuse : Nat) : Run Prov := checkSelvage true t b idx flagRefuse

/-- Check inputs in descriptor order; each input is read by its own unit of the core. -/
def checkInputs (tagFor : Nat → Tag) (flagRefuse : Nat) : Nat → List Buf → Run (List Prov)
  | _, [] => pure []
  | k, b :: t => do
    let p ← checkInput (tagFor b.unit) b k flagRefuse
    let r ← checkInputs tagFor flagRefuse (k + 1) t
    pure (p :: r)

/-- The provisional selvage of an output, written before its first payload byte (R421). -/
def openOutput (t : Tag) (b : Buf) : Run Unit :=
  writeMem t (selvageAt b.base b.extent) (selvageOpen {} t.stall.val b.extent 0)

/-- Set the bytes of a shaped extent that the layout does not address to zero (R421): every byte outside the rows. -/
def zeroGaps (t : Tag) (b : Buf) : Run Unit :=
  if b.rows.isEmpty then pure ()
  else do
    let s ← get
    let old := s.peek b.base b.extent
    let inRow := fun i => b.rows.any fun r => r.1 ≤ i && i < r.1 + r.2
    let new := (List.range b.extent).map fun i => if inRow i then old.getD i 0 else 0
    writeMem t b.base new

/-- The valid selvage of an output, written last (R421): PAYLOAD_CRC covers the extent as it stands. -/
def closeOutput (t : Tag) (b : Buf) (p : Prov) : Run Unit := do
  let s ← get
  let crc := (crc32c (s.peek b.base b.extent)).toNat
  writeMem t (selvageAt b.base b.extent) (selvageBytes p t.stall.val b.extent crc)

end Sys2Proof.Machine
end

