-- ==== Sys2Proof/Machine/Context.lean ====
section
/-!
DEFINITION. The context store (R189 to R207, R219 to R227): records, regions, tags, holds, and the commands CTX_CREATE,
CTX_RESET and KV_SCATTER.
-/
namespace Sys2Proof.Machine

/-! ### Records -/

/-- Element bytes of a latent format; none for a code that is not one (R192). -/
def latentBytes (fmt : Nat) : Option Nat :=
  match fmt with
  | 0 => some 1
  | 5 => some 2
  | 6 => some 2
  | 8 => some 1
  | _ => none

/-- SLOT (R192). -/
def slotBytes (w e : Nat) : Nat := roundUp (w * e) 64
/-- The tag array's bytes (R192). -/
def tagArrayBytes (maxLen : Nat) : Nat := roundUp (maxLen * 8) 64
/-- The region's bytes (R192). -/
def regionBytes (w e maxLen : Nat) : Nat := maxLen * slotBytes w e + tagArrayBytes maxLen

/-- A context record, decoded (R190). -/
structure CtxRec where
  state : Nat
  wrap : Bool
  fmt : Nat
  owner : Nat
  latentW : Nat
  maxLen : Nat
  base : Nat
  gen : Nat
  nextPos : Nat
  curLen : Nat
  scale : Nat
  deriving DecidableEq, Repr

/-- Decode a record's 32 bytes (R190). -/
def CtxRec.ofBytes (b : List Byte) : CtxRec :=
  { state := bits (le b 0 1) 2 0, wrap := bitOf (le b 0 1) 3, fmt := bits (le b 0 1) 7 4, owner := bits (le b 1 1) 3 0,
    latentW := le b 2 2, maxLen := le b 4 4, base := le b 8 5, gen := le b 14 2, nextPos := le b 16 4,
    curLen := le b 20 4, scale := le b 24 4 }

/-- A record's 32 bytes (R190). -/
def CtxRec.toBytes (r : CtxRec) : List Byte :=
  leBytes 1 (r.state + b2n r.wrap * 8 + r.fmt * 16) ++ leBytes 1 r.owner ++ leBytes 2 r.latentW ++ leBytes 4 r.maxLen
  ++ leBytes 5 r.base ++ leBytes 1 0 ++ leBytes 2 r.gen ++ leBytes 4 r.nextPos ++ leBytes 4 r.curLen ++ leBytes 4 r.scale
  ++ leBytes 4 0

/-- The record of a context. -/
def State.ctx (s : State) (n : Nat) : CtxRec := CtxRec.ofBytes (s.peek (ctxAddr n) 32)

/-- Write a record whole, with fresh check bits (R240). -/
def State.setCtx (s : State) (n : Nat) (r : CtxRec) : State := (s.poke (ctxAddr n) r.toBytes).freshWords (ctxAddr n) 32

/-- Element bytes of a record's format. -/
def CtxRec.e (r : CtxRec) : Nat := (latentBytes r.fmt).getD 1
/-- SLOT of a record. -/
def CtxRec.slot (r : CtxRec) : Nat := slotBytes r.latentW r.e
/-- Address of slot k (R192). -/
def CtxRec.slotAddr (r : CtxRec) (k : Nat) : Nat := r.base + k * r.slot
/-- Address of tag k (R192). -/
def CtxRec.tagAddr (r : CtxRec) (k : Nat) : Nat := r.base + r.maxLen * r.slot + 8 * k
/-- Lowest position of the window (R194). -/
def CtxRec.lo (r : CtxRec) : Nat := if r.wrap then r.nextPos - r.maxLen else 0
/-- The record with NEXT_POS set and CUR_LEN by R194. -/
def CtxRec.advance (r : CtxRec) (next : Nat) : CtxRec :=
  let r := { r with nextPos := next }
  { r with curLen := next - r.lo }

/-- CX_ACTIVE: contexts that are not FREE (R225). -/
def State.ctxActive (s : State) : Nat := ((List.range 65536).filter (fun n => s.ctxState n != 0)).length

/-- The core in whose bolt a region lies, if it does (R192). -/
def boltOfRegion (base : Nat) : Option Nat :=
  match regionOf base with
  | .bolt g _ => some g
  | _ => none

/-- Set LOST every context whose region lies in the bolt of core g (R221). -/
def State.loseBolt (s : State) (g : Nat) : State :=
  (List.range 65536).foldl (fun s n =>
    let r := s.ctx n
    if r.state != 0 && r.state != 3 && boltOfRegion r.base == some g then s.setLost n else s) s

/-- Read a record for a command: an uncorrectable error sets the context LOST and ends the command (R221). -/
def readRecord (t : Tag) (n : Nat) : Run CtxRec := do
  eccRead t (ctxAddr n) 32
  let s ← get
  pure (s.ctx n)

/-! ### Holds (R206) -/

/-- Whether a command may take its contexts all at once: no other command's hold conflicts. -/
def State.canHold (s : State) (id i : Nat) (excl : Bool) (ctxs : List Nat) : Bool :=
  s.holds.all fun h => !(ctxs.contains h.ctx) || (h.job == id && h.cmd == i) || (!excl && !h.excl)

/-- Take the contexts. -/
def State.hold (s : State) (id i : Nat) (excl : Bool) (ctxs : List Nat) : State :=
  { s with holds := s.holds ++ ctxs.map fun c => { ctx := c, job := id, cmd := i, excl := excl } }

/-- Give up every context of a command. -/
def State.unhold (s : State) (id i : Nat) : State :=
  { s with holds := s.holds.filter fun h => !(h.job == id && h.cmd == i) }

/-! ### CTX_CREATE and CTX_RESET (R195 to R200) -/

/-- First context and count of a descriptor: CTX_CREATE and CTX_RESET keep them at the same places. -/
def ctxFirst (d : List Byte) : Nat := le d 24 2
def ctxCount (d : List Byte) : Nat := le d 28 4

/-- The contexts of CTX_CREATE or CTX_RESET. -/
def ctxSet (d : List Byte) : List Nat := (List.range (ctxCount d)).map (· + ctxFirst d)

/-- The region base that CTX_CREATE gives context n (R195). -/
def ctxCreateBase (d : List Byte) (n : Nat) : Nat :=
  let i := n - ctxFirst d
  le d 32 5 + i / le d 44 4 * le d 48 5 + i % le d 44 4 * le d 40 4

/-- A region may lie there: installed LPDDR5X or one bolt (R192). -/
def State.regionPlace (s : State) (base n : Nat) : Bool :=
  match regionOf base with
  | .ddr => base + n ≤ s.ddrBytes
  | .bolt _ o => o + n ≤ 0x400000
  | _ => false

/-- The tag arrays' term of the budgets (R200). -/
def tagTerm (t : Nat) : Nat := t / 64 + 1

/-- Budget of CTX_CREATE in bit-steps (R200). -/
def ctxCreateBudget (d : List Byte) : Nat :=
  64 + ceilDiv (ctxCount d) 8 + ctxCount d * tagTerm (tagArrayBytes (le d 20 4))

/-- Budget of CTX_RESET, judged on the records as they stand (R200). -/
def State.ctxResetBudget (s : State) (d : List Byte) : Nat :=
  64 + ceilDiv (ctxCount d) 8 + (ctxSet d).foldl (fun a n =>
    let r := s.ctx n
    a + tagTerm (if bits (le d 16 1) 1 0 == 0 && r.gen == le d 18 2 && r.state != 0 then tagArrayBytes r.maxLen else 0)) 0

/-- Descriptor checks of CTX_CREATE made at placement (R199, orders 2 to 4): 0 where it passes. -/
def State.checkCtxCreate (s : State) (d : List Byte) : Nat :=
  let fmt := bits (le d 16 1) 3 0
  let w := le d 18 2
  let len := le d 20 4
  let first := ctxFirst d
  let cnt := ctxCount d
  let stride := le d 40 4
  let gl := le d 44 4
  let gs := le d 48 8
  let scale := le d 56 4
  if cnt = 0 ∨ w = 0 ∨ len = 0 ∨ stride = 0 ∨ gl = 0 ∨ gs = 0 then St.ZERO_FIELD
  else match latentBytes fmt with
    | none => St.BAD_FORMAT
    | some e =>
      if bits (le d 16 1) 7 5 ≠ 0 ∨ !zeroBytes d 17 17 ∨ !zeroBytes d 26 27 ∨ !zeroBytes d 37 39 ∨ !zeroBytes d 53 55 ∨ !zeroBytes d 60 63
        ∨ (if fmt = 0 then bits scale 15 0 = 0 else scale ≠ 0)
        ∨ le d 32 5 % 64 ≠ 0 ∨ stride % 64 ≠ 0 ∨ gs % 64 ≠ 0 then St.BAD_FORMAT
      else if w < 16 ∨ 1024 < w ∨ 65536 < len ∨ 65536 < cnt ∨ 65536 < first + cnt ∨ 65536 < gl
        ∨ stride < regionBytes w e len ∨ (gl < cnt ∧ gs < gl * stride)
        ∨ (ctxSet d).any (fun n => !s.regionPlace (ctxCreateBase d n) (regionBytes w e len))
        ∨ 237500 < ctxCreateBudget d then St.OUT_OF_LIMIT
      else 0

/-- Descriptor checks of CTX_RESET made at placement (R199, orders 2 to 4): 0 where it passes. -/
def checkCtxReset (d : List Byte) : Nat :=
  let cnt := ctxCount d
  if cnt = 0 then St.ZERO_FIELD
  else if 1 < bits (le d 16 1) 1 0 ∨ bits (le d 16 1) 7 2 ≠ 0 ∨ !zeroBytes d 17 17 ∨ !zeroBytes d 20 23 ∨ !zeroBytes d 26 27 ∨ !zeroBytes d 32 63 then
    St.BAD_FORMAT
  else if 65536 < cnt ∨ 65536 < ctxFirst d + cnt then St.OUT_OF_LIMIT
  else 0

/-- A FIREWALL result of a context check: reported with the record's address (R205). -/
def ctxRefused {α : Type} (stall n : Nat) : Run α := do
  change fun s => s.report 0x161 Kind.CTX_REFUSED stall (ctxAddr n)
  throw St.FIREWALL

/-- Apply one check to every context named, in order, before the next check (R199, R205). -/
def ctxEach (t : Tag) (f : Nat → CtxRec → State → Option Nat) (ctxs : List Nat) : Run Unit :=
  eachDo (fun n => do
    let r ← readRecord t n
    let s ← get
    match f n r s with
    | none => pure ()
    | some st => if st = St.FIREWALL then ctxRefused t.stall.val n else throw st) ctxs

/-- Whether the record of a context holds exactly the descriptor's parameters (R195). -/
def ctxSame (d : List Byte) (n : Nat) (r : CtxRec) : Bool :=
  r.fmt == bits (le d 16 1) 3 0 && r.wrap == bitOf (le d 16 1) 4 && r.latentW == le d 18 2 && r.maxLen == le d 20 4
  && r.base == ctxCreateBase d n && r.scale == le d 56 4

/-- Start checks of CTX_CREATE (R199, orders 5 to 7). -/
def startCtxCreate (t : Tag) (d : List Byte) : Run Unit := do
  let st := t.stall.val
  ctxEach t (fun n r s =>
    let first := s.fld (Reg.CX_RANGE_S st) 15 0
    let last := s.fld (Reg.CX_RANGE_S st) 31 16
    if n < first || last < n || (r.state != 0 && r.owner != st) then some St.FIREWALL else none) (ctxSet d)
  ctxEach t (fun n r _ =>
    if (r.state == 1 || r.state == 2) && !ctxSame d n r then some St.BAD_FORMAT else none) (ctxSet d)
  ctxEach t (fun n r s =>
    let lost := r.state == 3
    let gone := match boltOfRegion (ctxCreateBase d n) with
      | some g => (s.core g).disabled
      | none => false
    if lost || gone then some St.PLAN_WIDTH else none) (ctxSet d)

/-- Start checks of CTX_RESET (R199, orders 4 to 7). MODE 0 also refuses a context that has lost word 0 or word 1 (R221), with the same status. [DESIGN CHOICE, log entry 110] -/
def startCtxReset (t : Tag) (d : List Byte) : Run Unit := do
  let st := t.stall.val
  let gf := le d 18 2
  let g1 := (gf + 1) % 65536
  let s ← get
  if 237500 < s.ctxResetBudget d then throw St.OUT_OF_LIMIT
  ctxEach t (fun _ r _ =>
    if r.state != 0 && r.owner != st || (r.state == 0 && r.gen != g1) then some St.FIREWALL else none) (ctxSet d)
  ctxEach t (fun _ r _ => if r.gen != gf && r.gen != g1 then some St.BAD_FORMAT else none) (ctxSet d)
  if bits (le d 16 1) 1 0 = 0 then
    ctxEach t (fun n r s =>
      let gone := match boltOfRegion r.base with
        | some g => (s.core g).disabled
        | none => false
      if r.state == 3 && (gone || s.ctxHurt.contains n) then some St.PLAN_WIDTH else none) (ctxSet d)

/-- Zero the tag array of a region (R195, R197). -/
def clearTags (t : Tag) (base w e len : Nat) : Run Unit :=
  writeMem t (base + len * slotBytes w e) (List.replicate (tagArrayBytes len) 0)

/-- The effect of CTX_CREATE: every tag array, then every record (R195, R200). -/
def effectCtxCreate (t : Tag) (d : List Byte) : Run Unit := do
  let fmt := bits (le d 16 1) 3 0
  let w := le d 18 2
  let len := le d 20 4
  let e := (latentBytes fmt).getD 1
  let s ← get
  let fresh := (ctxSet d).filter fun n => s.ctxState n == 0
  eachDo (fun n => clearTags t (ctxCreateBase d n) w e len) fresh
  change fun s => fresh.foldl (fun s n =>
    s.setCtx n { state := 1, wrap := bitOf (le d 16 1) 4, fmt := fmt, owner := t.stall.val, latentW := w, maxLen := len, base := ctxCreateBase d n, gen := (s.ctx n).gen, nextPos := 0, curLen := 0, scale := le d 56 4 }) s

/-- The effect of CTX_RESET (R197). -/
def effectCtxReset (t : Tag) (d : List Byte) : Run Unit := do
  let gf := le d 18 2
  let free := bits (le d 16 1) 1 0 = 1
  let s ← get
  let due := (ctxSet d).filter fun n => s.ctxState n != 0 && (s.ctx n).gen == gf
  if ¬ free then
    eachDo (fun n => do
      let s ← get
      let r := s.ctx n
      clearTags t r.base r.latentW r.e r.maxLen) due
  change fun s => due.foldl (fun s n =>
    let r := s.ctx n
    let g1 := (gf + 1) % 65536
    if free then
      let s : State := { s with ctxHurt := s.ctxHurt.filter (· != n) }
      s.setCtx n { state := 0, wrap := false, fmt := 0, owner := 0, latentW := 0, maxLen := 0, base := 0, gen := g1, nextPos := 0, curLen := 0, scale := 0 }
    else s.setCtx n { r with state := 1, gen := g1, nextPos := 0, curLen := 0 }) s

/-- CTX_CREATE (R195): the whole effect once its start checks passed. -/
def execCtxCreate (job idx : Nat) (s : State) : Host.Outcome State Fault Refusal :=
  .next (runWhole s job idx 0x08 fun j c => effectCtxCreate (j.portTag s c) c.desc)

/-- CTX_RESET (R197): the whole effect once its start checks passed. -/
def execCtxReset (job idx : Nat) (s : State) : Host.Outcome State Fault Refusal :=
  .next (runWhole s job idx 0x09 fun j c => effectCtxReset (j.portTag s c) c.desc)

/-! ### KV_SCATTER (R201 to R205) -/

/-- A token of KV_SCATTER: its number, context and position. -/
structure Token where
  k : Nat
  ctx : Nat
  pos : Nat
  deriving DecidableEq, Repr

/-- LIST mode of KV_SCATTER. -/
def kvList (d : List Byte) : Bool := bitOf (le d 16 1) 4

/-- The tokens of KV_SCATTER, given the bytes of its list (R201). -/
def tokensOf (d raw : List Byte) : List Token :=
  (List.range (le d 20 4)).map fun k =>
    if kvList d then { k := k, ctx := le raw (8 * k) 2, pos := le raw (8 * k + 4) 4 }
    else { k := k, ctx := le d 24 2 + k, pos := le d 28 4 }

/-- Address and bytes of the token list; no bytes where the mode has none (R203). -/
def kvListAt (g : Nat) (d : List Byte) : Nat × Nat := (boltAddr g (le d 40 4 % 2 ^ 22), if kvList d then 8 * le d 20 4 else 0)

/-- The tokens of KV_SCATTER on core g, with what the list holds now (R201). -/
def State.kvTokens (s : State) (g : Nat) (d : List Byte) : List Token := tokensOf d (s.peek (kvListAt g d).1 (kvListAt g d).2)

/-- The command reads its list, checked (R240). -/
def readTokens (t : Tag) (g : Nat) (d : List Byte) : Run (List Byte) := readMem t (kvListAt g d).1 (kvListAt g d).2

/-- The contexts a list of tokens names, in token order. -/
def kvContexts (ts : List Token) : List Nat := (ts.map (·.ctx)).eraseDups

/-- Budget of KV_SCATTER (R205). -/
def kvBudget (d : List Byte) : Nat :=
  let e := (latentBytes (bits (le d 16 1) 3 0)).getD 1
  64 + ceilDiv (le d 20 4) 8 + le d 20 4 * (slotBytes (le d 18 2) e / 64 + 2)

/-- The inputs of KV_SCATTER: the token buffer, and the list (R203). -/
def kvInputs (g : Nat) (d : List Byte) : List Buf :=
  let n := le d 20 4
  { base := boltAddr g (le d 32 4 % 2 ^ 22), extent := n * le d 36 4, unit := 4 } ::
  (if kvList d then [{ base := boltAddr g (le d 40 4 % 2 ^ 22), extent := roundUp (n * 8) 64, unit := 4 }] else [])

/-- Descriptor checks of KV_SCATTER made at placement (R204, orders 2 to 4). -/
def checkKvScatter (d : List Byte) : Nat :=
  let n := le d 20 4
  let w := le d 18 2
  let off := le d 32 4
  let stride := le d 36 4
  let loff := le d 40 4
  let lst := kvList d
  if n = 0 ∨ w = 0 ∨ stride = 0 then St.ZERO_FIELD
  else match latentBytes (bits (le d 16 1) 3 0) with
    | none => St.BAD_FORMAT
    | some e =>
      if bits (le d 16 1) 7 5 ≠ 0 ∨ !zeroBytes d 17 17 ∨ !zeroBytes d 26 27 ∨ !zeroBytes d 44 63 ∨ off / 2 ^ 22 ≠ 0 ∨ loff / 2 ^ 22 ≠ 0
        ∨ (lst ∧ (le d 24 2 ≠ 0 ∨ le d 28 4 ≠ 0)) ∨ (!lst ∧ loff ≠ 0)
        ∨ off % 64 ≠ 0 ∨ stride % 64 ≠ 0 ∨ loff % 64 ≠ 0
        ∨ (lst ∧ overlap off (n * stride + 32) loff (roundUp (n * 8) 64 + 32)) then St.BAD_FORMAT
      else if 65536 < n ∨ stride < w * e ∨ (!lst ∧ (65536 < le d 24 2 + n ∨ le d 28 4 = 0xFFFFFFFF))
        ∨ 0x400000 < off + n * stride + 32 ∨ (lst ∧ 0x400000 < loff + roundUp (n * 8) 64 + 32)
        ∨ 237500 < kvBudget d then St.OUT_OF_LIMIT
      else 0

/-- The checks common to the commands that name contexts: FREE or another owner, LOST or in an idle cluster (R205, orders 1 and 2). -/
def ctxChecks12 (t : Tag) (ctxs : List Nat) : Run Unit := do
  ctxEach t (fun _ r _ => if r.state == 0 || r.owner != t.stall.val then some St.FIREWALL else none) ctxs
  ctxEach t (fun _ r s =>
    let idle := match boltOfRegion r.base with
      | some g => !s.clusterUp (g / 8)
      | none => false
    if r.state == 3 || idle then some St.PLAN_WIDTH else none) ctxs

/-- One more than the highest position given for a context, or its NEXT_POS (R201). -/
def newNext (ts : List Token) (n : Nat) (r : CtxRec) : Nat :=
  ts.foldl (fun a t => if t.ctx == n then max a (t.pos + 1) else a) r.nextPos

/-- Start checks of KV_SCATTER after its selvages: the list records (R204, order 6), then R205; SEQ_FULL makes contexts FULL (R201). -/
def startKvScatter (t : Tag) (g : Nat) (d : List Byte) : Run Unit := do
  let raw ← readTokens t g d
  let ts := tokensOf d raw
  if kvList d then do
    if (List.range ts.length).any (fun k => le raw (8 * k + 4) 4 == 0xFFFFFFFF || le raw (8 * k + 2) 2 != 0) then throw St.OUT_OF_LIMIT
  let ctxs := kvContexts ts
  ctxChecks12 t ctxs
  ctxEach t (fun _ r _ => if r.fmt != bits (le d 16 1) 3 0 || r.latentW != le d 18 2 then some St.BAD_FORMAT else none) ctxs
  let s ← get
  let full := ctxs.filter fun n =>
    let r := s.ctx n
    !r.wrap && ts.any (fun x => x.ctx == n && r.maxLen ≤ x.pos)
  match full with
  | [] => pure ()
  | n :: _ => do
    change fun s => ((full.foldl (fun s k => s.setCtx k { s.ctx k with state := 2 }) s).inc Reg.CX_SEQ_FULL 1).report
      0x161 Kind.CTX_SEQ_FULL t.stall.val (ctxAddr n)
    throw St.SEQ_FULL

/-- A token is written unless a token of the command in the same slot has a higher position, or an equal one and a higher number (R201). -/
def kvWins (maxLen : Nat) (ts : List Token) (x : Token) : Bool :=
  ts.all fun y => !(y.ctx == x.ctx && y.pos % maxLen == x.pos % maxLen) || y.pos < x.pos || (y.pos == x.pos && y.k ≤ x.k)

/-- Write one token: its tag emptied, the slot, the whole tag (R202). -/
def writeToken (t : Tag) (src : Nat) (fl frame : Nat) (x : Token) (r : CtxRec) : Run Unit := do
  let k := x.pos % r.maxLen
  let data ← readMem t src (r.latentW * r.e)
  writeMem t (r.tagAddr k) (leBytes 4 0)
  writeMem t (r.slotAddr k) data
  writeMem t (r.tagAddr k) (leBytes 4 (x.pos + 1) ++ leBytes 2 fl ++ leBytes 2 frame)

/-- The effect of KV_SCATTER: every remaining token, then every record (R201, R202). -/
def effectKvScatter (t : Tag) (g : Nat) (d : List Byte) : Run Unit := do
  let raw ← readTokens t g d
  let s ← get
  let ts := tokensOf d raw
  let base := boltAddr g (le d 32 4 % 2 ^ 22)
  let p := provOf (s.peek (selvageAt base (le d 20 4 * le d 36 4)) 32)
  let stale := fun (x : Token) =>
    let r := s.ctx x.ctx
    r.wrap && x.pos + r.maxLen < newNext ts x.ctx r
  change fun s => s.inc Reg.CX_STALE_DROPPED (ts.filter stale).length
  eachDo (fun x =>
    let r := s.ctx x.ctx
    if !stale x && kvWins r.maxLen ts x then
      writeToken t (base + x.k * le d 36 4) p.flags (if p.hasTime then p.frame % 65536 else 0) x r
    else pure ()) ts
  change fun s1 => (kvContexts ts).foldl (fun s1 n =>
    s1.setCtx n ((s1.ctx n).advance (newNext ts n (s.ctx n)))) s1

/-- KV_SCATTER (R201): the whole effect once its start checks passed. -/
def execKvScatter (job idx : Nat) (s : State) : Host.Outcome State Fault Refusal :=
  .next (runWhole s job idx 0x07 fun j c => effectKvScatter (j.portTag s c) j.core c.desc)

end Sys2Proof.Machine
end

