-- ==== Sys2Proof/Machine/Float.lean ====
section
/-!
DEFINITION. Floating-point numbers as exact values, their formats (R165), one rounding to nearest even, and the
functions of R162, R163: every result is computed exactly, or far beyond the format's precision, and rounded once.
-/
namespace Sys2Proof.Machine

/-- A floating-point value: a finite one is (−1)^neg × m × 2^e. -/
inductive Fp where
  | nan
  | inf (neg : Bool)
  | fin (neg : Bool) (m : Nat) (e : Int)
  deriving DecidableEq, Repr

/-- A binary format: exponent bits, mantissa bits, bias, the largest finite pattern, whether it has infinities, its canonical NaN. -/
structure FpFmt where
  eb : Nat
  mb : Nat
  bias : Nat
  maxFin : Nat
  hasInf : Bool
  nanBits : Nat
  deriving DecidableEq, Repr

/-- FP32 (R165). -/
def fp32 : FpFmt := ⟨8, 23, 127, 0x7F7FFFFF, true, 0x7FC00000⟩
/-- BF16 (R165). -/
def bf16 : FpFmt := ⟨8, 7, 127, 0x7F7F, true, 0x7FC0⟩
/-- FP16 (R165). -/
def fp16 : FpFmt := ⟨5, 10, 15, 0x7BFF, true, 0x7E00⟩
/-- FP8 E4M3 (R165). -/
def e4m3 : FpFmt := ⟨4, 3, 7, 0x7E, false, 0x7F⟩
/-- FP8 E5M2 (R165). -/
def e5m2 : FpFmt := ⟨5, 2, 15, 0x7B, true, 0x7E⟩

/-- a / b to the nearest integer, half to even. -/
def rneDiv (a b : Nat) : Nat :=
  let q := a / b
  let r := a % b
  if 2 * r > b ∨ (2 * r = b ∧ q % 2 = 1) then q + 1 else q

/-- floor(log2(num / den)) of positive numbers. -/
def log2Ratio (num den : Nat) : Int :=
  let l : Int := (Nat.log2 num : Int) - (Nat.log2 den : Int)
  let ge := if 0 ≤ l then den * 2 ^ l.toNat ≤ num else den ≤ num * 2 ^ (-l).toNat
  if ge then l else l - 1

/-- The pattern of num / den in a format without its sign, rounded once, half to even; it may exceed the largest finite pattern. -/
def FpFmt.pattern (f : FpFmt) (num den : Nat) : Nat :=
  if num = 0 then 0
  else
    let e := max (log2Ratio num den) (1 - (f.bias : Int))
    let u := e - (f.mb : Int)
    let n := if 0 ≤ u then rneDiv num (den * 2 ^ u.toNat) else rneDiv (num * 2 ^ (-u).toNat) den
    ((e + (f.bias : Int) - 1) * (2 ^ f.mb : Nat) + (n : Int)).toNat

/-- A finite magnitude m × 2^e as a ratio. -/
def ratioOf (m : Nat) (e : Int) : Nat × Nat := if 0 ≤ e then (m * 2 ^ e.toNat, 1) else (m, 2 ^ (-e).toNat)

/-- The sign bit of a format. -/
def FpFmt.signBit (f : FpFmt) (neg : Bool) : Nat := b2n neg * 2 ^ (f.eb + f.mb)

/-- The pattern of infinity: one past the largest finite pattern where the format has one. -/
def FpFmt.infBits (f : FpFmt) : Nat := f.maxFin + 1

/-- A signed ratio in a format, rounded once: overflow gives infinity, or NaN with the sign where there is none (R167). -/
def FpFmt.ofRatio (f : FpFmt) (neg : Bool) (num den : Nat) : Nat :=
  let p := f.pattern num den
  f.signBit neg + (if f.maxFin < p then (if f.hasInf then f.infBits else f.nanBits) else p)

/-- A value's bits in a format, rounded once, half to even (R162, R167 without SAT). -/
def FpFmt.bits (f : FpFmt) (x : Fp) : Nat :=
  match x with
  | .nan => f.nanBits
  | .inf neg => f.signBit neg + (if f.hasInf then f.infBits else f.nanBits)
  | .fin neg m e => f.ofRatio neg (ratioOf m e).1 (ratioOf m e).2

/-- The value of a pattern of a format (R165, R166). -/
def FpFmt.value (f : FpFmt) (b : Nat) : Fp :=
  let mag := b % 2 ^ (f.eb + f.mb)
  let neg := b.testBit (f.eb + f.mb)
  if f.maxFin < mag then (if f.hasInf && mag == f.infBits then .inf neg else .nan)
  else
    let ex := mag / 2 ^ f.mb
    let fr := mag % 2 ^ f.mb
    if ex = 0 then .fin neg fr (1 - (f.bias : Int) - (f.mb : Int))
    else .fin neg (2 ^ f.mb + fr) ((ex : Int) - (f.bias : Int) - (f.mb : Int))

/-- A value rounded to a format. -/
def FpFmt.round (f : FpFmt) (x : Fp) : Fp := f.value (f.bits x)

/-- A signed ratio rounded to a format, as a value. -/
def FpFmt.roundRatio (f : FpFmt) (neg : Bool) (num den : Nat) : Fp := f.value (f.ofRatio neg num den)

/-! ### Exact arithmetic -/

/-- A finite value's signed mantissa. -/
def signedMant (neg : Bool) (m : Nat) : Int := if neg then -(m : Int) else m

/-- An integer times 2^e as a value; zero is +0. -/
def Fp.ofInt (i : Int) (e : Int := 0) : Fp := .fin (decide (i < 0)) i.natAbs e

/-- The value is a zero. -/
def Fp.isZero : Fp → Bool
  | .fin _ m _ => m == 0
  | _ => false

/-- The value is NaN. -/
def Fp.isNan : Fp → Bool
  | .nan => true
  | _ => false

/-- Its sign. -/
def Fp.isNeg : Fp → Bool
  | .nan => false
  | .inf n => n
  | .fin n _ _ => n

/-- The exact sum; an exact zero takes the sign of round-to-nearest (R162). -/
def Fp.add : Fp → Fp → Fp
  | .nan, _ => .nan
  | _, .nan => .nan
  | .inf a, .inf b => if a = b then .inf a else .nan
  | .inf a, _ => .inf a
  | _, .inf b => .inf b
  | .fin a m e, .fin b n f =>
    let k := min e f
    let s := signedMant a m * (2 ^ (e - k).toNat : Nat) + signedMant b n * (2 ^ (f - k).toNat : Nat)
    if s = 0 then .fin (a && b && m == 0 && n == 0) 0 0 else .ofInt s k

/-- The negation. -/
def Fp.neg : Fp → Fp
  | .nan => .nan
  | .inf a => .inf (!a)
  | .fin a m e => .fin (!a) m e

/-- The magnitude. -/
def Fp.abs : Fp → Fp
  | .nan => .nan
  | .inf _ => .inf false
  | .fin _ m e => .fin false m e

/-- The exact product. -/
def Fp.mul : Fp → Fp → Fp
  | .nan, _ => .nan
  | _, .nan => .nan
  | .inf a, .inf b => .inf (a != b)
  | .inf a, .fin b n _ => if n = 0 then .nan else .inf (a != b)
  | .fin a m _, .inf b => if m = 0 then .nan else .inf (a != b)
  | .fin a m e, .fin b n f => .fin (a != b) (m * n) (e + f)

/-- The exact order of two numbers: −1, 0 or 1; NaN compares as 0 and must be asked for first. -/
def Fp.cmp : Fp → Fp → Int
  | .inf a, .inf b => if a = b then 0 else if a then -1 else 1
  | .inf a, _ => if a then -1 else 1
  | _, .inf b => if b then 1 else -1
  | .fin a m e, .fin b n f =>
    let k := min e f
    let d := signedMant a m * (2 ^ (e - k).toNat : Nat) - signedMant b n * (2 ^ (f - k).toNat : Nat)
    if d < 0 then -1 else if 0 < d then 1 else 0
  | _, _ => 0

/-- a > b as R162 compares. -/
def Fp.gt (a b : Fp) : Bool := !a.isNan && !b.isNan && a.cmp b == 1
/-- a ≥ b. -/
def Fp.ge (a b : Fp) : Bool := !a.isNan && !b.isNan && a.cmp b != -1
/-- a = b; +0 equals −0. -/
def Fp.eqv (a b : Fp) : Bool := !a.isNan && !b.isNan && a.cmp b == 0

/-- The lesser, a number before NaN, −0 below +0 (R162). -/
def Fp.min2 (a b : Fp) : Fp :=
  if a.isNan then b else if b.isNan then a
  else if a.cmp b == 0 then (if a.isNeg then a else b) else if a.gt b then b else a

/-- The greater, a number before NaN, −0 below +0 (R162). -/
def Fp.max2 (a b : Fp) : Fp :=
  if a.isNan then b else if b.isNan then a
  else if a.cmp b == 0 then (if a.isNeg then b else a) else if a.gt b then a else b

/-- The quotient rounded once to a format. -/
def FpFmt.div (f : FpFmt) : Fp → Fp → Fp
  | .nan, _ => .nan
  | _, .nan => .nan
  | .inf _, .inf _ => .nan
  | .inf a, .fin b _ _ => .inf (a != b)
  | .fin a _ _, .inf b => .fin (a != b) 0 0
  | .fin a m e, .fin b n g =>
    if n = 0 then (if m = 0 then .nan else .inf (a != b))
    else
      let r := ratioOf m (e - g)
      f.roundRatio (a != b) r.1 (r.2 * n)

/-- The root of a positive ratio as a ratio whose rounding to any format equals the root's: 96 further bits, and half a unit where the root is not exact. -/
def sqrtRatio (num den : Nat) : Nat × Nat :=
  let k := 96 + (if num < den then Nat.log2 den + 1 else 0)
  let a := num * den * 4 ^ k
  let r := Nat.sqrt a
  (2 * r + (if r * r = a then 0 else 1), 2 * den * 2 ^ k)

/-- The square root (R163), rounded once. -/
def FpFmt.sqrt (f : FpFmt) : Fp → Fp
  | .nan => .nan
  | .inf a => if a then .nan else .inf false
  | .fin a m e =>
    if m = 0 then .fin a 0 0
    else if a then .nan
    else
      let r := ratioOf m e
      let q := sqrtRatio r.1 r.2
      f.roundRatio false q.1 q.2

/-- The reciprocal square root (R163), rounded once. -/
def FpFmt.rsqrt (f : FpFmt) : Fp → Fp
  | .nan => .nan
  | .inf a => if a then .nan else .fin false 0 0
  | .fin a m e =>
    if m = 0 then .inf a
    else if a then .nan
    else
      let r := ratioOf m e
      let q := sqrtRatio r.2 r.1
      f.roundRatio false q.1 q.2

/-! ### Exponential, logarithm and hyperbolic tangent

Each is computed in fixed point with 384 fraction bits, hundreds more than any FP32 argument needs to decide its rounding. -/

/-- Fraction bits of the fixed-point computations. -/
def fxBits : Nat := 384
/-- One in fixed point. -/
def fxOne : Int := (2 ^ fxBits : Nat)

/-- A signed ratio in fixed point, rounded down. -/
def fxOf (neg : Bool) (r : Nat × Nat) : Int := signedMant neg (r.1 * 2 ^ fxBits / r.2)

/-- Terms of the series of exp from the n-th, each from the one before. -/
def expTerms (x : Int) : Nat → Nat → Int → Int
  | 0, _, _ => 0
  | fuel + 1, n, t => t + expTerms x fuel (n + 1) (t * x / fxOne / (n + 1 : Nat))

/-- Square in fixed point n times. -/
def fxSquares : Nat → Int → Int
  | 0, v => v
  | n + 1, v => fxSquares n (v * v / fxOne)

/-- exp of a fixed-point number below 256 in magnitude: the series at x / 512, squared nine times. -/
def fxExp (x : Int) : Int := fxSquares 9 (expTerms (x / 512) 80 0 fxOne)

/-- Terms of atanh from the odd power 2n + 1. -/
def atanhTerms (z2 : Int) : Nat → Nat → Int → Int
  | 0, _, _ => 0
  | fuel + 1, n, t => t / (2 * n + 1 : Nat) + atanhTerms z2 fuel (n + 1) (t * z2 / fxOne)

/-- 2 × atanh(z) in fixed point, for |z| at most 1/3. -/
def fxAtanh2 (z : Int) : Int := 2 * atanhTerms (z * z / fxOne) 130 0 z

/-- ln 2 in fixed point. -/
def fxLn2 : Int := fxAtanh2 (fxOne / 3)

/-- A fixed-point number rounded to a format. -/
def FpFmt.ofFx (f : FpFmt) (x : Int) : Fp := f.roundRatio (decide (x < 0)) x.natAbs (2 ^ fxBits)

/-- e^a (R163). -/
def FpFmt.exp (f : FpFmt) (x : Fp) : Fp :=
  match x with
  | .nan => .nan
  | .inf a => if a then .fin false 0 0 else .inf false
  | .fin a m e =>
    if x.gt (.ofInt 128) then .inf false
    else if (Fp.ofInt (-128)).gt x then .fin false 0 0
    else f.ofFx (fxExp (fxOf a (ratioOf m e)))

/-- ln a (R163). -/
def FpFmt.log (f : FpFmt) (x : Fp) : Fp :=
  match x with
  | .nan => .nan
  | .inf a => if a then .nan else .inf false
  | .fin a m e =>
    if m = 0 then .inf true
    else if a then .nan
    else
      let r := ratioOf m e
      let k := log2Ratio r.1 r.2
      -- the argument as 2^k × y with y in [1, 2), moved to [3/4, 3/2)
      let y := if 0 ≤ k then (r.1, r.2 * 2 ^ k.toNat) else (r.1 * 2 ^ (-k).toNat, r.2)
      let up := decide (3 * y.2 ≤ 2 * y.1)
      let y := if up then (y.1, 2 * y.2) else y
      let k := if up then k + 1 else k
      let z : Int := ((y.1 : Int) - (y.2 : Int)) * fxOne / ((y.1 + y.2 : Nat) : Int)
      f.ofFx (k * fxLn2 + fxAtanh2 z)

/-- tanh a (R163). -/
def FpFmt.tanh (f : FpFmt) (x : Fp) : Fp :=
  match x with
  | .nan => .nan
  | .inf a => .fin a 1 0
  | .fin a m e =>
    if m = 0 then x
    else if x.abs.gt (.ofInt 64) then .fin a 1 0
    else
      let t := fxExp (2 * fxOf false (ratioOf m e))
      let n := (t - fxOne).natAbs
      f.roundRatio a n (t + fxOne).natAbs

/-! ### Rounding to integers -/

/-- The ratio num / den to an integer: 0 half to even, 1 floor, 2 ceiling, 3 towards zero, 4 half away from zero (R161, ROUND). -/
def roundInt (mode : Nat) (neg : Bool) (num den : Nat) : Int :=
  let q := num / den
  let exact := num % den == 0
  match mode with
  | 0 => signedMant neg (rneDiv num den)
  | 1 => if neg && !exact then -((q + 1 : Nat) : Int) else signedMant neg q
  | 2 => if !neg && !exact then ((q + 1 : Nat) : Int) else signedMant neg q
  | 3 => signedMant neg q
  | _ => signedMant neg ((2 * num + den) / (2 * den))

/-- A value to an integral value; a zero result keeps the sign of the argument (R161). -/
def Fp.roundIntegral (mode : Nat) (x : Fp) : Fp :=
  match x with
  | .fin a m e =>
    let r := ratioOf m e
    let i := roundInt mode a r.1 r.2
    .fin a i.natAbs 0
  | x => x

/-- Divide by 2^s with the rounding of R76: RND 0 half away from zero, 1 half to even. -/
def roundShift (x : Int) (s rnd : Nat) : Int :=
  if s = 0 then x else roundInt (if rnd = 0 then 4 else 0) (decide (x < 0)) x.natAbs (2 ^ s)

/-- An integer kept within bounds. -/
def clampInt (lo hi x : Int) : Int := if x < lo then lo else if hi < x then hi else x

end Sys2Proof.Machine
end

