-- ==== Sys2Proof/Machine/TwillDesc.lean ====
section
/-!
DEFINITION. The TWILL_PASS descriptor (R90): its fields, its buffers (R91), its checks (R92) and its budget (R49).
-/
namespace Sys2Proof.Machine

/-- A TWILL_PASS descriptor, decoded (R90). -/
structure TwillD where
  bits : Nat
  wSigned : Bool
  aSigned : Bool
  warp16 : Bool
  fmt : Nat
  rnd : Nat
  ovfMark : Bool
  cin : Bool
  argmax : Bool
  argmaxOnly : Bool
  rows : Nat
  cols : Nat
  k : Nat
  weft : Nat
  warp : Nat
  warpStride : Nat
  cinOff : Nat
  cinStride : Nat
  out : Nat
  outStride : Nat
  rowScale : Nat
  colScale : Nat
  argmaxOff : Nat
  scratch : Nat
  outZero : Nat
  deriving DecidableEq, Repr

/-- Decode a TWILL_PASS descriptor (R90). -/
def twillD (d : List Byte) : TwillD :=
  let b16 := le d 16 1
  let b17 := le d 17 1
  let b18 := le d 18 1
  { bits := b16 % 32, wSigned := bitOf b16 5, aSigned := bitOf b16 6, warp16 := bitOf b16 7, fmt := b17 % 16,
    rnd := bits b17 5 4, ovfMark := bitOf b17 6, cin := bitOf b17 7, argmax := bitOf b18 0, argmaxOnly := bitOf b18 1,
    rows := le d 20 2, cols := le d 22 2, k := le d 24 4, weft := le d 28 4, warp := le d 32 4, warpStride := le d 36 4,
    cinOff := le d 40 4, cinStride := le d 44 4, out := le d 48 4, outStride := le d 52 4, rowScale := le d 56 4,
    colScale := le d 60 4, argmaxOff := le d 64 4, scratch := le d 68 4, outZero := le d 72 2 }

/-- Bytes of an element of an output format (R74); none for a code that is not defined. -/
def outBytes (fmt : Nat) : Option Nat :=
  match fmt with
  | 0 => some 4
  | 1 => some 1
  | 2 => some 1
  | 3 => some 2
  | 4 => some 2
  | 5 => some 2
  | _ => none

/-- The bit-steps a width counts for (R66): a 1-bit weft counts as 2. -/
def widthSteps (b : Nat) : Nat := max b 2

/-- A weft width is one of R61. -/
def weftWidthOk (b : Nat) : Bool := (1 ≤ b && b ≤ 8) || b == 16

/-- Row stride of the scratch area (R80). -/
def scratchStride (cols : Nat) : Nat := roundUp (cols * 4) 64

/-- Bytes of a warp element (R68). -/
def TwillD.e (t : TwillD) : Nat := if t.warp16 then 2 else 1

/-- The rows of an output with a stride: (offset, bytes) of each. -/
def strideRows (n stride w : Nat) : List (Nat × Nat) := (List.range n).map fun i => (i * stride, w)

/-- The inputs that carry a selvage, in descriptor order (R91). -/
def twillIns (g : Nat) (t : TwillD) : List Buf :=
  [{ base := boltAddr g t.weft, extent := t.k * t.bits * 64, unit := 0 },
   { base := boltAddr g t.warp, extent := t.k * t.warpStride, unit := 0 }]
  ++ (if t.cin then [{ base := boltAddr g t.cinOff, extent := t.rows * t.cinStride, unit := 0 }] else [])
  ++ (if t.rowScale ≠ 0 then [{ base := boltAddr g t.rowScale, extent := roundUp (t.rows * 4) 64, unit := 0 }] else [])
  ++ (if t.colScale ≠ 0 then [{ base := boltAddr g t.colScale, extent := roundUp (t.cols * 4) 64, unit := 0 }] else [])

/-- The outputs of the drain (R91), but for the scratch area. -/
def twillOuts (g : Nat) (t : TwillD) : List Buf :=
  (if t.argmaxOnly then [] else
    [{ base := boltAddr g t.out, extent := t.rows * t.outStride, unit := 0, rows := strideRows t.rows t.outStride (t.cols * (outBytes t.fmt).getD 0) }])
  ++ (if t.argmax then [{ base := boltAddr g t.argmaxOff, extent := roundUp (t.cols * 2) 64, unit := 0, rows := [(0, t.cols * 2)] }] else [])

/-- The scratch area of a WARP16 command. -/
def twillScratch (g : Nat) (t : TwillD) : Buf :=
  { base := boltAddr g t.scratch, extent := t.rows * scratchStride t.cols, unit := 0, rows := strideRows t.rows (scratchStride t.cols) (t.cols * 4) }

/-- Two buffers, selvages included, share a byte. -/
def bufsOverlap (a b : Buf) : Bool := overlap (a.base) (a.extent + 32) (b.base) (b.extent + 32)

/-- Whether any of one list of buffers overlaps any of another. -/
def anyOverlap (xs ys : List Buf) : Bool := xs.any fun a => ys.any fun b => bufsOverlap a b

/-- A bolt buffer ends, with its selvage, within the bolt. -/
def boltFits (off extent : Nat) : Bool := off + extent + 32 ≤ 0x400000

/-- The descriptor checks of TWILL_PASS, orders 2 to 4 of R92 and the overlaps of R89: 0 where it passes. PLAN_WIDTH is judged against the engines at placement. -/
def checkTwill (d : List Byte) : Nat :=
  let t := twillD d
  let offs := [t.weft, t.warp, t.cinOff, t.out, t.rowScale, t.colScale, t.argmaxOff, t.scratch]
  let strides := [t.warpStride, t.cinStride, t.outStride]
  let eb := outBytes t.fmt
  if t.rows = 0 ∨ t.cols = 0 ∨ t.k = 0 ∨ t.warpStride = 0 ∨ (t.outStride = 0 ∧ !t.argmaxOnly) ∨ (t.cin ∧ t.cinStride = 0) then St.ZERO_FIELD
  else if !weftWidthOk t.bits ∨ eb.isNone ∨ 1 < t.rnd
      ∨ (t.fmt = 0 ∧ (t.rowScale ≠ 0 ∨ t.colScale ≠ 0)) ∨ ((t.fmt = 0 ∨ 4 ≤ t.fmt) ∧ (t.outZero ≠ 0 ∨ t.rnd ≠ 0))
      ∨ (t.argmaxOnly ∧ !t.argmax) ∨ (t.argmaxOnly ∧ (t.out ≠ 0 ∨ t.outStride ≠ 0))
      ∨ (!t.cin ∧ (t.cinOff ≠ 0 ∨ t.cinStride ≠ 0)) ∨ (!t.argmax ∧ t.argmaxOff ≠ 0) ∨ (!t.warp16 ∧ t.scratch ≠ 0)
      ∨ bits (le d 18 1) 7 2 ≠ 0 ∨ !zeroBytes d 19 19 ∨ !zeroBytes d 74 127 ∨ offs.any (fun o => o / 2 ^ 22 ≠ 0)
      ∨ offs.any (fun o => o % 64 ≠ 0) ∨ strides.any (fun o => o % 64 ≠ 0)
      ∨ anyOverlap (twillOuts 0 t ++ (if t.warp16 then [twillScratch 0 t] else [])) (twillIns 0 t) then St.BAD_FORMAT
  else if 512 < t.rows ∨ 512 < t.cols ∨ 32768 < t.k * widthSteps t.bits ∨ t.warpStride < t.cols * t.e
      ∨ (!t.argmaxOnly ∧ t.outStride < t.cols * eb.getD 0) ∨ (t.cin ∧ t.cinStride < t.cols * 4)
      ∨ (twillIns 0 t ++ twillOuts 0 t ++ (if t.warp16 then [twillScratch 0 t] else [])).any (fun b => !boltFits (b.base - boltAddr 0 0) b.extent) then
    St.OUT_OF_LIMIT
  else 0

/-- Engine-time budget of one pass (R49). -/
def passBudget (cin : Bool) (k b : Nat) : Nat := (if cin then 512 else 1) + k * widthSteps b + 512

/-- Budget of TWILL_PASS in bit-steps (R49, R80). -/
def twillBudget (d : List Byte) : Nat :=
  let t := twillD d
  passBudget t.cin t.k t.bits + (if t.warp16 then passBudget false t.k t.bits else 0)

/-- The largest single pass of TWILL_PASS. -/
def twillPassMax (d : List Byte) : Nat := passBudget (twillD d).cin (twillD d).k (twillD d).bits

end Sys2Proof.Machine
end

