-- ==== Sys2Proof/Machine/TidyDesc.lean ====
section
/-!
DEFINITION. TIDY_CHAIN (R180): descriptor, tensor records (R155, R156), stage records (R181), kinds of stages and sweeps
(R159), checks (R182) and budget (R183).
-/
namespace Sys2Proof.Machine

/-- A TIDY_CHAIN descriptor, decoded (R180). -/
structure TidyD where
  n : Nat
  ct : Nat
  both : Bool
  nIn : Nat
  nOut : Nat
  d0 : Nat
  d1 : Nat
  d2 : Nat
  d3 : Nat
  chain : Nat
  tensors : Nat
  deriving DecidableEq, Repr

/-- Decode a TIDY_CHAIN descriptor (R180). -/
def tidyD (d : List Byte) : TidyD :=
  let b := le d 16 1
  let c := le d 17 1
  { n := b % 32, ct := bits b 6 5, both := bitOf b 7, nIn := c % 8, nOut := bits c 4 3, d0 := le d 20 4, d1 := le d 24 2,
    d2 := le d 26 2, d3 := le d 28 2, chain := le d 32 4, tensors := le d 36 4 }

/-- A tensor record, decoded (R155). -/
structure Tensor where
  fmt : Nat
  skein : Bool
  sat : Bool
  rnd : Nat
  src : Nat
  bcast : Nat
  weftBits : Nat
  weftSigned : Bool
  scaled : Bool
  init : Bool
  table : Bool
  off : Nat
  s0 : Nat
  s1 : Nat
  s2 : Nat
  s3 : Nat
  scale : Nat
  zero : Nat
  reserved : Bool
  deriving DecidableEq, Repr

/-- Decode a tensor record (R155). -/
def tensorOf (r : List Byte) : Tensor :=
  let b0 := le r 0 1
  let b1 := le r 1 1
  let b2 := le r 2 1
  let b3 := le r 3 1
  { fmt := b0 % 16, skein := bitOf b0 4, sat := bitOf b0 5, rnd := bits b0 7 6, src := b1 % 16, bcast := b1 / 16,
    weftBits := b2 % 32, weftSigned := bitOf b2 5, scaled := bitOf b2 6, init := bitOf b2 7, table := bitOf b3 0,
    off := le r 4 4, s0 := le r 8 4, s1 := le r 12 4, s2 := le r 16 4, s3 := le r 20 4, scale := le r 24 4,
    zero := le r 28 2, reserved := bits b3 7 1 != 0 || !zeroBytes r 30 31 }

/-- A stage record, decoded (R181). -/
structure TStage where
  op : Nat
  dst : Nat
  a : Nat
  b : Nat
  c : Nat
  param : Nat
  imm0 : Nat
  imm1 : Nat
  reserved : Bool
  deriving DecidableEq, Repr

/-- Decode a stage record (R181). -/
def stageOf (r : List Byte) : TStage :=
  { op := le r 0 1, dst := le r 1 1 % 8, a := le r 2 1 % 16, b := le r 2 1 / 16, c := le r 3 1 % 16, param := le r 4 2,
    imm0 := le r 8 4, imm1 := le r 12 4, reserved := bits (le r 1 1) 7 3 != 0 || bits (le r 3 1) 7 4 != 0 || !zeroBytes r 6 7 }

/-- Lanes of a compute type (R153). -/
def lanesOf (ct : Nat) : Nat := if ct = 0 then 64 else if ct = 3 then 256 else 128

/-- Bytes of an element of a storage format (R165), none for WEFT and undefined codes. -/
def fmtBytes (fmt : Nat) : Option Nat :=
  match fmt with
  | 0 => some 1
  | 1 => some 1
  | 2 => some 2
  | 3 => some 2
  | 4 => some 4
  | 5 => some 2
  | 6 => some 2
  | 7 => some 4
  | 8 => some 1
  | 9 => some 1
  | 11 => some 16
  | _ => none

/-- An integer storage format. -/
def fmtIsInt (fmt : Nat) : Bool := fmt ≤ 4

/-- What an opcode of R161 is: which sources it uses (a, b, c), whether a float and an integer compute type run it, its cost per vector. -/
structure OpInfo where
  useA : Bool
  useB : Bool
  useC : Bool
  onF : Bool
  onI : Bool
  cost : Nat
  deriving DecidableEq, Repr

/-- The operation menu (R161); the costs of CRC32C, GATHER, SCATTER and SCATTER_ADD depend on L and are given by opCost. -/
def opInfo (op : Nat) : Option OpInfo :=
  if op = 0x01 ∨ op = 0x02 ∨ op = 0x03 ∨ op = 0x05 ∨ op = 0x06 ∨ op = 0x09 ∨ op = 0x0A ∨ op = 0x0B then some ⟨true, true, false, true, true, 1⟩
  else if op = 0x04 ∨ op = 0x0D then some ⟨true, true, true, true, true, 1⟩
  else if op = 0x07 ∨ op = 0x08 ∨ op = 0x0C ∨ op = 0x0E then some ⟨true, false, false, true, true, 1⟩
  else if op = 0x0F then some ⟨true, false, false, true, false, 1⟩
  else if op = 0x10 ∨ (0x12 ≤ op ∧ op ≤ 0x16) then some ⟨true, false, false, true, false, 4⟩
  else if op = 0x11 ∨ op = 0x1A then some ⟨true, true, false, true, false, 4⟩
  else if op = 0x17 then some ⟨true, false, false, true, false, 9⟩
  else if op = 0x18 then some ⟨true, false, false, true, false, 10⟩
  else if op = 0x19 then some ⟨true, false, false, true, false, 11⟩
  else if op = 0x1B then some ⟨true, true, false, true, false, 1⟩
  else if op = 0x20 ∨ op = 0x21 ∨ op = 0x22 ∨ op = 0x24 then some ⟨true, true, false, false, true, 1⟩
  else if op = 0x23 then some ⟨true, false, false, false, true, 1⟩
  else if 0x30 ≤ op ∧ op ≤ 0x35 then some ⟨true, false, false, true, true, 1⟩
  else if op = 0x36 then some ⟨true, false, false, true, false, 6⟩
  else if op = 0x37 then some ⟨false, false, false, false, true, 0⟩
  else if op = 0x40 then some ⟨true, false, false, true, true, 0⟩
  else if op = 0x41 ∨ op = 0x42 then some ⟨true, true, false, true, true, 0⟩
  else if op = 0x48 then some ⟨true, false, false, true, true, 2⟩
  else if op = 0x49 then some ⟨false, false, false, true, false, 0⟩
  else none

/-- The kinds of stages (R159). -/
inductive StageKind where
  | element
  | reduction
  | row
  | terminal
  deriving DecidableEq, Repr

/-- The opcode is a reduction. -/
def opReduces (op : Nat) : Bool := 0x30 ≤ op && op ≤ 0x37

/-- The selectors an opcode reads. -/
def TStage.sources (t : TStage) : List Nat :=
  match opInfo t.op with
  | none => []
  | some i => (if i.useA then [t.a] else []) ++ (if i.useB then [t.b] else []) ++ (if i.useC then [t.c] else [])

/-- What a slot holds while a chain is laid out: nothing, element values, or a row value that is final after a sweep (0: before the first). -/
inductive SlotUse where
  | empty
  | elem
  | row (after : Nat)
  deriving DecidableEq, Repr

/-- A stage laid out: its kind and the sweep it belongs to (a row stage: the sweep after which it is evaluated). -/
structure Placed where
  st : TStage
  kind : StageKind
  sweep : Nat
  deriving DecidableEq, Repr

/-- The slot of a selector. -/
def slotAt (slots : List SlotUse) (sel : Nat) : SlotUse := if 4 ≤ sel ∧ sel ≤ 11 then slots.getD (sel - 4) .empty else .empty

/-- A selector that is one value per row: a row slot, an immediate or IDX1. -/
def selIsRow (slots : List SlotUse) (sel : Nat) : Bool :=
  sel == 12 || sel == 13 || sel == 15 || (match slotAt slots sel with | .row _ => true | _ => false)

/-- The sweep after which a selector's row value is final. -/
def selAfter (slots : List SlotUse) (sel : Nat) : Nat :=
  match slotAt slots sel with
  | .row n => n
  | _ => 0

/-- Lay a chain out in kinds and sweeps (R159): current sweep, slots, stages. -/
def layChain : Nat → List SlotUse → List TStage → List Placed × List SlotUse
  | _, slots, [] => ([], slots)
  | cs, slots, t :: ts =>
    let src := t.sources
    let aft := src.foldl (fun m x => max m (selAfter slots x)) 0
    let kind :=
      if opReduces t.op then StageKind.reduction
      else if t.op = 0x48 ∨ t.op = 0x49 then .terminal
      else if src.all (selIsRow slots) then .row else .element
    let cs' := if kind = .row then cs else if cs ≤ aft then aft + 1 else cs
    let sw := if kind = .row then aft else cs'
    let slots' :=
      if t.op = 0x41 ∨ t.op = 0x42 ∨ kind = .terminal then slots
      else
        let u := match kind with
          | .element => SlotUse.elem
          | .reduction => .row cs'
          | .row => .row aft
          | .terminal => .empty
        let s1 := slots.set t.dst u
        if t.op = 0x36 then s1.set (t.dst + 1) u else s1
    let r := layChain cs' slots' ts
    ({ st := t, kind := kind, sweep := sw } :: r.1, r.2)

/-- The chain of a command laid out from empty slots. -/
def chainOf (ts : List TStage) : List Placed × List SlotUse := layChain 1 (List.replicate 8 .empty) ts

/-- Sweeps of a chain: at least one (R159). -/
def sweepsOf (ps : List Placed) : Nat := ps.foldl (fun m p => if p.kind = .row then m else max m p.sweep) 1

/-- The stages of a command from its stage table. -/
def stagesOf (d : TidyD) (table : List Byte) : List TStage := (List.range d.n).map fun i => stageOf (slice table (16 * i) 16)

/-- The tensors of a command from its tensor table: inputs, then outputs. -/
def tensorsOf (d : TidyD) (table : List Byte) : List Tensor := (List.range (d.nIn + d.nOut)).map fun i => tensorOf (slice table (32 * i) 32)

/-- Rows of the shape. -/
def TidyD.rows (d : TidyD) : Nat := d.d1 * d.d2 * d.d3

/-- (d1, d2, d3) of row r in the order of R157. -/
def TidyD.rowIdx (d : TidyD) (r : Nat) : Nat × Nat × Nat := (r % d.d1, r / d.d1 % d.d2, r / (d.d1 * d.d2))

/-- Bytes of a row of a WEFT output (R156). -/
def weftRowBytes (t : Tensor) : Nat := t.weftBits * 64

/-- Length of dimension 0 of output k: TOPK and NMS outputs have their own (R156). -/
def outLen0 (d : TidyD) (ps : List Placed) (k : Nat) : Nat :=
  match ps.getLast? with
  | some p => if p.st.op = 0x48 then p.st.param else if p.st.op = 0x49 then (if k = 0 then p.st.param else 1) else d.d0
  | none => d.d0

/-- The extent of a tensor (R156): its highest byte plus one less OFF, rounded up to 64. -/
def tensorExtent (d : TidyD) (len0 : Nat) (t : Tensor) : Nat :=
  let e := (fmtBytes t.fmt).getD 0
  let idx := fun n k => if bitOf t.bcast n then 0 else k - 1
  if t.table then roundUp (t.s1 * e) 64
  else
    let inner := if t.fmt = 10 then weftRowBytes t else idx 0 len0 * t.s0 + e
    roundUp (idx 1 d.d1 * t.s1 + idx 2 d.d2 * t.s2 + idx 3 d.d3 * t.s3 + inner) 64

/-- Device address of offset o in the space of a tensor. -/
def Tensor.addr (t : Tensor) (g o : Nat) : Nat := if t.skein then skeinAddr g o else boltAddr g o

/-- Offset of a row of a tensor (R156). -/
def Tensor.rowOff (t : Tensor) (x : Nat × Nat × Nat) : Nat :=
  let idx := fun n k => if bitOf t.bcast n then 0 else k
  t.off + idx 1 x.1 * t.s1 + idx 2 x.2.1 * t.s2 + idx 3 x.2.2 * t.s3

/-- Offset of element i of a row. -/
def Tensor.elemOff (t : Tensor) (x : Nat × Nat × Nat) (i : Nat) : Nat := t.rowOff x + (if bitOf t.bcast 0 then 0 else i) * t.s0

/-- The bytes of an output that its layout addresses, as rows of (offset, bytes). -/
def tensorRows (d : TidyD) (len0 : Nat) (t : Tensor) : List (Nat × Nat) :=
  let e := (fmtBytes t.fmt).getD 0
  if t.table then [(0, t.s1 * e)]
  else (List.range d.rows).flatMap fun r =>
    let x := d.rowIdx r
    if t.fmt = 10 then [(t.rowOff x - t.off, weftRowBytes t)]
    else if bitOf t.bcast 0 then [(t.rowOff x - t.off, e)]
    else if t.s0 = e then [(t.rowOff x - t.off, len0 * e)]
    else (List.range len0).map fun i => (t.elemOff x i - t.off, e)

/-- The stage table and the tensor table as buffers (R156). -/
def tidyTables (g : Nat) (d : TidyD) : List Buf :=
  [{ base := boltAddr g d.chain, extent := roundUp (d.n * 16) 64, unit := 2 },
   { base := boltAddr g d.tensors, extent := roundUp ((d.nIn + d.nOut) * 32) 64, unit := 2 }]

/-- Inputs of a chain: the two tables, the input tensors, and output tables without INIT (R173). -/
def tidyIns (g : Nat) (d : TidyD) (ts : List Tensor) : List Buf :=
  tidyTables g d
  ++ (ts.take d.nIn).map (fun t => { base := t.addr g t.off, extent := tensorExtent d d.d0 t, unit := 2 })
  ++ ((ts.drop d.nIn).filter (fun t => t.table && !t.init)).map
      (fun t => { base := t.addr g t.off, extent := tensorExtent d d.d0 t, unit := 2 })

/-- Outputs of a chain. -/
def tidyOuts (g : Nat) (d : TidyD) (ps : List Placed) (ts : List Tensor) : List Buf :=
  (List.range d.nOut).filterMap fun k => (ts[d.nIn + k]?).map fun t =>
    { base := t.addr g t.off, extent := tensorExtent d (outLen0 d ps k) t, unit := 2, rows := tensorRows d (outLen0 d ps k) t }

/-! ### Budget (R183) -/

/-- Cost of a stage per vector (R161). -/
def opCost (l e op : Nat) : Nat :=
  if op = 0x37 then ceilDiv (l * e) 64
  else if op = 0x40 ∨ op = 0x41 ∨ op = 0x42 then ceilDiv l 8
  else match opInfo op with | some i => i.cost | none => 0

/-- Beats of a tensor per vector (R154); the STRIDE0 of a WEFT output is 0, which is none of the first two cases. -/
def vecBeats (l : Nat) (t : Tensor) : Nat :=
  let e := (fmtBytes t.fmt).getD 0
  if t.table ∨ bitOf t.bcast 0 then 0 else if t.fmt ≠ 10 ∧ t.s0 = e then ceilDiv (l * e) 64 else ceilDiv l 8

/-- Beats of a tensor per row (R154). -/
def rowBeats (t : Tensor) : Nat := if !t.table && bitOf t.bcast 0 then 1 else 0

/-- The stages evaluated in sweep n (R159). -/
def inSweep (n : Nat) (p : Placed) : Bool :=
  match p.kind with
  | .element => p.sweep ≤ n
  | .reduction => p.sweep == n
  | .terminal => p.sweep == n
  | .row => false

/-- Budget of one row of a chain in bit-steps (R183). -/
def tidyRowBudget (d : TidyD) (ps : List Placed) (ts : List Tensor) : Nat :=
  let l := lanesOf d.ct
  let vec := ceilDiv d.d0 l
  let ns := sweepsOf ps
  let crcE := fun (p : Placed) => match ts[p.st.param]? with | some t => (fmtBytes t.fmt).getD 0 | none => 0
  let cost := fun (p : Placed) => opCost l (crcE p) p.st.op
  let tab := fun (p : Placed) (sk : Bool) =>
    let i := if p.st.op = 0x40 then some p.st.param else if p.st.op = 0x41 ∨ p.st.op = 0x42 then some (d.nIn + p.st.param) else none
    match i.bind (fun i => ts[i]?) with
    | some t => if t.skein == sk then ceilDiv l 8 else 0
    | none => 0
  match ps with
  | [p] =>
    if p.st.op = 0x49 then
      ceilDiv d.d0 64 * 2 * (Nat.log2 (max d.d0 2 - 1) + 1) + d.d0 * ceilDiv (min d.d0 p.st.param) 64 * 8
    else body l vec ns cost tab
  | _ => body l vec ns cost tab
where
  /-- The row budget of a chain that is not NMS. -/
  body (l vec ns : Nat) (cost : Placed → Nat) (tab : Placed → Bool → Nat) : Nat :=
    let acc := fun (sw : Nat) => ts.take d.nIn ++ (if sw = ns then ts.drop d.nIn else [])
    sumNat ((List.range ns).map fun i =>
      let sw := i + 1
      let st := ps.filter (inSweep sw)
      let comp := sumNat (st.map cost)
      let port := fun (sk : Bool) => sumNat ((acc sw).map fun t => if t.skein == sk then vecBeats l t else 0) + sumNat (st.map fun p => tab p sk)
      vec * max comp (max (port false) (port true)) + sumNat ((acc sw).map rowBeats)
        + Nat.log2 l * sumNat ((st.filter fun p => p.kind == .reduction).map cost)
        + sumNat ((ps.filter fun p => p.kind == .row && p.sweep == sw).map cost)
        + sumNat ((st.filter fun p => p.st.op == 0x48).map fun p => p.st.param))

/-- Beats of the INIT fills. -/
def initBeats (d : TidyD) (ts : List Tensor) : Nat :=
  sumNat ((ts.drop d.nIn).map fun t => if t.table && t.init then t.s1 * (fmtBytes t.fmt).getD 0 / 64 else 0)

/-- Budget of a chain in bit-steps (R183). -/
def tidyBudget (d : TidyD) (ps : List Placed) (ts : List Tensor) : Nat :=
  64 + initBeats d ts + ceilDiv d.rows (if d.both then 2 else 1) * tidyRowBudget d ps ts

/-! ### Checks (R182) -/

/-- The checks of TIDY_CHAIN that read the descriptor alone: 0 where it passes. -/
def checkTidy (b : List Byte) : Nat :=
  let d := tidyD b
  if [d.n, d.nIn, d.nOut, d.d0, d.d1, d.d2, d.d3].any (· == 0) then St.ZERO_FIELD
  else if bits (le b 17 1) 7 5 != 0 || !zeroBytes b 18 19 || !zeroBytes b 30 31 || !zeroBytes b 40 63 || d.chain / 2 ^ 22 != 0 || d.tensors / 2 ^ 22 != 0
      || d.chain % 64 != 0 || d.tensors % 64 != 0 then St.BAD_FORMAT
  else if 16 < d.n || 4 < d.nIn || 2 < d.nOut || 16777216 < d.d0 || (tidyTables 0 d).any (fun t => !boltFits (t.base - boltAddr 0 0) t.extent) then St.OUT_OF_LIMIT
  else 0

/-- An FP32 pattern is positive, normal and finite. -/
def scaleOk (v : Nat) : Bool := 0x00800000 ≤ v && v ≤ 0x7F7FFFFF

/-- A tensor breaks a stride's zero rule: a stride that R156 requires to be non-zero is 0, or LEN is 0. -/
def tensorZero (d : TidyD) (t : Tensor) : Bool :=
  if t.table then t.s1 == 0
  else
    let need := fun n dn s => !bitOf t.bcast n && dn != 1 && s == 0
    need 1 d.d1 t.s1 || need 2 d.d2 t.s2 || need 3 d.d3 t.s3 || (t.fmt != 10 && !bitOf t.bcast 0 && t.s0 == 0)

/-- A tensor record breaks a format rule of R155 to R157, R165 or R166: output k (some) or input (none). The element size that OFF and the strides of
a WEFT output are multiples of is taken as 64 bytes, a plane. [DESIGN CHOICE, log entry 107] -/
def tensorBad (d : TidyD) (ps : List Placed) (slots : List SlotUse) (out : Option Nat) (t : Tensor) : Bool :=
  let e := (fmtBytes t.fmt).getD 1
  let last := ps.getLast?
  let lastOp := match last with | some p => p.st.op | none => 0
  let own := lastOp == 0x48 || lastOp == 0x49
  let isTabOut := t.table && out.isSome
  let extra := fun n dn s => (bitOf t.bcast n || dn == 1) && s != 0
  t.reserved || 11 < t.fmt || 1 < t.rnd
  || (t.fmt == 10 && out.isNone) || (t.fmt == 11 && (out.isSome || lastOp != 0x49))
  || (t.fmt == 10 && !weftWidthOk t.weftBits) || (t.fmt != 10 && (t.weftBits != 0 || t.weftSigned))
  || (t.scaled && !(fmtIsInt t.fmt || t.fmt == 10)) || (t.scaled && d.ct == 3)
  || (if t.scaled then !scaleOk t.scale else t.scale != 0 || t.zero != 0)
  || (d.ct == 3 && out.isNone && !fmtIsInt t.fmt)
  || t.off / (if t.skein then 2 ^ 20 else 2 ^ 22) != 0 || t.off % (if t.fmt == 10 then 64 else e) != 0
  || (if t.table then t.s0 != 0 || t.bcast != 0 || t.fmt == 10
      else (t.fmt == 10 && t.s0 != 0) || (bitOf t.bcast 0 && t.s0 != 0) || extra 1 d.d1 t.s1 || extra 2 d.d2 t.s2 || extra 3 d.d3 t.s3
        || [t.s0, t.s1, t.s2, t.s3].any (fun s => s % (if t.fmt == 10 then 64 else e) != 0))
  || (match out with
      | none => t.src != 0 || t.init
      | some k =>
        (t.init && !(t.table && (ps.any fun p => p.st.op == 0x42 && p.st.param == k)))
        || (if t.table || own then
              t.src != 0
              || (if own then t.table || t.bcast != (if lastOp == 0x49 && k == 1 then 1 else 0) else false)
            else
              !(4 ≤ t.src && t.src ≤ 11) || bits t.bcast 3 1 != 0
              || (match slotAt slots t.src with | .empty => true | .elem => bitOf t.bcast 0 | .row _ => !bitOf t.bcast 0)))
  || (isTabOut && (ps.any fun p => p.st.op == 0x42 && some p.st.param == out) && (t.scaled || !(t.fmt == 2 || t.fmt == 4)))

/-- The n-th stage of a chain breaks a rule of R158, R161, R170 to R175 or R181; slots as they stand before it. A selector may not name an input
that is a table or BOX4. [DESIGN CHOICE, log entry 107] -/
def stageBad (d : TidyD) (ts : List Tensor) (i : Nat) (slots : List SlotUse) (t : TStage) : Bool :=
  match opInfo t.op with
  | none => true
  | some o =>
    let selBad := fun s =>
      (s ≤ 3 && (d.nIn ≤ s || (match ts[s]? with | some x => x.table || x.fmt == 11 | none => true)))
      || (4 ≤ s && s ≤ 11 && slotAt slots s == .empty)
    let tab := fun (k : Nat) (input : Bool) =>
      match ts[if input then k else d.nIn + k]? with
      | some x => x.table && (if input then k < d.nIn else true)
      | none => false
    t.reserved || (if d.ct == 3 then !o.onI else !o.onF) || ((t.op == 0x34 || t.op == 0x35) && !(d.ct == 0 || d.ct == 3))
    || (t.op == 0x49 && d.ct != 0)
    || (!o.useA && t.a != 0) || (!o.useB && t.b != 0) || (!o.useC && t.c != 0)
    || t.sources.any selBad
    || ((t.op == 0x41 || t.op == 0x42 || t.op == 0x48 || t.op == 0x49) && t.dst != 0)
    || (t.op == 0x0F && 4 < t.param) || ((t.op == 0x1A || t.op == 0x24) && 1 < t.param)
    || (t.op == 0x36 && t.dst == 7)
    || (t.op == 0x37 && (match ts[t.param]? with
        | some x => d.nIn ≤ t.param || x.table || x.s0 != (fmtBytes x.fmt).getD 0 || bitOf x.bcast 0
        | none => true))
    || (t.op == 0x40 && !tab t.param true) || ((t.op == 0x41 || t.op == 0x42) && !tab t.param false)
    || (t.op == 0x41 && d.both)
    || (t.op == 0x48 && (t.param == 0 || i + 1 != d.n || d.nOut != 2))
    || (t.op == 0x49 && (t.param == 0 || d.n != 1))

/-- Whether any stage breaks a rule, walking the chain with its slots. -/
def anyStageBad (d : TidyD) (ts : List Tensor) (stages : List TStage) : Bool :=
  (List.range stages.length).any fun i =>
    match stages[i]? with
    | some t => stageBad d ts i (chainOf (stages.take i)).2 t
    | none => true

/-- NMS takes the tensors of R171. -/
def nmsTensorsOk (d : TidyD) (ts : List Tensor) : Bool :=
  d.nIn == 2 && d.nOut == 2
  && (match ts with
      | [s, b, o0, o1] => s.fmt == 7 && !s.table && b.fmt == 11 && !b.table && (o0.fmt == 2 || o0.fmt == 4) && o1.fmt == 4
      | _ => false)

/-- The checks of TIDY_CHAIN that read its tables, made when it starts (R182): 0 where they pass. -/
def checkTidyStart (b chain tens : List Byte) : Nat :=
  let d := tidyD b
  let stages := stagesOf d chain
  let ts := tensorsOf d tens
  let lay := chainOf stages
  let ps := lay.1
  let ins := tidyIns 0 d ts
  let outs := tidyOuts 0 d ps ts
  let addTab := fun (x : Buf) (y : Buf) => x.base == y.base && x.extent == y.extent && (ts.drop d.nIn).any (fun t => t.table && !t.init && t.addr 0 t.off == x.base)
  let nms := ps.any fun p => p.st.op == 0x49
  let topk := (ps.filter fun p => p.st.op == 0x48)
  let row := tidyRowBudget d ps ts
  if ts.any (tensorZero d) then St.ZERO_FIELD
  else if anyStageBad d ts stages || 4 < sweepsOf ps
      || (List.range ts.length).any (fun i => match ts[i]? with
          | some t => tensorBad d ps lay.2 (if i < d.nIn then none else some (i - d.nIn)) t
          | none => true)
      || (nms && !nmsTensorsOk d ts)
      || (topk.any fun _ => match ts[d.nIn + 1]? with | some t => !(t.fmt == 4 || (t.fmt == 2 && d.d0 ≤ 32768)) | none => true)
      || outs.any (fun x => ins.any fun y => bufsOverlap x y && !addTab x y) then St.BAD_FORMAT
  else if ts.any (fun t => t.table && 16777216 < t.s1) || stages.any (fun t => t.op == 0x23 && 31 < t.param) || topk.any (fun p => 64 < p.st.param || d.d0 < p.st.param)
      || (nms && (512 < (ps.head?.map (·.st.param)).getD 0 || 4096 < d.d0))
      || (ts.any fun t => t.fmt == 10 && 512 < d.d0)
      || (List.range ts.length).any (fun i => match ts[i]? with
          | some t => (if t.skein then 0xC0000 else 0x400000) < t.off + tensorExtent d (if i < d.nIn then d.d0 else outLen0 d ps (i - d.nIn)) t + 32
          | none => true)
      || (33792 < row && 237500 < tidyBudget d ps ts) then St.OUT_OF_LIMIT
  else 0

end Sys2Proof.Machine
end

