-- ==== Sys2Proof/Machine/AttnDesc.lean ====
section
/-!
DEFINITION. ATTN_BLOCK (R211 to R214) and DECODE_BATCH (R216 to R218): descriptors, buffers, scratch area, checks, budgets.
-/
namespace Sys2Proof.Machine

/-- An ATTN_BLOCK descriptor, decoded (R211). -/
structure AttnD where
  mode : Nat
  causal : Bool
  fmt : Nat
  nh : Nat
  kb : Nat
  nq : Nat
  dk : Nat
  dv : Nat
  qpc : Nat
  ctx : Nat
  nctx : Nat
  q : Nat
  qs : Nat
  qpos : Nat
  wuk : Nat
  wukRs : Nat
  wuv : Nat
  wuvCs : Nat
  vs : Nat
  scratch : Nat
  scratchSize : Nat
  out : Nat
  outStride : Nat
  deriving DecidableEq, Repr

/-- Decode an ATTN_BLOCK descriptor (R211). -/
def attnD (d : List Byte) : AttnD :=
  let b := le d 16 1
  { mode := b % 4, causal := bitOf b 2, fmt := bits b 7 4, nh := le d 17 1, kb := le d 18 2, nq := le d 20 2, dk := le d 22 2,
    dv := le d 24 2, qpc := le d 26 2, ctx := le d 28 2, nctx := le d 30 2, q := le d 32 4, qs := le d 36 4, qpos := le d 40 4,
    wuk := le d 44 4, wukRs := le d 48 4, wuv := le d 52 4, wuvCs := le d 56 4, vs := le d 60 4, scratch := le d 64 4,
    scratchSize := le d 68 4, out := le d 72 4, outStride := le d 76 4 }

/-- The contexts of ATTN_BLOCK, ascending (R208). -/
def AttnD.ctxs (a : AttnD) : List Nat := (List.range (if a.mode = 1 then a.nctx else 1)).map (· + a.ctx)

/-- The inputs of ATTN_BLOCK for contexts of LATENT_W r, in descriptor order (R211, R212). -/
def attnIns (g r : Nat) (a : AttnD) : List Buf :=
  let at_ := fun o n u => ({ base := boltAddr g o, extent := roundUp n 64, unit := u } : Buf)
  [at_ a.q (a.nh * a.dk * 512) 0, at_ a.qs (a.nh * a.nq * 4) 2]
  ++ (if a.causal then [at_ a.qpos (a.nq * 4) 2] else [])
  ++ [at_ a.wuk (r * 512) 0]
  ++ (if a.wukRs ≠ 0 then [at_ a.wukRs (a.nh * a.dk * 4) 0] else [])
  ++ [at_ a.wuv (r * roundUp (a.nh * a.dv) 64) 0]
  ++ (if a.wuvCs ≠ 0 then [at_ a.wuvCs (a.nh * a.dv * 4) 0] else [])
  ++ [at_ a.vs (a.nh * a.dv * 4) 2]

/-- Bytes of an element of a float output format of R165: 5 BF16, 6 FP16, 7 FP32. -/
def floatBytes (fmt : Nat) : Nat := if fmt = 7 then 4 else 2

/-- The output of ATTN_BLOCK (R212). -/
def attnOut (g : Nat) (a : AttnD) : Buf :=
  { base := boltAddr g a.out, extent := roundUp (a.nh * a.nq * a.outStride) 64, unit := 2,
    rows := strideRows (a.nh * a.nq) a.outStride (a.dv * floatBytes a.fmt) }

/-- The scratch area's size for LATENT_W r (R212). -/
def attnScratch (r : Nat) (a : AttnD) : Nat :=
  let r64 := fun n => roundUp n 64
  a.nh * a.dk * r64 a.kb + a.kb * r64 (a.nh * a.dv) + r * r64 a.kb + r * 512 + a.nq * a.kb * 4 + a.kb * 512
    + a.nh * a.nq * r64 (a.dv * 4) + r64 (a.nh * a.nq * 8)

/-- Key blocks of the budget (R213). -/
def attnBlocks (maxLen : Nat) (a : AttnD) : Nat := if a.mode = 1 then 1 else ceilDiv maxLen a.kb

/-- Budget of ATTN_BLOCK in bit-steps on contexts of LATENT_W r, MAX_LEN maxLen and SLOT slot (R213). -/
def attnBudget (r maxLen slot : Nat) (a : AttnD) : Nat :=
  let stage := a.kb * slot / 64 + a.kb / 8
  let exp := 1 + 8 * r + 512
  let score := 1 + 8 * a.dk + 512
  let pv := 1 + 8 * a.kb + 512
  let vk := ceilDiv a.kb 64
  let vd := ceilDiv a.dv 64
  let tidy := ceilDiv (a.nq * vk * 12 + a.nq * 12 + a.nq * vd * 6) 2
  let fin := ceilDiv (a.nq * vd * 5) 2
  64 + attnBlocks maxLen a * (stage + exp + exp + a.nh * (score + pv + tidy)) + a.nh * fin

/-- The float formats of R165 that attention takes. -/
def floatFmt (fmt : Nat) : Bool := 5 ≤ fmt && fmt ≤ 7

/-- Overlap rules of R214 for LATENT_W r: the output and the scratch area against what is read, and against each other. -/
def attnOverlap (r : Nat) (a : AttnD) : Bool :=
  let o := attnOut 0 a
  let s : Buf := { base := boltAddr 0 a.scratch, extent := a.scratchSize - 32, unit := 2 }
  anyOverlap [o, s] (attnIns 0 r a)

/-- The checks of ATTN_BLOCK that read the descriptor alone (R214): 0 where it passes. [DESIGN CHOICE, log entry 50] -/
def checkAttn (d : List Byte) : Nat :=
  let a := attnD d
  let offs := [a.q, a.qs, a.qpos, a.wuk, a.wukRs, a.wuv, a.wuvCs, a.vs, a.scratch, a.out]
  if [a.nh, a.kb, a.nq, a.dk, a.dv, a.qpc, a.nctx, a.scratchSize, a.outStride].any (· == 0) then St.ZERO_FIELD
  else if 1 < a.mode || !floatFmt a.fmt || bitOf (le d 16 1) 3 || !zeroBytes d 80 127 || (a.causal && a.mode == 1)
      || (a.causal != (a.qpos != 0)) || a.kb % 64 != 0 || offs.any (fun o => o / 2 ^ 22 != 0)
      || (a.outStride :: offs).any (fun o => o % 64 != 0) || attnOverlap 0 a then St.BAD_FORMAT
  else if 16 < a.nh || a.kb < 64 || 512 < a.kb || 512 < a.nq || 512 < a.dk || 512 < a.dv || 512 < a.nh * a.dk || 512 < a.nh * a.dv
      || (a.mode == 0 && (a.qpc != 1 || a.nctx != 1)) || (a.mode == 1 && (512 < a.nctx || a.nq != a.nctx * a.qpc || 65536 < a.ctx + a.nctx))
      || a.outStride < a.dv * floatBytes a.fmt || a.scratchSize < attnScratch 0 a || 0x400000 < a.scratch + a.scratchSize
      || (attnOut 0 a :: attnIns 0 0 a).any (fun b => !boltFits (b.base - boltAddr 0 0) b.extent) then St.OUT_OF_LIMIT
  else 0

/-- The checks of ATTN_BLOCK that need LATENT_W, made when it starts (R212, R214): 0 where they pass. -/
def checkAttnStart (r : Nat) (d : List Byte) : Nat :=
  let a := attnD d
  if attnOverlap r a then St.BAD_FORMAT
  else if a.scratchSize < attnScratch r a || (attnIns 0 r a).any (fun b => !boltFits (b.base - boltAddr 0 0) b.extent) then St.OUT_OF_LIMIT
  else 0

/-! ### DECODE_BATCH -/

/-- A DECODE_BATCH descriptor, decoded (R216). -/
structure DecodeD where
  qfmt : Nat
  fmt : Nat
  nh : Nat
  w : Nat
  n : Nat
  list : Bool
  both : Bool
  first : Nat
  listOff : Nat
  q : Nat
  scale : Nat
  out : Nat
  scratch : Nat
  deriving DecidableEq, Repr

/-- Decode a DECODE_BATCH descriptor (R216). -/
def decodeD (d : List Byte) : DecodeD :=
  let b := le d 16 1
  let c := le d 22 1
  { qfmt := b % 16, fmt := b / 16, nh := le d 17 1, w := le d 18 2, n := le d 20 2, list := bitOf c 0, both := bitOf c 1,
    first := le d 24 2, listOff := le d 28 4, q := le d 32 4, scale := le d 36 4, out := le d 40 4, scratch := le d 44 4 }

/-- Stride of one head's vector in an element format (R216). -/
def decodeStride (fmt w : Nat) : Nat := roundUp (w * floatBytes fmt) 64

/-- The inputs of DECODE_BATCH: the list, then the queries. -/
def decodeIns (g : Nat) (a : DecodeD) : List Buf :=
  (if a.list then [{ base := boltAddr g a.listOff, extent := roundUp (a.n * 2) 64, unit := 2 }] else [])
  ++ [{ base := boltAddr g a.q, extent := a.n * a.nh * decodeStride a.qfmt a.w, unit := 2 }]

/-- The output of DECODE_BATCH. -/
def decodeOut (g : Nat) (a : DecodeD) : Buf :=
  { base := boltAddr g a.out, extent := a.n * a.nh * decodeStride a.fmt a.w, unit := 2,
    rows := strideRows (a.n * a.nh) (decodeStride a.fmt a.w) (a.w * floatBytes a.fmt) }

/-- The scratch area's size (R216). -/
def decodeScratch (a : DecodeD) : Nat := (if a.both then 2 else 1) * roundUp (a.nh * (a.w + 2) * 4) 64

/-- The contexts of DECODE_BATCH on core g by entry, with what the list holds now. -/
def State.decodeCtxs (s : State) (g : Nat) (a : DecodeD) : List Nat :=
  (List.range a.n).map fun k => if a.list then leNat (s.peek (boltAddr g (a.listOff + 2 * k)) 2) else a.first + k

/-- Bit-steps of one attended token (R217). -/
def decodeTok (a : DecodeD) : Nat := a.nh * (3 * ceilDiv a.w 64 + 12)

/-- Bit-steps of one context of MAX_LEN maxLen and SLOT slot (R217). -/
def decodePerCtx (a : DecodeD) (maxLen slot : Nat) : Nat :=
  max (maxLen * decodeTok a) (maxLen * slot / 64 + ceilDiv maxLen 8) + a.nh * (4 * ceilDiv a.w 64 + 16)

/-- Budget of DECODE_BATCH in bit-steps, on the longest context (R217). -/
def decodeBudget (a : DecodeD) (perCtx : Nat) : Nat := 64 + ceilDiv a.n (if a.both then 2 else 1) * perCtx

/-- The checks of DECODE_BATCH on its descriptor (R218): 0 where it passes. -/
def checkDecode (d : List Byte) : Nat :=
  let a := decodeD d
  let offs := [a.listOff, a.q, a.out, a.scratch]
  let scr : Buf := { base := boltAddr 0 a.scratch, extent := decodeScratch a - 32, unit := 2 }
  if a.nh = 0 ∨ a.w = 0 ∨ a.n = 0 then St.ZERO_FIELD
  else if !floatFmt a.qfmt || !floatFmt a.fmt || bits (le d 22 1) 7 2 != 0 || !zeroBytes d 23 23 || !zeroBytes d 26 27 || !zeroBytes d 48 63
      || (a.list && a.first != 0) || (!a.list && a.listOff != 0) || offs.any (fun o => o / 2 ^ 22 != 0) || offs.any (fun o => o % 64 != 0)
      || anyOverlap [decodeOut 0 a, scr] (decodeIns 0 a) then St.BAD_FORMAT
  else if 64 < a.nh || 4096 < a.n || (!a.list && 65536 < a.first + a.n) || 0x400000 < a.scratch + decodeScratch a
      || (decodeOut 0 a :: decodeIns 0 a).any (fun b => !boltFits (b.base - boltAddr 0 0) b.extent) then St.OUT_OF_LIMIT
  else 0

end Sys2Proof.Machine
end

