-- ==== Sys2Proof/Machine/ConvDesc.lean ====
section
/-!
DEFINITION. CONV_TILE and FUSED_TILES descriptors (R143, R150, R151): one layer record for both, the geometry of
R123 to R128, footprints (R134), budgets (R136, R140), the regions of R146 and the work area of R148, the checks of R145.
-/
namespace Sys2Proof.Machine

/-- One convolution or pooling layer over one tile: a CONV_TILE command, or one stage of FUSED_TILES. -/
structure Layer where
  kind : Nat
  wSigned : Bool
  pSigned : Bool
  padMode : Nat
  bits : Nat
  avgIn : Bool
  both : Bool
  fmt : Nat
  rnd : Nat
  ovfMark : Bool
  cin : Bool
  argmax : Bool
  argmaxOnly : Bool
  fh : Nat
  fw : Nat
  sy : Nat
  sx : Nat
  dy : Nat
  dx : Nat
  padT : Nat
  padB : Nat
  padL : Nat
  padR : Nat
  inH : Nat
  inW : Nat
  cIn : Nat
  cOut : Nat
  y0 : Nat
  x0 : Nat
  tileH : Nat
  tileW : Nat
  runLen : Nat
  padVal : Nat
  gIn : Nat
  gOut : Nat
  outZero : Nat
  storeY0 : Nat
  storeX0 : Nat
  storeH : Nat
  storeW : Nat
  inOff : Nat
  rowStride : Nat
  chStride : Nat
  weft : Nat
  cinOff : Nat
  cinStride : Nat
  out : Nat
  outStride : Nat
  rowScale : Nat
  colScale : Nat
  argmaxOff : Nat
  deriving DecidableEq, Repr

/-- Decode a CONV_TILE descriptor (R143). -/
def convLayer (d : List Byte) : Layer :=
  let b16 := le d 16 1
  let b17 := le d 17 1
  let b18 := le d 18 1
  let b19 := le d 19 1
  let b20 := le d 20 1
  let b21 := le d 21 1
  { kind := b16 % 16, wSigned := bitOf b16 4, pSigned := bitOf b16 5, padMode := bits b16 7 6, bits := b17 % 32,
    avgIn := bitOf b17 5, both := bitOf b17 6, fmt := b18 % 16, rnd := bits b18 5 4, ovfMark := bitOf b18 6,
    cin := bitOf b18 7, argmax := bitOf b19 0, argmaxOnly := bitOf b19 1, fh := b20 % 16, fw := b20 / 16,
    sy := b21 % 16, sx := b21 / 16, dy := le d 22 1 % 64, dx := le d 23 1 % 64, padT := le d 24 1, padB := le d 25 1,
    padL := le d 26 1, padR := le d 27 1, inH := le d 28 2, inW := le d 30 2, cIn := le d 32 2, cOut := le d 34 2,
    y0 := le d 36 2, x0 := le d 38 2, tileH := le d 40 2, tileW := le d 42 2, runLen := le d 44 2, padVal := le d 46 1,
    gIn := le d 47 1, gOut := le d 48 1, outZero := le d 50 2, storeY0 := le d 52 2, storeX0 := le d 54 2,
    storeH := le d 56 2, storeW := le d 58 2, inOff := le d 60 4, rowStride := le d 64 4, chStride := le d 68 4,
    weft := le d 72 4, cinOff := le d 76 4, cinStride := le d 80 4, out := le d 84 4, outStride := le d 88 4,
    rowScale := le d 92 4, colScale := le d 96 4, argmaxOff := le d 100 4 }

/-! ### Geometry -/

/-- The output length of an axis (R124), which may be 0 or less. -/
def outLen (n a b f s d : Nat) : Int :=
  ((n + a + b : Nat) - ((d * (f - 1) : Nat) : Int) - 1).fdiv (s : Int) + 1

/-- Output height of a layer. -/
def Layer.outH (l : Layer) : Int := outLen l.inH l.padT l.padB l.fh l.sy l.dy
/-- Output width of a layer. -/
def Layer.outW (l : Layer) : Int := outLen l.inW l.padL l.padR l.fw l.sx l.dx

/-- The mirror index of R127. -/
def mirror (v : Int) (n : Nat) : Nat :=
  if n ≤ 1 then 0
  else
    let per : Int := 2 * ((n : Int) - 1)
    let m := v % per
    if (n : Int) ≤ m then (per - m).toNat else m.toNat

/-- An index of an axis after padding (R126): the in-image index, or none where the padding value stands. -/
def resolveIndex (mode : Nat) (v : Int) (n : Nat) : Option Nat :=
  if 0 ≤ v ∧ v < n then some v.toNat
  else match mode with
    | 2 => some (mirror v n)
    | 3 => some (if v < 0 then 0 else n - 1)
    | _ => none

/-- The input index that output position o reads through tap t (R125). -/
def tapIndex (o s a t d : Nat) : Int := (o * s : Nat) - (a : Int) + (t * d : Nat)

/-- Every in-image index that outputs o0 to o0 + len − 1 of an axis read. -/
def axisReads (mode n o0 len s a f d : Nat) : List Nat :=
  (List.range len).flatMap fun o => (List.range f).filterMap fun t => resolveIndex mode (tapIndex (o0 + o) s a t d) n

/-- Some in-image index that the tile reads lies outside the stored region (R131). -/
def Layer.unstored (l : Layer) : Bool :=
  let ys := axisReads l.padMode l.inH l.y0 l.tileH l.sy l.padT l.fh l.dy
  let xs := axisReads l.padMode l.inW l.x0 l.tileW l.sx l.padL l.fw l.dx
  !ys.isEmpty && !xs.isEmpty &&
    (ys.any (fun y => y < l.storeY0 || l.storeY0 + l.storeH ≤ y) || xs.any (fun x => x < l.storeX0 || l.storeX0 + l.storeW ≤ x))

/-- Positions of the tile. -/
def Layer.positions (l : Layer) : Nat := l.tileH * l.tileW

/-- Runs of the tile (R129). -/
def Layer.runs (l : Layer) : Nat := ceilDiv l.positions l.runLen

/-- First position and length of run r. -/
def Layer.run (l : Layer) (r : Nat) : Nat × Nat := (r * l.runLen, min l.runLen (l.positions - r * l.runLen))

/-- The footprint of a run for one channel, in bytes (R134). -/
def Layer.footprint (l : Layer) (r : Nat) : Nat :=
  let q0 := (l.run r).1
  let q1 := q0 + (l.run r).2 - 1
  let ya := q0 / l.tileW
  let yb := q1 / l.tileW
  let xlo := if ya = yb then q0 % l.tileW else 0
  let xhi := if ya = yb then q1 % l.tileW else l.tileW - 1
  ((yb - ya) * l.sy + l.dy * (l.fh - 1) + 1) * ((xhi - xlo) * l.sx + l.dx * (l.fw - 1) + 1)

/-- The largest footprint of the layer's runs. -/
def Layer.fpMax (l : Layer) : Nat := (List.range l.runs).foldl (fun m r => max m (l.footprint r)) 0

/-- K of a dense run (R129). -/
def Layer.k (l : Layer) : Nat := l.cIn * l.fh * l.fw

/-- Bytes of an output element. -/
def Layer.e (l : Layer) : Nat := (outBytes l.fmt).getD 0

/-- Budget of one run in bit-steps (R136, R140). -/
def Layer.runBudget (l : Layer) : Nat :=
  let fp := l.fpMax
  let fill := ceilDiv fp 64
  if l.kind = 0 then
    fill + (if l.cin then 512 else 1) + l.cIn * max (l.fh * l.fw * widthSteps l.bits) fill + 512
  else
    let u := if l.both then 2 else 1
    let work := l.cOut * l.runLen * l.fh * l.fw * l.gIn
    fill + max (ceilDiv work (256 * u)) (ceilDiv (l.cIn * fp) 64) + 64

/-- Budget of the layer: every run. -/
def Layer.budget (l : Layer) : Nat := l.runs * l.runBudget

/-! ### Buffers (R144) -/

/-- The layer's own inputs after the image: weights, C-in, scale tables. -/
def Layer.tables (g : Nat) (l : Layer) : List Buf :=
  (if l.kind = 0 then [{ base := boltAddr g l.weft, extent := l.k * l.bits * 64, unit := 1 }]
   else if l.kind = 1 then [{ base := boltAddr g l.weft, extent := l.cOut * l.gIn * 128, unit := 1 }] else [])
  ++ (if l.cin then [{ base := boltAddr g l.cinOff, extent := l.cOut * l.cinStride, unit := 1 }] else [])
  ++ (if l.rowScale ≠ 0 then [{ base := boltAddr g l.rowScale, extent := roundUp (l.cOut * 4) 64, unit := 1 }] else [])
  ++ (if l.colScale ≠ 0 then [{ base := boltAddr g l.colScale, extent := roundUp (l.positions * 4) 64, unit := 1 }] else [])

/-- The image buffer. -/
def Layer.image (g : Nat) (l : Layer) : Buf := { base := boltAddr g l.inOff, extent := l.cIn * l.chStride, unit := 1 }

/-- The outputs. -/
def Layer.outs (g : Nat) (l : Layer) : List Buf :=
  (if l.argmaxOnly then [] else
    [{ base := boltAddr g l.out, extent := l.cOut * l.outStride, unit := 1, rows := strideRows l.cOut l.outStride (l.positions * l.e) }])
  ++ (if l.argmax then [{ base := boltAddr g l.argmaxOff, extent := roundUp (l.positions * 2) 64, unit := 1, rows := [(0, l.positions * 2)] }] else [])

/-- The inputs of CONV_TILE in descriptor order. -/
def convIns (g : Nat) (d : List Byte) : List Buf := (convLayer d).image g :: (convLayer d).tables g

/-- The outputs of CONV_TILE. -/
def convOuts (g : Nat) (d : List Byte) : List Buf := (convLayer d).outs g

/-! ### Checks (R145), by order, on one layer -/

/-- Order 2 of a layer's own fields: a field that may not be 0 is 0. -/
def Layer.zero (l : Layer) : Bool :=
  [l.fh, l.fw, l.sy, l.sx, l.dy, l.dx, l.inH, l.inW, l.cIn, l.cOut, l.tileH, l.tileW, l.runLen, l.storeH, l.storeW, l.bits, l.gIn, l.gOut, l.rowStride, l.chStride].any (· == 0)
  || (l.outStride == 0 && !l.argmaxOnly) || (l.cin && l.cinStride == 0)

/-- Order 3: formats, kinds, the rules of R74, R77, R133, R137 to R139. -/
def Layer.badForm (l : Layer) : Bool :=
  let e := outBytes l.fmt
  3 < l.kind || e.isNone || 1 < l.rnd
  || (if l.kind == 0 then !weftWidthOk l.bits else l.bits != 8)
  || (l.fmt == 0 && (l.rowScale != 0 || l.colScale != 0)) || ((l.fmt == 0 || 4 ≤ l.fmt) && (l.outZero != 0 || l.rnd != 0))
  || (2 ≤ l.kind && (l.weft != 0 || l.cOut != l.cIn || l.rowScale != 0 || l.colScale != 0 || l.outZero != 0 || l.fmt != (if l.pSigned then 1 else 2)))
  || (l.kind != 1 && (l.gIn != 1 || l.gOut != 1))
  || (l.kind == 1 && (l.cIn % l.gIn != 0 || l.cOut % l.gOut != 0 || l.cIn / l.gIn != l.cOut / l.gOut))
  || (l.cin && l.kind != 0) || (!l.cin && (l.cinOff != 0 || l.cinStride != 0))
  || (l.argmaxOnly && (!l.argmax || l.out != 0 || l.outStride != 0)) || (!l.argmax && l.argmaxOff != 0)
  || l.runLen * e.getD 0 % 64 != 0

/-- Order 4: an output length of 0 or less. -/
def Layer.empty (l : Layer) : Bool := l.outH ≤ 0 || l.outW ≤ 0

/-- Order 5: the limits of R123, R66, R131, R134 and of the descriptor. A fused stage's region is its tile here, TILE_H × TILE_W ≤ 65,536
included; a stage whose region is empty has no tile to lie beyond its output. [DESIGN CHOICE, log entry 107] -/
def Layer.beyond (l : Layer) : Bool :=
  9 < l.fh || 9 < l.fw || 8 < l.sy || 8 < l.sx || 32 < l.dy || 32 < l.dx || 16384 < l.inH || 16384 < l.inW || 512 < l.cOut
  || 65536 < l.positions || 512 < l.runLen || 64 < l.gIn || 64 < l.gOut
  || (l.kind == 0 && 32768 < l.k * widthSteps l.bits)
  || (l.positions != 0 && (l.outH < (l.y0 + l.tileH : Nat) || l.outW < (l.x0 + l.tileW : Nat)))
  || l.unstored || 196608 < 2 * l.fpMax
  || l.rowStride < l.storeW || l.chStride < l.storeH * l.rowStride || (!l.argmaxOnly && l.outStride < l.positions * l.e)

/-- The descriptor checks of CONV_TILE, orders 2 to 5 of R145: 0 where it passes. -/
def checkConv (d : List Byte) : Nat :=
  let l := convLayer d
  let ins := convIns 0 d
  let outs := convOuts 0 d
  let offs := [l.inOff, l.weft, l.cinOff, l.out, l.rowScale, l.colScale, l.argmaxOff]
  if l.zero then St.ZERO_FIELD
  else if l.badForm || bitOf (le d 17 1) 7 || bits (le d 19 1) 7 2 != 0 || bits (le d 22 1) 7 6 != 0 || bits (le d 23 1) 7 6 != 0
      || !zeroBytes d 49 49 || !zeroBytes d 104 127 || offs.any (fun o => o / 2 ^ 22 != 0)
      || (offs ++ [l.chStride, l.cinStride, l.outStride]).any (fun o => o % 64 != 0) || anyOverlap outs ins then St.BAD_FORMAT
  else if l.empty then St.EMPTY_OUTPUT
  else if l.beyond || (ins ++ outs).any (fun b => !boltFits (b.base - boltAddr 0 0) b.extent) then St.OUT_OF_LIMIT
  else 0

/-! ### FUSED_TILES -/

/-- A FUSED_TILES descriptor's own fields (R150). -/
structure FusedD where
  n : Nat
  pSigned : Bool
  argmax : Bool
  argmaxOnly : Bool
  inH : Nat
  inW : Nat
  cIn : Nat
  runLen : Nat
  storeY0 : Nat
  storeX0 : Nat
  storeH : Nat
  storeW : Nat
  y0 : Nat
  x0 : Nat
  tileH : Nat
  tileW : Nat
  inOff : Nat
  rowStride : Nat
  chStride : Nat
  stageOff : Nat
  workOff : Nat
  workSize : Nat
  out : Nat
  outStride : Nat
  argmaxOff : Nat
  deriving DecidableEq, Repr

/-- Decode a FUSED_TILES descriptor (R150). -/
def fusedD (d : List Byte) : FusedD :=
  let b := le d 16 1
  { n := b % 8, pSigned := bitOf b 3, argmax := bitOf b 4, argmaxOnly := bitOf b 5, inH := le d 20 2, inW := le d 22 2,
    cIn := le d 24 2, runLen := le d 26 2, storeY0 := le d 28 2, storeX0 := le d 30 2, storeH := le d 32 2,
    storeW := le d 34 2, y0 := le d 36 2, x0 := le d 38 2, tileH := le d 40 2, tileW := le d 42 2, inOff := le d 44 4,
    rowStride := le d 48 4, chStride := le d 52 4, stageOff := le d 56 4, workOff := le d 60 4, workSize := le d 64 4,
    out := le d 68 4, outStride := le d 72 4, argmaxOff := le d 76 4 }

/-- The stage record of R151 as a layer whose tile, input and output are still to be set. -/
def stageLayer (r : List Byte) : Layer :=
  let b0 := le r 0 1
  let b1 := le r 1 1
  let b2 := le r 2 1
  { kind := b0 % 16, wSigned := bitOf b0 4, pSigned := false, padMode := bits b0 7 6, bits := b1 % 32, avgIn := bitOf b0 5,
    both := bitOf b1 5, fmt := b2 % 16, rnd := bits b2 5 4, ovfMark := bitOf b2 6, cin := false, argmax := false,
    argmaxOnly := false, fh := le r 3 1 % 16, fw := le r 3 1 / 16, sy := le r 4 1 % 16, sx := le r 4 1 / 16,
    dy := le r 5 1 % 64, dx := le r 6 1 % 64, padT := le r 8 1, padB := le r 9 1, padL := le r 10 1, padR := le r 11 1,
    inH := 0, inW := 0, cIn := 0, cOut := le r 12 2, y0 := 0, x0 := 0, tileH := 0, tileW := 0, runLen := 0,
    padVal := le r 7 1, gIn := le r 14 1, gOut := le r 15 1, outZero := le r 16 2, storeY0 := 0, storeX0 := 0,
    storeH := 0, storeW := 0, inOff := 0, rowStride := 0, chStride := 0, weft := le r 20 4, cinOff := 0, cinStride := 0,
    out := 0, outStride := 0, rowScale := le r 24 4, colScale := 0, argmaxOff := 0 }

/-- A stage record keeps its reserved bits and bytes zero. -/
def stageReservedOk (r : List Byte) : Bool :=
  bits (le r 1 1) 7 6 == 0 && !bitOf (le r 2 1) 7 && bits (le r 5 1) 7 6 == 0 && bits (le r 6 1) 7 6 == 0 && zeroBytes r 18 19 && zeroBytes r 28 63

/-- Image sizes and channels carried forward through the stages: a stage's image is the full output of the one before (R146). -/
def chainImages (runLen : Nat) : Nat → Nat → Nat → Bool → List Layer → List Layer
  | _, _, _, _, [] => []
  | h, w, c, sg, l :: t =>
    let l := { l with inH := h, inW := w, cIn := c, pSigned := sg, runLen := runLen }
    l :: chainImages runLen l.outH.toNat l.outW.toNat l.cOut (l.fmt == 1) t

/-- The region of one axis that the stage before must compute: low and high index, high below low where it is empty (R146). -/
def regionBefore (lo hi s a d f n : Int) : Int × Int := (max (lo * s - a) 0, min (hi * s - a + d * (f - 1)) (n - 1))

/-- Regions (ylo, yhi, xlo, xhi) of every stage, from the last stage's tile backwards. -/
def chainRegions : Int → Int → Int → Int → List Layer → List (Int × Int × Int × Int)
  | _, _, _, _, [] => []
  | ylo, yhi, xlo, xhi, l :: t =>
    let y := regionBefore ylo yhi l.sy l.padT l.dy l.fh l.inH
    let x := regionBefore xlo xhi l.sx l.padL l.dx l.fw l.inW
    (ylo, yhi, xlo, xhi) :: chainRegions y.1 y.2 x.1 x.2 t

/-- A region's length on one axis. -/
def regionLen (lo hi : Int) : Nat := (hi - lo + 1).toNat

/-- Bytes of one channel of an intermediate (R148). -/
def planeBytes (r : Int × Int × Int × Int) : Nat := roundUp (regionLen r.1 r.2.1 * regionLen r.2.2.1 r.2.2.2) 64

/-- Set each stage's tile, input and output: stage st (from 1) of n, with what each stage before it left (region and slot base). -/
def chainPlace (f : FusedD) (slot : Nat → Nat) : Nat → Option (Int × Int × Int × Int) → List (Layer × (Int × Int × Int × Int)) → List Layer
  | _, _, [] => []
  | st, before, (l, r) :: t =>
    let l := { l with y0 := r.1.toNat, x0 := r.2.2.1.toNat, tileH := regionLen r.1 r.2.1, tileW := regionLen r.2.2.1 r.2.2.2 }
    let l := match before with
      | none => { l with storeY0 := f.storeY0, storeX0 := f.storeX0, storeH := f.storeH, storeW := f.storeW, inOff := f.inOff, rowStride := f.rowStride, chStride := f.chStride }
      | some b => { l with storeY0 := b.1.toNat, storeX0 := b.2.2.1.toNat, storeH := regionLen b.1 b.2.1, storeW := regionLen b.2.2.1 b.2.2.2, inOff := slot (st - 1), rowStride := regionLen b.2.2.1 b.2.2.2, chStride := planeBytes b }
    let l := if t.isEmpty then { l with argmax := f.argmax, argmaxOnly := f.argmaxOnly, out := f.out, outStride := f.outStride, argmaxOff := f.argmaxOff }
      else { l with out := slot st, outStride := planeBytes r }
    l :: chainPlace f slot (st + 1) (some r) t

/-- The size of a work slot: the largest intermediate assigned to it, rounded up to 64 (R148). -/
def slotSize (p : Nat) : Nat → List (Layer × (Int × Int × Int × Int)) → Nat
  | _, [] => 0
  | _, [_] => 0
  | st, (l, r) :: t => max (if st % 2 = p then roundUp (l.cOut * planeBytes r) 64 else 0) (slotSize p (st + 1) t)

/-- The stages of FUSED_TILES as layers, from the descriptor and the stage table's bytes (R146, R148). -/
def fusedLayers (d table : List Byte) : List Layer :=
  let f := fusedD d
  let ls := (List.range f.n).map fun i => stageLayer (slice table (64 * i) 64)
  let ls := chainImages f.runLen f.inH f.inW f.cIn f.pSigned ls
  let rs := (chainRegions f.y0 (f.y0 + f.tileH - 1 : Int) f.x0 (f.x0 + f.tileW - 1 : Int) ls.reverse).reverse
  let zs := ls.zip rs
  let s1 := slotSize 1 1 zs
  chainPlace f (fun st => if st % 2 = 1 then f.workOff else f.workOff + s1) 1 none zs

/-- The bytes that the two work slots need (R148). -/
def fusedWork (d table : List Byte) : Nat :=
  let f := fusedD d
  let ls := (List.range f.n).map fun i => stageLayer (slice table (64 * i) 64)
  let ls := chainImages f.runLen f.inH f.inW f.cIn f.pSigned ls
  let rs := (chainRegions f.y0 (f.y0 + f.tileH - 1 : Int) f.x0 (f.x0 + f.tileW - 1 : Int) ls.reverse).reverse
  slotSize 1 1 (ls.zip rs) + slotSize 0 1 (ls.zip rs)

/-- The stage table as a buffer (R151). -/
def fusedTable (g : Nat) (d : List Byte) : Buf := { base := boltAddr g (fusedD d).stageOff, extent := (fusedD d).n * 64, unit := 1 }

/-- The inputs of FUSED_TILES: stage table, image, and each stage's weights and row scales. -/
def fusedIns (g : Nat) (d table : List Byte) : List Buf :=
  let f := fusedD d
  [fusedTable g d, { base := boltAddr g f.inOff, extent := f.cIn * f.chStride, unit := 1 }] ++ (fusedLayers d table).flatMap (Layer.tables g)

/-- The outputs of FUSED_TILES: the last stage's. -/
def fusedOuts (g : Nat) (d table : List Byte) : List Buf :=
  match (fusedLayers d table).getLast? with
  | some l => l.outs g
  | none => []

/-- Budget of FUSED_TILES (R149). -/
def fusedBudget (d table : List Byte) : Nat := (fusedLayers d table).foldl (fun a l => a + l.budget) 0

/-- The checks of FUSED_TILES that read the descriptor alone, orders 2 and 3 of R145 and the limits of its own fields. -/
def checkFused (d : List Byte) : Nat :=
  let f := fusedD d
  let offs := [f.inOff, f.stageOff, f.workOff, f.out, f.argmaxOff]
  if [f.n, f.inH, f.inW, f.cIn, f.runLen, f.storeH, f.storeW, f.tileH, f.tileW, f.rowStride, f.chStride, f.workSize].any (· == 0)
      || (f.outStride == 0 && !f.argmaxOnly) then St.ZERO_FIELD
  else if bits (le d 16 1) 7 6 != 0 || !zeroBytes d 17 19 || !zeroBytes d 80 127 
      || (f.argmaxOnly && (!f.argmax || f.out != 0 || f.outStride != 0)) || (!f.argmax && f.argmaxOff != 0)
      || offs.any (fun o => o / 2 ^ 22 != 0) || (offs ++ [f.chStride, f.outStride]).any (fun o => o % 64 != 0) then St.BAD_FORMAT
  else if f.n < 2 || 4 < f.n || 16384 < f.inH || 16384 < f.inW || 512 < f.runLen || 65536 < f.tileH * f.tileW || f.rowStride < f.storeW || f.chStride < f.storeH * f.rowStride
      || 0x400000 < f.workOff + f.workSize || !boltFits f.inOff (f.cIn * f.chStride) || !boltFits f.stageOff (f.n * 64) then St.OUT_OF_LIMIT
  else 0

/-- Stage 1 reads rows and columns need_lo to need_hi of its image, all of which must be stored (R146), where neither range is empty. -/
def needUnstored (f : FusedD) (l : Layer) : Bool :=
  let y := regionBefore l.y0 (l.y0 + l.tileH - 1 : Int) l.sy l.padT l.dy l.fh l.inH
  let x := regionBefore l.x0 (l.x0 + l.tileW - 1 : Int) l.sx l.padL l.dx l.fw l.inW
  l.positions != 0 && decide (y.1 ≤ y.2) && decide (x.1 ≤ x.2)
    && (y.1 < f.storeY0 || (f.storeY0 + f.storeH : Nat) ≤ y.2 || x.1 < f.storeX0 || (f.storeX0 + f.storeW : Nat) ≤ x.2)

/-- The checks of FUSED_TILES that read its stage table (R145 for every stage, R146 to R149), made when it starts: 0 where they pass. A mirrored
or repeated index that a stage reads outside the region computed before it is an index outside what is stored (R131). [DEDUCED, log entry 113] -/
def checkFusedStart (width : Nat) (d table : List Byte) : Nat :=
  let f := fusedD d
  let ls := fusedLayers d table
  let ins := fusedIns 0 d table
  let outs := fusedOuts 0 d table
  let work : Buf := { base := boltAddr 0 f.workOff, extent := f.workSize - 32, unit := 1 }
  let own := ls.map fun l => { l with inH := max 1 l.inH, inW := max 1 l.inW, tileH := max 1 l.tileH, tileW := max 1 l.tileW, storeH := max 1 l.storeH, storeW := max 1 l.storeW, rowStride := max 1 l.rowStride, chStride := max 1 l.chStride, outStride := if l.argmaxOnly then 0 else max 64 l.outStride }
  if own.any Layer.zero then St.ZERO_FIELD
  else if own.any Layer.badForm || (List.range f.n).any (fun i => !stageReservedOk (slice table (64 * i) 64))
      || ls.any (fun l => l.weft / 2 ^ 22 != 0 || l.rowScale / 2 ^ 22 != 0 || l.weft % 64 != 0 || l.rowScale % 64 != 0)
      || ls.dropLast.any (fun l => l.fmt != 1 && l.fmt != 2)
      || anyOverlap (work :: outs) ins || anyOverlap outs [work] then St.BAD_FORMAT
  else if ls.any Layer.empty then St.EMPTY_OUTPUT
  else if ls.any Layer.beyond || ls.head?.any (needUnstored f) || f.workSize < fusedWork d table || 237500 < fusedBudget d table
      || (ins ++ outs).any (fun b => !boltFits (b.base - boltAddr 0 0) b.extent) then St.OUT_OF_LIMIT
  else if ls.any (fun l => l.kind == 0) && width < f.runLen then St.PLAN_WIDTH
  else 0

end Sys2Proof.Machine
end

