-- ==== Sys2Proof/Machine/MoveDesc.lean ====
section
/-!
DEFINITION. MOVE (R253 to R258): descriptor, extents, checks, budget; and the descriptors and descriptor checks of the
commands that hold no core unit: FENCE (R282), SIGNAL (R283), WAIT_TIME (R379, R380), PUBLISH (R390, R393), STATS_READ
(R353), SENSOR_WRITE (R354), DIGEST (R433, R435).
-/
namespace Sys2Proof.Machine

/-- A MOVE descriptor, decoded (R254). -/
structure MoveD where
  mode : Nat
  esz : Nat
  decrypt : Bool
  selvage : Nat
  key : Nat
  rows : Nat
  rowBytes : Nat
  srcStride : Nat
  src : Nat
  dst : Nat
  dstStride : Nat
  iv : Nat
  deriving DecidableEq, Repr

/-- Decode a MOVE descriptor (R254). -/
def moveD (d : List Byte) : MoveD :=
  let b := le d 16 1
  { mode := b % 4, esz := bits b 3 2, decrypt := bitOf b 4, selvage := bits b 6 5, key := le d 17 1 % 16, rows := le d 20 4,
    rowBytes := le d 24 4, srcStride := le d 28 4, src := le d 32 5, dst := le d 40 5, dstStride := le d 48 4, iv := le d 52 12 }

/-- Element bytes of MOVE. -/
def MoveD.e (m : MoveD) : Nat := 2 ^ m.esz
/-- Elements of a source row in MODE 2. -/
def MoveD.c (m : MoveD) : Nat := m.rowBytes / m.e

/-- The source extent (R254); the tag of a DECRYPT is part of it. -/
def MoveD.srcExtent (m : MoveD) : Nat :=
  if m.mode = 0 then m.rowBytes + (if m.decrypt then 16 else 0) else (m.rows - 1) * m.srcStride + m.rowBytes

/-- The destination extent (R254). -/
def MoveD.dstExtent (m : MoveD) : Nat :=
  if m.mode = 0 then m.rowBytes
  else if m.mode = 1 then (m.rows - 1) * m.dstStride + m.rowBytes
  else (m.c - 1) * m.dstStride + m.rows * m.e

/-- The first address past the region of R27 that holds an address. -/
def regionEnd (a : Nat) : Nat :=
  if a < 0x1000000000 then 0x1000000000
  else if a < 0x1020000000 then a / 0x1000000 * 0x1000000 + 0x1000000
  else if a < 0x2000000000 then 0x2000000000
  else if a < 0x2000200000 then 0x2000200000
  else if a < 0x3000000000 then 0x3000000000
  else if a < 0x3004000000 then 0x3004000000
  else if a < 0x4000000000 then 0x4000000000
  else if a < 0x4004000000 then 0x4004000000
  else if a < 0x5000000000 then 0x5000000000
  else if a < 0x5010000000 then 0x5010000000
  else if a < 0x8000000000 then 0x8000000000
  else if a < 0xC000000000 then a / 0x1000000000 * 0x1000000000 + 0x1000000000
  else 0x10000000000

/-- The bytes an extent takes with its selvage, if it has one (R419). -/
def withSelvage (n : Nat) (sel : Bool) : Nat := if sel then roundUp n 64 + 32 else n

/-- An extent with its selvage ends within its region of R27. -/
def inRegion (a n : Nat) (sel : Bool) : Bool := a + withSelvage n sel ≤ regionEnd a

/-- The source as a selvage-carrying buffer, under SELVAGE 1 (R255). -/
def moveIn (m : MoveD) : List Buf := if m.selvage = 1 then [{ base := m.src, extent := m.srcExtent, unit := 4 }] else []

/-- The destination as a selvage-carrying buffer, under SELVAGE 1 or 2; bytes between rows are left as they are (R255). -/
def moveOut (m : MoveD) : List Buf := if m.selvage = 0 then [] else [{ base := m.dst, extent := m.dstExtent, unit := 4 }]

/-- The descriptor checks of MOVE, orders 2 to 4 of R258: 0 where it passes. [DESIGN CHOICE, log entry 50] -/
def checkMove (d : List Byte) : Nat :=
  let m := moveD d
  if m.rows = 0 ∨ m.rowBytes = 0 ∨ ((m.mode = 1 ∨ m.mode = 2) ∧ (m.srcStride = 0 ∨ m.dstStride = 0)) then St.ZERO_FIELD
  else if m.mode == 3 || m.selvage == 3 || (m.mode == 0 && m.esz != 0) || (m.mode == 2 && m.esz == 3) || (m.decrypt && (m.mode != 0 || m.selvage == 1))
      || (m.mode == 0 && (m.srcStride != 0 || m.dstStride != 0)) || (!m.decrypt && (m.key != 0 || m.iv != 0))
      || bitOf (le d 16 1) 7 || bits (le d 17 1) 7 4 != 0 || !zeroBytes d 18 19 || !zeroBytes d 37 39 || !zeroBytes d 45 47
      || [m.rowBytes, m.src, m.dst, m.srcStride, m.dstStride].any (fun x => x % m.e != 0)
      || (m.selvage != 0 && (m.src % 64 != 0 || m.dst % 64 != 0))
      || overlap m.src (withSelvage m.srcExtent (m.selvage == 1)) m.dst (withSelvage m.dstExtent (m.selvage != 0)) then St.BAD_FORMAT
  else if (if m.mode == 0 then m.rows != 1 else decide (65536 < m.rows)) || (if m.decrypt then 67108864 else 16777216) < m.rowBytes
      || (m.mode == 1 && m.dstStride < m.rowBytes) || (m.mode == 2 && m.dstStride < m.rows * m.e)
      || !inRegion m.src m.srcExtent (m.selvage == 1) || !inRegion m.dst m.dstExtent (m.selvage != 0) then St.OUT_OF_LIMIT
  else 0

/-- The porter guarantee of R245 in units of 10 MB/s, for the installed rate and a plain or inline-ECC region. -/
def ddrRate (rate : Nat) (inl : Bool) : Nat :=
  match rate with
  | 0 => if inl then 284 else 320
  | 1 => if inl then 249 else 280
  | 2 => if inl then 213 else 240
  | 3 => if inl then 183 else 206
  | 4 => if inl then 142 else 160
  | _ => if inl then 107 else 120

/-- The LPDDR5X term of a transfer of n bytes at an address, in microseconds (R257): bytes over the guarantee, and 1.5. -/
def State.ddrTerm (s : State) (a n : Nat) : Rat :=
  match regionOf a with
  | .ddr =>
    let inl := match s.fwRegion (a / 2 ^ 20) with
      | some r => s.bit (Reg.SAF_FWR_CTRL r) 1
      | none => false
    (n : Rat) / (ddrRate (s.fld Reg.MEM_DDR_CFG 10 8) inl * 10 : Nat) + 3 / 2
  | _ => 0

/-- A time in microseconds as bit-steps at floor pace (R18, R50). -/
def stepsOfUs (us : Rat) : Rat := 950 * us

/-- The in-core rate of a MOVE from core g, bytes per bit-step (R252, R257). -/
def moveRate (g : Nat) (m : MoveD) : Nat :=
  let own := fun a => match regionOf a with
    | .bolt h _ => if h = g then 1 else 3
    | .skein h _ => if h = g then 2 else 3
    | .line _ _ => 3
    | .ddr => 4
    | .remote _ _ => 4
    | _ => 4
  let x := own m.src
  let y := own m.dst
  if m.decrypt then 16
  else if m.mode = 2 ∨ m.src % 64 ≠ 0 ∨ m.dst % 64 ≠ 0 then 64
  else if x = 3 ∨ y = 3 then 64
  else if x = y ∧ x ≠ 4 then 128
  else 256

/-- The port whose link is up with a device as its partner (R539). -/
def State.portTo (s : State) (dev : Nat) : Option Nat :=
  (List.range 3).find? fun p => s.bit (Reg.BIL_PORT_CTRL p) 30 && s.fld (Reg.BIL_PORT_CTRL p) 17 16 == dev

/-- The rate of the link that serves a remote device, in GB/s: halved while it runs on two lanes (R526, R533). -/
def State.linkGbps (s : State) (dev : Nat) : Nat :=
  match s.portTo dev with
  | some p => if s.fld (Reg.BIL_PORT_CTRL p) 26 24 == 2 then 6 else 12
  | none => 12

/-- Budget of MOVE on core g in bit-steps (R257). -/
def State.moveBudget (s : State) (g : Nat) (m : MoveD) : Rat :=
  let n := m.dstExtent
  let steps := if m.mode = 1 ∧ m.rowBytes ≤ 8 then 64 + ceilDiv m.rows 8 else 64 + ceilDiv n (moveRate g m)
  let link : Rat := match regionOf m.dst with
    | .remote d _ => (n : Rat) / (s.linkGbps d * 1000 : Nat) + 2
    | _ => 0
  steps + stepsOfUs (s.ddrTerm m.src n + s.ddrTerm m.dst n + link)

/-! ### Commands without a core unit -/

/-- Descriptor checks of FENCE (R282). -/
def checkFence (d : List Byte) : Nat :=
  let b := le d 16 1
  if bits b 1 0 = 0 ∨ bits b 7 2 ≠ 0 ∨ !zeroBytes d 18 23 ∨ !zeroBytes d 32 63 ∨ (!bitOf b 1 ∧ le d 24 8 ≠ 0) then St.BAD_FORMAT else 0

/-- Descriptor checks of SIGNAL (R283). -/
def checkSignal (d : List Byte) : Nat :=
  if bits (le d 16 1) 7 3 ≠ 0 ∨ !zeroBytes d 18 23 ∨ !zeroBytes d 32 63 then St.BAD_FORMAT else 0

/-- The streams of a graph's trigger set (R308, R328). -/
def State.trigStreams (s : State) (g : Nat) : List Nat :=
  (List.range 128).filter fun n => s.bit (Reg.SCH_GRAPH_TRIG g (n / 32)) (n % 32)

/-- A stream that a command names as one that fired its instance is in the graph's trigger set; a ring job has no such frame. -/
def State.firedStreamOk (s : State) (graph : Option Nat) (stream : Nat) : Bool :=
  match graph with
  | none => false
  | some g => (s.trigStreams g).contains stream

/-- Descriptor checks of WAIT_TIME (R380, BAD_FORMAT). -/
def State.checkWait (s : State) (graph : Option Nat) (d : List Byte) : Nat :=
  let b := le d 16 1
  let m := bits b 1 0
  let st := le d 17 1
  if 1 < m || bits b 7 3 != 0 || bitOf st 7 || !zeroBytes d 18 23 || !zeroBytes d 32 63 || (m == 0 && (st != 0 || bitOf (le d 24 8) 63))
      || (m == 1 && !s.firedStreamOk graph (st % 128)) then St.BAD_FORMAT else 0

/-- A PUBLISH descriptor, decoded (R390). -/
structure PubD where
  port : Nat
  queue : Nat
  launch : Nat
  ipFill : Bool
  mon : Option Nat
  id : Nat
  seg : Nat
  tlen : Nat
  src : Nat
  len : Nat
  template : Nat
  time : Nat
  deriving DecidableEq, Repr

/-- Decode a PUBLISH descriptor (R390). -/
def pubD (d : List Byte) : PubD :=
  let b := le d 16 1
  { port := b % 2, queue := bits b 3 1, launch := bits b 5 4, ipFill := bitOf b 6, mon := if bitOf b 7 then some (le d 17 1 % 64) else none,
    id := le d 18 2, seg := le d 20 2, tlen := le d 22 1, src := le d 24 5, len := le d 32 4, template := le d 40 5, time := le d 48 8 }

/-- The frames of a PUBLISH (R391). -/
def PubD.n (p : PubD) : Nat := ceilDiv p.len p.seg

/-- The inputs of PUBLISH: source and template. -/
def pubIns (p : PubD) : List Buf :=
  [{ base := p.src, extent := p.len, unit := 0 }, { base := p.template, extent := p.tlen, unit := 0 }]

/-- MAX_FRAME of a port (R412). -/
def State.maxFrame (s : State) (p : Nat) : Nat := s.fld (Reg.ETH_PORT_CTRL p) 13 0

/-- Descriptor checks of PUBLISH, orders 2 to 4 of R393. -/
def State.checkPublish (s : State) (d : List Byte) : Nat :=
  let p := pubD d
  if p.len = 0 ∨ p.seg = 0 ∨ p.tlen = 0 then St.ZERO_FIELD
  else if p.launch == 3 || (p.mon.isNone && le d 17 1 % 64 != 0) || bits (le d 17 1) 7 6 != 0 || !zeroBytes d 23 23 || !zeroBytes d 29 31
      || !zeroBytes d 36 39 || !zeroBytes d 45 47 || !zeroBytes d 56 63 || (p.launch == 0 && p.time != 0) || (p.launch == 1 && bitOf p.time 63)
      || p.seg % 64 != 0 || p.src % 64 != 0 || p.template % 64 != 0 || (p.ipFill && !([42, 46, 62, 66] : List Nat).contains p.tlen) then St.BAD_FORMAT
  else if 8960 < p.seg || p.tlen < 14 || 128 < p.tlen || 16777216 < p.len || 65535 < p.n || s.maxFrame p.port < p.tlen + p.seg + 100
      || !inRegion p.src p.len true || !inRegion p.template p.tlen true then St.OUT_OF_LIMIT
  else 0

/-- STATS of a stream's set-up table (R361): the base of its statistics ring. -/
def tabStats (t : List Byte) : Nat := le t 32 5

/-- Bytes of a statistics record (R352). -/
def statsBytes : Nat := 57408

/-- A stream's context is enabled and of the stall (R353, R354). -/
def State.streamOwned (s : State) (stream stall : Nat) : Bool :=
  s.bit (Reg.ING_STR_CTRL stream) 31 && s.fld (Reg.ING_STR_CTRL stream) 27 24 == stall

/-- PATH of a stream (R360). -/
def State.streamPath (s : State) (stream : Nat) : Nat := s.fld (Reg.ING_STR_CTRL stream) 17 16

/-- Descriptor checks of STATS_READ (R353). -/
def State.checkStats (s : State) (graph : Option Nat) (stall : Nat) (d : List Byte) : Nat :=
  let st := le d 16 1
  let sel := bits (le d 17 1) 1 0
  let dst := le d 24 4
  if bitOf st 7 || sel == 3 || bits (le d 17 1) 7 2 != 0 || !zeroBytes d 18 19 || dst / 2 ^ 22 != 0 || dst % 64 != 0 || !zeroBytes d 28 63
      || (sel != 0 && le d 20 4 != 0) || (sel == 1 && !s.firedStreamOk graph (st % 128)) then St.BAD_FORMAT
  else if !boltFits dst statsBytes then St.OUT_OF_LIMIT
  else if !s.streamOwned (st % 128) stall || !(s.streamPath (st % 128) == 1 || s.streamPath (st % 128) == 2) then St.FIREWALL
  else 0

/-- A SENSOR_WRITE descriptor, decoded (R354). -/
structure SensD where
  stream : Nat
  rel : Bool
  late : Bool
  tag : Nat
  target : Nat
  n : Nat
  confirm : Nat
  off : Nat
  tune : Nat
  expect : List Byte
  deriving DecidableEq, Repr

/-- Decode a SENSOR_WRITE descriptor (R354). -/
def sensD (d : List Byte) : SensD :=
  let b := le d 17 1
  { stream := le d 16 1 % 128, rel := bitOf b 0, late := bitOf b 1, tag := le d 18 2, target := le d 20 4, n := le d 24 1 % 64,
    confirm := le d 25 1 % 16, off := le d 28 4, tune := le d 32 5, expect := slice d 40 8 }

/-- The records of a SENSOR_WRITE as an input buffer. -/
def sensIns (g : Nat) (x : SensD) : List Buf :=
  if x.n = 0 then [] else [{ base := boltAddr g x.off, extent := roundUp (x.n * 8) 64, unit := 0 }]

/-- A write record (R354): REG, LEN, DATA. -/
def writeRec (b : List Byte) (k : Nat) : Nat × Nat × Nat := (le b (8 * k) 2, le b (8 * k + 2) 1, le b (8 * k + 4) 4)

/-- A write record that is not one: LEN outside 1 to 4, or its reserved byte (R354). -/
def recBad (b : List Byte) (k : Nat) : Bool := (writeRec b k).2.1 == 0 || 4 < (writeRec b k).2.1 || le b (8 * k + 3) 1 != 0

/-- The stream expects embedded data lines (R360). -/
def State.embeds (s : State) (stream : Nat) : Bool := s.bit (Reg.ING_STR_FMT stream) 31

/-- Descriptor checks of SENSOR_WRITE (R354); the records' own LEN fields are read when it starts. -/
def State.checkSensor (s : State) (graph : Option Nat) (stall : Nat) (d : List Byte) : Nat :=
  let x := sensD d
  if (x.n == 0 && x.tune == 0) || bitOf (le d 16 1) 7 || bits (le d 17 1) 7 2 != 0 || bits (le d 24 1) 7 6 != 0 || bits (le d 25 1) 7 4 != 0
      || !zeroBytes d 26 27 || !zeroBytes d 37 39 || !zeroBytes d 48 63 || x.tune % 64 != 0
      || (x.n == 0 && x.off != 0) || (x.rel && !s.firedStreamOk graph x.stream) then St.BAD_FORMAT
  else if 32 < x.n || 8 < x.confirm || (x.rel && (x.target = 0 || 16 < x.target)) || (x.confirm != 0 && !s.embeds x.stream)
      || (x.n != 0 && !boltFits x.off (roundUp (x.n * 8) 64)) then St.OUT_OF_LIMIT
  else if !s.streamOwned x.stream stall then St.FIREWALL
  else 0

/-- Descriptor checks of DIGEST on the descriptor alone (R435, order 3). -/
def State.checkDigest (s : State) (d : List Byte) : Nat :=
  let b := le d 16 1
  let m := bits b 1 0
  if bits b 7 4 != 0 || bits (le d 17 1) 7 6 != 0 || !zeroBytes d 20 23 || !zeroBytes d 29 31 || !zeroBytes d 37 39 || !zeroBytes d 40 63
      || (m != 2 && bits b 3 2 != 0) || (m == 2 && bits b 3 2 == s.board.devnum)
      || (m != 0 && (le d 18 2 != 0 || le d 24 5 != 0 || le d 32 5 != 0)) || le d 24 5 % 64 != 0 || le d 32 5 % 64 != 0 then St.BAD_FORMAT
  else 0

end Sys2Proof.Machine
end

