-- ==== Sys2Proof/Machine/Descriptor.lean ====
section
/-!
DEFINITION. Every command's descriptor seen whole (R277 to R280): header checks, body checks at placement, and what the
scheduler needs to know of it: width, budget, longest segment, recovery reserve, buffers, contexts.
-/
namespace Sys2Proof.Machine

/-- A defined opcode's descriptor size in bytes (R279). -/
def opSize (op : Nat) : Option Nat :=
  if op = 1 ∨ op = 2 ∨ op = 3 ∨ op = 5 then some 128
  else if op = 4 ∨ (6 ≤ op ∧ op ≤ 10) ∨ (0x10 ≤ op ∧ op ≤ 0x16) then some 64
  else none

/-- The header checks of command i of a job of a stall (R278): 0 where they pass. -/
def checkHeader (stall i : Nat) (d : List Byte) : Nat :=
  match opSize (opcodeOf d) with
  | none => St.BAD_OPCODE
  | some n =>
    let dc := bits (le d 5 1) 1 0
    if versionOf d ≠ 1 then St.BAD_VERSION
    else if (if bitOf (le d 1 1) 4 then 128 else 64) != n || stallOf d != stall || dc == 3 || (depsOf d).any (fun k => i ≤ k)
        || (dc == 0 && le d 8 2 != 0) || (dc < 2 && le d 10 2 != 0) || bits (flagRefuseOf d) 15 7 != 0
        || bits (le d 1 1) 7 5 != 0 || bits (le d 4 1) 7 4 != 0 || bits (le d 5 1) 7 2 != 0 || !zeroBytes d 6 7 || !zeroBytes d 12 15 then
      St.BAD_FORMAT
    else 0

/-- A running core's TIDY_CHAIN tables: its stages laid out, and its tensors, as they stand. -/
def State.tidyView (s : State) (g : Nat) (d : List Byte) : TidyD × (List Placed × List SlotUse) × List Tensor :=
  let t := tidyD d
  let chain := s.peek (boltAddr g t.chain) (t.n * 16)
  let tens := s.peek (boltAddr g t.tensors) ((t.nIn + t.nOut) * 32)
  (t, chainOf (stagesOf t chain), tensorsOf t tens)

/-- The stage table of FUSED_TILES as it stands on core g. -/
def State.fusedView (s : State) (g : Nat) (d : List Byte) : List Byte :=
  s.peek (boltAddr g (fusedD d).stageOff) ((fusedD d).n * 64)

/-- What the scheduler knows of a command on a core (R280, R311, R314, R319). -/
structure CmdInfo where
  /-- Presented columns that it needs (R86). -/
  width : Nat := 0
  /-- Budget in bit-steps at floor pace (R311). -/
  budget : Rat := 0
  /-- Longest segment without a boundary (R319); 0 where none exceeds a pass. -/
  segment : Nat := 0
  /-- Largest single pass, run or row (R311). -/
  single : Nat := 0
  /-- Buffers that carry a selvage and are checked when it starts, in descriptor order (R424). -/
  ins : List Buf := []
  /-- Buffers it writes with a selvage (R421). -/
  outs : List Buf := []
  /-- Other bolt areas it writes: scratch and work areas. -/
  areas : List Buf := []
  /-- Contexts it names (R206), and whether it holds them exclusively. -/
  ctxs : List Nat := []
  excl : Bool := false
  /-- Bytes of source that a MOVE reads: address and extent (R314). -/
  source : Option (Nat × Nat) := none

/-- LATENT_W, MAX_LEN and SLOT that the budgets of ATTN_BLOCK and DECODE_BATCH use: the largest over the contexts. -/
def State.ctxSizes (s : State) (ctxs : List Nat) : Nat × Nat × Nat :=
  ctxs.foldl (fun m n => let r := s.ctx n; (max m.1 r.latentW, max m.2.1 r.maxLen, max m.2.2 r.slot)) (0, 0, 0)

/-- Budget of a DECODE_BATCH with its LPDDR5X windows (R217). -/
def State.decodeCost (s : State) (a : DecodeD) (ctxs : List Nat) : Rat :=
  let per := ctxs.foldl (fun m n => max m (decodePerCtx a (s.ctx n).maxLen (s.ctx n).slot)) 0
  let ddr : Rat := ctxs.foldl (fun t n => t + s.ddrTerm (s.ctx n).base ((s.ctx n).maxLen * (s.ctx n).slot)) 0
  decodeBudget a per + stepsOfUs ddr

/-- Budget of DIGEST: LENGTH at 1.6 GB/s and 20 µs, or 50 µs (R434); LENGTH from the manifest record, or from the entry. -/
def State.digestBudget (s : State) (d : List Byte) : Rat :=
  let n := match bits (le d 16 1) 1 0 with
    | 0 => leNat (s.peek (le d 32 5 + 64 + 64 * le d 18 2) 4)
    | 1 => (s.rd (Reg.SAF_DIG_LENGTH (le d 17 1 % 64))).toNat
    | _ => 0
  stepsOfUs (if bits (le d 16 1) 1 0 ≤ 1 then (n : Rat) / 1600 + 20 else 50)

/-- The wire bytes of a PUBLISH's frames with FCS, the largest MACsec expansion and the gap (R392). -/
def pubWire (p : PubD) : Nat := p.n * (p.tlen + 32 + 4 + 32 + 20) + p.len + 32

/-- Port speed in units of 0.1 Gb/s (R412). -/
def State.portSpeed (s : State) (p : Nat) : Nat :=
  if p = 2 then 10 else match s.fld (Reg.ETH_PORT_CTRL p) 25 24 with | 0 => 100 | 1 => 50 | _ => 25

/-- What the scheduler knows of a command of a job on core g. [DESIGN CHOICE, log entry 49] -/
def State.cmdInfo (s : State) (g : Nat) (d : List Byte) : CmdInfo :=
  match opcodeOf d with
  | 0x01 =>
    let t := twillD d
    { width := t.cols, budget := twillBudget d, single := twillPassMax d, ins := twillIns g t, outs := twillOuts g t,
      areas := if t.warp16 then [twillScratch g t] else [] }
  | 0x02 =>
    let l := convLayer d
    { width := if l.kind = 0 then l.runLen else 0, budget := l.budget, segment := if 33792 < l.runBudget then l.runBudget else 0,
      single := l.runBudget, ins := convIns g d, outs := convOuts g d }
  | 0x03 =>
    let tab := s.fusedView g d
    let ls := fusedLayers d tab
    { width := if ls.any (fun l => l.kind == 0) then (fusedD d).runLen else 0, budget := fusedBudget d tab, segment := fusedBudget d tab,
      single := ls.foldl (fun m l => max m l.runBudget) 0, ins := fusedIns g d tab, outs := fusedOuts g d tab,
      areas := [{ base := boltAddr g (fusedD d).workOff, extent := (fusedD d).workSize, unit := 1 }] }
  | 0x04 =>
    let v := s.tidyView g d
    let row := tidyRowBudget v.1 v.2.1.1 v.2.2
    let b := tidyBudget v.1 v.2.1.1 v.2.2
    { budget := b, segment := if 33792 < row then b else 0, single := row, ins := tidyIns g v.1 v.2.2, outs := tidyOuts g v.1 v.2.1.1 v.2.2 }
  | 0x05 =>
    let a := attnD d
    let z := s.ctxSizes a.ctxs
    let b := attnBudget z.1 z.2.1 z.2.2 a
    { width := max a.kb (a.nh * a.dv), budget := b, segment := b, single := 1 + 8 * max (max z.1 a.dk) a.kb + 512,
      ins := attnIns g z.1 a, outs := [attnOut g a],
      areas := [{ base := boltAddr g a.scratch, extent := a.scratchSize, unit := 2 }], ctxs := a.ctxs }
  | 0x06 =>
    let a := decodeD d
    let cs := s.decodeCtxs g a
    { budget := s.decodeCost a cs, single := decodeTok a, ins := decodeIns g a, outs := [decodeOut g a],
      areas := [{ base := boltAddr g a.scratch, extent := decodeScratch a, unit := 2 }], ctxs := cs.eraseDups }
  | 0x07 => { budget := kvBudget d, segment := kvBudget d, ins := kvInputs g d, ctxs := kvContexts (s.kvTokens g d), excl := true }
  | 0x08 => { budget := ctxCreateBudget d, segment := ctxCreateBudget d, ctxs := ctxSet d, excl := true }
  | 0x09 => { budget := s.ctxResetBudget d, segment := s.ctxResetBudget d, ctxs := ctxSet d, excl := true }
  | 0x0A =>
    let m := moveD d
    { budget := s.moveBudget g m, ins := moveIn m, outs := moveOut m, source := some (m.src, m.srcExtent) }
  | 0x10 => { budget := stepsOfUs 2 }
  | 0x11 => { budget := stepsOfUs (if bits (le d 16 1) 1 0 = s.board.devnum then 2 else 3) }
  | 0x12 => { budget := stepsOfUs 2 }
  | 0x13 =>
    let p := pubD d
    { budget := stepsOfUs (2 + (pubWire p : Rat) * 8 / (100 * s.portSpeed p.port : Nat)), ins := pubIns p }
  | 0x14 => { budget := 961 + stepsOfUs (s.ddrTerm (tabStats (s.streams.getD (le d 16 1 % 128) {}).table) statsBytes), outs := [{ base := boltAddr g (le d 24 4 % 2 ^ 22), extent := statsBytes, unit := 0 }] }
  | 0x15 => { ins := sensIns g (sensD d) }
  | 0x16 => { budget := s.digestBudget d }
  | _ => {}

/-- The descriptor checks of command i made at placement (R280): header, then the body's own. [DEDUCED, log entry 48] -/
def State.checkCmd (s : State) (graph : Option Nat) (stall i : Nat) (d : List Byte) : Nat :=
  let h := checkHeader stall i d
  if h ≠ 0 then h
  else match opcodeOf d with
    | 0x01 => checkTwill d
    | 0x02 => checkConv d
    | 0x03 => checkFused d
    | 0x04 => checkTidy d
    | 0x05 => checkAttn d
    | 0x06 => checkDecode d
    | 0x07 => checkKvScatter d
    | 0x08 => s.checkCtxCreate d
    | 0x09 => checkCtxReset d
    | 0x0A => checkMove d
    | 0x10 => checkFence d
    | 0x11 => checkSignal d
    | 0x12 => s.checkWait graph d
    | 0x13 => s.checkPublish d
    | 0x14 => s.checkStats graph stall d
    | 0x15 => s.checkSensor graph stall d
    | _ => s.checkDigest d

/-- Cut a command list into its commands by their SIZE bits (R276): n commands from the front; none where the bytes run out. -/
def cutList : Nat → List Byte → Option (List (List Byte))
  | 0, _ => some []
  | n + 1, l =>
    if l.length < 64 then none
    else
      let k := if bitOf (le l 1 1) 4 then 128 else 64
      if l.length < k then none else (cutList n (l.drop k)).map (l.take k :: ·)

end Sys2Proof.Machine
end

