-- ==== Sys2Proof/Machine/Place.lean ====
section
/-!
DEFINITION. Placement and admission (R311 to R314): which cores may take work, the residency score, budgets of nodes, the
admission test, and re-homing when a core is withdrawn (R109, R313, R495).
-/
namespace Sys2Proof.Machine

/-! ### Rank and debt -/

/-- The rank of a job's work on its core (R315). -/
def State.rank (s : State) (j : Job) : Nat :=
  match j.src with
  | .node g _ _ => if s.bit (Reg.SCH_GRAPH_CTRL g) 30 then 1 else if s.deadlineStall j.stall then 2 else 4
  | .ring .. => if s.deadlineStall j.stall then 2 else 4

/-- DEBT of a stall (R320). -/
def State.debt (s : State) (n : Nat) : Nat := s.fld (Reg.SCH_STALL_DEBT n) 23 0
/-- ALLOW of a stall (R302). -/
def State.allow (s : State) (n : Nat) : Nat := s.fld (Reg.SCH_STALL_ALLOW n) 17 0

/-- A best-effort stall whose DEBT exceeds ALLOW starts no non-preemptible segment (R320). -/
def State.barred (s : State) (j : Job) (d : List Byte) : Bool :=
  s.rank j == 4 && s.allow j.stall < s.debt j.stall && 0 < (s.cmdInfo j.core d).segment

/-! ### Cores -/

/-- An engine's present width P (R82); 0 on a disabled core. -/
def State.width (s : State) (g : Nat) : Nat := if (s.core g).disabled then 0 else 512 - (s.core g).bypass.length

/-- A unit of the core is suspect: the Twill engine (R108) or a tidy unit (R178). -/
def State.suspect (s : State) (g : Nat) : Bool :=
  s.bit (Reg.TW_STATUS g) 30 || s.bit (Reg.TD_STATUS g 0) 30 || s.bit (Reg.TD_STATUS g 1) 30

/-- The core is enabled and not suspect (R109, R314). -/
def State.sound (s : State) (g : Nat) : Bool := !(s.core g).disabled && !s.suspect g

/-- The scheduler may place new work on the core: it is sound and its cluster is ON and not gated (R495). [DESIGN CHOICE, log entry 51] -/
def State.openCore (s : State) (g : Nat) : Bool := s.sound g && s.clusterUp (g / 8) && !(s.pwr.gated.getD (g / 8) false)

/-- The cores that a mask and the stall's CORES both name (R314). -/
def State.maskCores (s : State) (stall mask : Nat) : List Nat :=
  (List.range 32).filter fun g => mask.testBit g && (stall == 0 || s.bit (Reg.SCH_STALL_CORES stall) g)

/-- What a core would make of each command of a job. -/
def State.infos (s : State) (g : Nat) (cmds : List (List Byte)) : List CmdInfo := cmds.map (s.cmdInfo g)

/-- The presented columns that command i needs (R86); a command whose descriptor fails an earlier check of its table needs none. -/
def State.widthNeed (s : State) (g stall i : Nat) (d : List Byte) : Nat :=
  if s.checkCmd none stall i d = 0 then (s.cmdInfo g d).width else 0

/-- The core is wide enough for every command (R86). -/
def State.wideEnough (s : State) (g stall : Nat) (cmds : List (List Byte)) : Bool :=
  cmds.zipIdx.all fun p => s.widthNeed g stall p.2 p.1 ≤ s.width g

/-- The candidates of a job or node (R314). -/
def State.candidates (s : State) (stall mask : Nat) (cmds : List (List Byte)) : List Nat :=
  (s.maskCores stall mask).filter fun g => s.sound g && s.wideEnough g stall cmds

/-- The command that takes PLAN_WIDTH where a job has no candidate (R314). -/
def State.planWidthCmd (s : State) (stall mask : Nat) (cmds : List (List Byte)) : Nat :=
  match (s.maskCores stall mask).filter s.sound with
  | [] => 0
  | g :: gs =>
    let w := (g :: gs).foldl (fun m x => max m (s.width x)) 0
    (cmds.zipIdx.find? (fun p => w < s.widthNeed g stall p.2 p.1)).elim 0 (·.2)

/-- Bytes of an extent that lie in the core-local window of core g. -/
def inWindow (g : Nat) (x : Nat × Nat) : Nat :=
  let lo := max x.1 (coreBase g)
  let hi := min (x.1 + x.2) (coreBase g + 0x1000000)
  hi - lo

/-- Bytes of an extent that lie in the bolt of core g. -/
def inBolt (g : Nat) (x : Nat × Nat) : Nat :=
  let lo := max x.1 (coreBase g)
  let hi := min (x.1 + x.2) (coreBase g + 0x400000)
  hi - lo

/-- The residency score of core g (R314); depOuts names, for each dependency node, the core that it ran on and the bytes of its bolt outputs. -/
def State.score (s : State) (g : Nat) (cmds : List (List Byte)) (depOuts : List (Nat × Nat)) : Nat :=
  let is := s.infos g cmds
  sumNat (is.map fun i => sumNat (i.ctxs.map fun n => let r := s.ctx n; inBolt g (r.base, regionBytes r.latentW r.e r.maxLen)))
  + sumNat (is.map fun i => match i.source with | some x => inWindow g x | none => 0)
  + sumNat (depOuts.map fun x => if x.1 = g then x.2 else 0)

/-- Sum of a list of rationals. -/
def sumRat (l : List Rat) : Rat := l.foldl (· + ·) 0

/-- Budget of the unfinished commands placed on a core (R314). -/
def State.queued (s : State) (g : Nat) : Rat :=
  sumRat (s.cmd.jobs.map fun j =>
    if j.phase = .placed ∧ j.core = g then
      sumRat (j.cmds.map fun c => if c.stage = .done then 0 else (s.cmdInfo g c.desc).budget)
    else 0)

/-- The best of some cores by a score, then by a cost, then by the lowest number. [DESIGN CHOICE, log entry 51] -/
def bestCore (score : Nat → Nat) (cost : Nat → Rat) : List Nat → Option Nat
  | [] => none
  | g :: t =>
    match bestCore score cost t with
    | none => some g
    | some h => if score h < score g then some g else if score h == score g && decide (cost g ≤ cost h) then some g else some h

/-- The core that a ring job or a node of an unadmitted graph goes to (R314). -/
def State.choose (s : State) (cs : List Nat) (cmds : List (List Byte)) (depOuts : List (Nat × Nat)) : Option Nat :=
  bestCore (fun g => s.score g cmds depOuts) s.queued cs

/-- The longest non-preemptible segment of a job's commands on a core (R319). -/
def State.longest (s : State) (g : Nat) (cmds : List (List Byte)) : Nat := (s.infos g cmds).foldl (fun m i => max m i.segment) 0

/-! ### Budgets and admission -/

/-- An address of a core's bolt or skein lies in a carve-out of the stall on that core (R305). -/
def State.inCarve (s : State) (stall : Nat) (a : Nat) : Bool :=
  match regionOf a with
  | .bolt g o => (s.carveAt (Reg.BT_CARVE g 0) 8 (o / 4096)).any fun k => s.fld (Reg.BT_CARVE g k) 27 24 == stall
  | .skein g o => (s.carveAt (Reg.SK_CARVE g 0) 4 (o / 4096)).any fun k => s.fld (Reg.SK_CARVE g k) 27 24 == stall
  | _ => true

/-- The extents that a command reads or writes, selvages included. -/
def State.cmdExtents (s : State) (g : Nat) (d : List Byte) : List (Nat × Nat) :=
  let i := s.cmdInfo g d
  let m := moveD d
  let ends := if opcodeOf d = 0x0A then (if i.ins.isEmpty then [(m.src, m.srcExtent)] else []) ++ (if i.outs.isEmpty then [(m.dst, m.dstExtent)] else []) else []
  (i.ins ++ i.outs ++ i.areas).map (fun b => (b.base, roundUp b.extent 64 + 32))
    ++ i.ctxs.map (fun n => let r := s.ctx n; (r.base, regionBytes r.latentW r.e r.maxLen)) ++ ends

/-- An address in the bolt or the skein's general area of core g: what the spill area has a place for. -/
def spillable (g a : Nat) : Bool :=
  match regionOf a with
  | .bolt h _ => h == g
  | .skein h o => h == g && 0x80000 ≤ o
  | _ => false

/-- The parts of an extent in the 4 KiB units of carve-outs (R244). -/
def carveUnits (x : Nat × Nat) : List (Nat × Nat) :=
  (List.range (ceilDiv (x.1 + x.2) 4096 - x.1 / 4096)).map fun k =>
    let lo := max x.1 ((x.1 / 4096 + k) * 4096)
    (lo, min (x.1 + x.2) ((x.1 / 4096 + k + 1) * 4096) - lo)

/-- The parts of an extent in core g's bolt or skein outside the stall's own carve-out (R322). -/
def State.outside (s : State) (g stall : Nat) (x : Nat × Nat) : List (Nat × Nat) :=
  if spillable g x.1 then (carveUnits x).filter fun u => !s.inCarve stall u.1 else []

/-- Bytes of a command's extents on core g that lie outside its stall's carve-out (R322). -/
def State.outsideCarve (s : State) (g stall : Nat) (d : List Byte) : Nat :=
  sumNat (((s.cmdExtents g d).flatMap (s.outside g stall)).map (·.2))

/-- The spill term of R322 in microseconds. -/
def State.spillUs (s : State) (bytes : Nat) : Rat :=
  if bytes = 0 then 0 else (bytes : Rat) / (2 * ddrRate (s.fld Reg.MEM_DDR_CFG 10 8) false * 10 : Nat) + 3 / 2

/-- Cycles of the LPDDR5X controller's clock in 960 ns, by RATE (R245). -/
def ddrCycles (rate : Nat) : Nat :=
  match rate with
  | 0 => 512
  | 1 => 448
  | 2 => 384
  | 3 => 330
  | 4 => 256
  | _ => 192

/-- Clock in MHz of the island that an address lies behind (R53, R245): the LPDDR5X controller's, a Bilvan PCS's; none on the fabric. -/
def State.islandMhz (s : State) (a : Nat) : Option Rat :=
  match regionOf a with
  | .ddr => some ((ddrCycles (s.fld Reg.MEM_DDR_CFG 10 8) : Rat) * 100 / 96)
  | .remote _ _ => some 1000
  | _ => none

/-- One crossing between the fabric and an island, in bit-steps (R52): 3 cycles of the island's clock and 8 bit-steps. -/
def crossing (mhz : Rat) : Rat := 8 + stepsOfUs (3 / mhz)

/-- The crossing terms of a command (R52): one for each of its extents that lies behind an island, and for PUBLISH one into its MAC. [DESIGN CHOICE, log entry 105] -/
def State.crossingCost (s : State) (g : Nat) (d : List Byte) : Rat :=
  sumRat ((s.cmdExtents g d).filterMap fun x => (s.islandMhz x.1).map crossing)
    + if opcodeOf d = 0x13 then crossing (match s.fld (Reg.ETH_PORT_CTRL (pubD d).port) 25 24 with | 0 => 156 + 1 / 4 | _ => 78 + 1 / 8) else 0

/-- C of a node on a core in bit-steps (R311, R322): its commands' budgets, the recovery reserve, the spill term, the crossing terms of R52. -/
def State.nodeC (s : State) (g stall : Nat) (cmds : List (List Byte)) : Rat :=
  let is := s.infos g cmds
  sumRat (is.map (·.budget)) + ((is.foldl (fun m i => max m i.single) 0) + 516 : Nat)
    + stepsOfUs (s.spillUs (sumNat (cmds.map (s.outsideCarve g stall)))) + sumRat (cmds.map (s.crossingCost g))

/-- The window w of node k (R312). -/
def windowOf (nodes : List Node) (k : Nat) : Nat :=
  match nodes[k]? with
  | some n => n.dlUs - n.deps.foldl (fun m d => max m ((nodes[d]?).elim 0 (·.dlUs))) 0
  | none => 0

/-- The blocking term b of core c, in microseconds (R312). -/
def State.blocking (s : State) (c : Nat) : Rat :=
  let allow := ((List.range 16).filter fun n => n == 0 || s.bit (Reg.SCH_STALL_CORES n) c).foldl (fun m n => max m (s.fld (Reg.SCH_STALL_ALLOW n) 17 0)) 0
  ((3692 + max 34308 (max allow (s.fld Reg.SCH_TEST_SLICE 17 0)) : Nat) : Rat) / 950

/-- The demand of tasks up to time t (R312), in microseconds. -/
def demandAt (b : Rat) (ts : List Task) (t : Nat) : Rat :=
  b + sumRat (ts.map fun j => if j.w ≤ t then ((t - j.w) / j.p + 1 : Nat) * (j.c / 950) else 0)

/-- Whether the tasks of one core pass the admission test with blocking b (R312). -/
def admits (b : Rat) (ts : List Task) : Bool :=
  let u := sumRat (ts.map fun k => k.c / 950 / k.p)
  if 9 / 10 < u then false
  else
    let x := (b + sumRat (ts.map fun k => ((k.p : Rat) - k.w) * (k.c / 950) / k.p)) / (1 - u)
    let h := ts.foldl (fun m k => max m (k.w : Rat)) x
    ts.all fun k => (List.range ((h - k.w) / k.p + 1).floor.toNat).all fun m => decide (demandAt b ts (k.w + m * k.p) ≤ ((k.w + m * k.p : Nat) : Rat))

/-- Admitted utilisation of a core. -/
def utilOn (ts : List Task) (g : Nat) : Rat := sumRat ((ts.filter (·.core == g)).map fun k => k.c / 950 / k.p)

/-- Give some nodes of a graph homes in ascending order, each on the best candidate (R312): the tasks with theirs added, none where a node has no candidate. -/
def State.home (s : State) (graph stall period : Nat) (nodes : List Node) : List Nat → List Task → Option (List Task)
  | [], ts => some ts
  | k :: rest, ts =>
    match nodes[k]? with
    | none => none
    | some n =>
      let cs := (s.candidates stall n.coreMask n.cmds).filter s.openCore
      match bestCore (fun g => s.score g n.cmds []) (utilOn ts) cs with
      | none => none
      | some g => s.home graph stall period nodes rest (ts ++ [{ graph := graph, node := k, core := g, c := s.nodeC g stall n.cmds, w := windowOf nodes k, p := period }])

/-- Every core passes the admission test over its tasks. -/
def State.testTasks (s : State) (ts : List Task) : Bool :=
  (List.range 32).all fun g => let mine := ts.filter (·.core == g); mine.isEmpty || admits (s.blocking g) mine

/-- Admit a graph over the cores (R312): the tasks with its own, where every core passes. -/
def State.admitGraph (s : State) (graph stall period : Nat) (nodes : List Node) : Option (List Task) :=
  (s.home graph stall period nodes (List.range nodes.length) s.sch.tasks).filter s.testTasks

/-- A graph's registers' stall (R328). -/
def State.graphStall (s : State) (n : Nat) : Nat := s.fld (Reg.SCH_GRAPH_CTRL n) 23 20

/-- A graph's state. -/
def State.graph (s : State) (n : Nat) : Graph := s.graphs.getD n {}

/-- Change a graph's state. -/
def State.updGraph (s : State) (n : Nat) (f : Graph → Graph) : State := { s with graphs := updAt f n s.graphs }

/-- Re-home the nodes of graph n that some cores held (R313); where admission fails the graph loses it. -/
def State.rehomeGraph (s : State) (gone : Nat → Bool) (n : Nat) : State :=
  let mine := s.sch.tasks.filter fun t => t.graph == n && gone t.core
  if mine.isEmpty then s
  else
    let keep := s.sch.tasks.filter fun t => !(t.graph == n && gone t.core)
    match (s.home n (s.graphStall n) (s.rd (Reg.SCH_GRAPH_PERIOD n)).toNat (s.graph n).nodes (mine.map (·.node)) keep).filter s.testTasks with
    | some ts => { s with sch := { s.sch with tasks := ts } }
    | none =>
      let s := { s with sch := { s.sch with tasks := s.sch.tasks.filter fun t => t.graph != n } }
      (s.setBit (Reg.SCH_GRAPH_CTRL n) 30 false).report 0x100 Kind.ADMISSION_LOST (s.graphStall n) n

/-- Re-home every admitted node whose home core is no longer available (R109, R313, R495). -/
def State.rehome (s : State) (gone : Nat → Bool) : State := (List.range 64).foldl (fun s n => s.rehomeGraph gone n) s

end Sys2Proof.Machine
end

