-- ==== Sys2Proof/Machine/Ledger.lean ====
section
/-!
DEFINITION. The ledger (R96 to R122): syndromes, classification, correction, counters and reports; suspect units, their
escalation and probes; the disabled-unit map (R84).
-/
namespace Sys2Proof.Machine

/-! ### Cells -/

/-- Change the n-th element of a list, lengthening it with d where it is shorter. -/
def putAt {α : Type} (d : α) (f : α → α) : Nat → List α → List α
  | 0, [] => [f d]
  | 0, a :: t => f a :: t
  | n + 1, [] => d :: putAt d f n []
  | n + 1, a :: t => a :: putAt d f n t

/-- The accumulator of a row and a logical column. -/
def Tile.cell (t : Tile) (i j : Nat) : Word := (t.acc.getD i []).getD j 0
/-- The OVF bit of a cell. -/
def Tile.hasOvf (t : Tile) (i j : Nat) : Bool := (t.ovf.getD i []).getD j false
/-- Change one accumulator. -/
def Tile.setCell (t : Tile) (i j : Nat) (f : Word → Word) : Tile := { t with acc := putAt [] (putAt 0 f j) i t.acc }

/-- Invert a bit of a value. -/
def flipBit (n : Nat) (w : Word) : Word := w ^^^ BitVec.ofNat 32 (2 ^ n)

/-- Apply a fault to the cells of an engine of present width p (R101); a site outside the array has no effect, so an injection at a column that is not present leaves its pass CLEAN. [DESIGN CHOICE, log entry 104] -/
def Tile.flip (p : Nat) (t : Tile) (f : CellFault) : Tile :=
  let b := flipBit f.bit.val
  match f.site with
  | .data i j => if i < 512 ∧ j < p then t.setCell i j b else t
  | .chkCol i => if i < 512 then { t with chkCol := putAt 0 b i t.chkCol } else t
  | .chkRow j => if j < p then { t with chkRow := putAt 0 b j t.chkRow } else t
  | .corner => { t with corner := b t.corner }
  | .trim => t
  | .lane => t
  | .gen => t

/-- A fault outside the cells that ends the pass as a MISMATCH (R115, R141). -/
def forces (f : CellFault) : Bool :=
  match f.site with
  | .trim => true
  | .lane => true
  | .gen => true
  | _ => false

/-- The injection of TW_LEDGER_INJECT as a fault (R116). -/
def injectFault (v : Nat) : CellFault :=
  let row := bits v 8 0
  let col := bits v 18 10
  { bit := Fin.ofNat 32 (bits v 24 20),
    site := match bits v 29 28 with | 0 => .chkCol row | 1 => .chkRow col | 2 => .corner | _ => .data row col }

/-! ### Syndromes -/

/-- Sum of words modulo 2^32. -/
def sumWords (l : List Word) : Word := l.foldl (· + ·) 0

/-- Rows of the cells that may be non-zero. -/
def Tile.rows (t : Tile) : Nat := max t.acc.length t.chkCol.length
/-- Logical columns of the cells that may be non-zero. -/
def Tile.cols (t : Tile) : Nat := t.acc.foldl (fun m r => max m r.length) t.chkRow.length

/-- The row syndrome d[i] (R101). -/
def Tile.rowSyn (t : Tile) (i : Nat) : Word := t.chkCol.getD i 0 - sumWords (t.acc.getD i [])
/-- The column syndrome e[j] (R101). -/
def Tile.colSyn (t : Tile) (j : Nat) : Word := t.chkRow.getD j 0 - sumWords (t.acc.map fun r => r.getD j 0)
/-- The syndrome f (R101). -/
def Tile.synF (t : Tile) : Word := t.corner - sumWords t.chkCol
/-- The syndrome g (R101). -/
def Tile.synG (t : Tile) : Word := t.corner - sumWords t.chkRow

/-- RS (R102). -/
def Tile.badRows (t : Tile) : List Nat := (List.range t.rows).filter fun i => t.rowSyn i != 0
/-- CS (R102). -/
def Tile.badCols (t : Tile) : List Nat := (List.range t.cols).filter fun j => t.colSyn j != 0

/-- The classification of a drain (R102). -/
inductive Class where
  | clean
  | single (row col : Nat) (d : Word)
  | mismatch
  deriving DecidableEq, Repr

/-- Classify the drained cells (R102). -/
def Tile.classify (t : Tile) : Class :=
  if t.synF = 0 ∧ t.synG = 0 then
    match t.badRows, t.badCols with
    | [], [] => .clean
    | [i], [j] => if t.rowSyn i = t.colSyn j then .single i j (t.rowSyn i) else .mismatch
    | _, _ => .mismatch
  else .mismatch

/-- The present physical columns of an engine, ascending (R82). -/
def State.present (s : State) (g : Nat) : List Nat := (List.range 512).filter fun c => !(s.core g).bypass.contains c

/-- The location of an outcome (R107, R120): counts, and the row and physical column where each set holds exactly one. -/
def locOf (present rs cs : List Nat) : Nat :=
  min rs.length 15 * 2 ^ 20 + min cs.length 15 * 2 ^ 24
  + (match rs with | [i] => 2 ^ 9 + i | _ => 0)
  + (match cs with | [j] => 2 ^ 19 + present.getD j 0 * 2 ^ 10 | _ => 0)

/-- The physical column that CS holds alone (R114). -/
def colOf (present cs : List Nat) : Option Nat := match cs with | [j] => present[j]? | _ => none

/-! ### Suspect units -/

/-- The register that shows a unit's SUSPECT bit (R93, R186). -/
def suspectReg (u : UnitId) : Nat := if u.unit.val = 0 then Reg.TW_STATUS u.core.val else Reg.TD_STATUS u.core.val (u.unit.val - 2)

/-- The place of a unit among the three that escalate: the engine, tidy0, tidy1. -/
def escIdx (u : UnitId) : Nat := if u.unit.val = 0 then 0 else u.unit.val - 1

/-- Units that escalate (R108, R178). -/
def escalates (u : UnitId) : Bool := u.unit.val == 0 || u.unit.val == 2 || u.unit.val == 3

/-- The escalation of a unit. -/
def State.escal (s : State) (u : UnitId) : Option Escal := (s.core u.core.val).escal.getD (escIdx u) none

/-- Change the escalation of a unit. -/
def State.setEscal (s : State) (u : UnitId) (e : Option Escal) : State :=
  s.updCore u.core.val fun c => { c with escal := c.escal.set (escIdx u) e }

/-- The injection that the unit's probe took. -/
def State.probeInj (s : State) (u : UnitId) : Option Nat := (s.core u.core.val).probeInj.getD (escIdx u) none

/-- Note the injection that the unit's probe takes. -/
def State.setProbeInj (s : State) (u : UnitId) (i : Option Nat) : State :=
  s.updCore u.core.val fun c => { c with probeInj := c.probeInj.set (escIdx u) i }

/-- The source of a unit's records (R14). -/
def unitSource (u : UnitId) : Nat := unitSrc u.core.val u.unit.val

/-- The injected pass has ended: ARM reads 0 (R116). -/
def State.disarm (s : State) (g : Nat) (i : Option Nat) : State := if i.isSome then s.setBit (Reg.TW_LEDGER_INJECT g) 31 false else s

/-- A command whose injected first run waits for its re-run: the injected pass has not ended (R116). -/
def Cmd.keepsInjection (c : Cmd) : Bool := c.stage == .running && c.eng.rerunDue && c.eng.injected.isSome

/-- A job's injected pass ends with its command, its re-run not run (R116). [DESIGN CHOICE, log entry 74] -/
def State.dropInjection (s : State) (j : Job) : State :=
  if j.cmds.any Cmd.keepsInjection then s.disarm j.core (some 0) else s

/-- Start a job again from its first command (R294, R295): its commands fresh, its contexts given up, the job to be placed again; where its deadline has passed they start no more (R285). [DESIGN CHOICE, log entry 64] -/
def State.replayJob (s : State) (id : Nat) : State :=
  let s := match s.job? id with | some j => s.dropInjection j | none => s
  let s := { s with holds := s.holds.filter fun h => h.job != id }
  let fresh := fun (late : Bool) (c : Cmd) => if late then { desc := c.desc, stage := .done, status := St.DEADLINE_MISSED, late := true : Cmd } else { desc := c.desc }
  (s.updJob id fun j => { j with phase := .accepted, replayed := true, preempted := false, spilled := [], cmds := j.cmds.map (fresh j.deadlinePassed) }).inc Reg.CMD_REPLAYED 1

/-- A command is in progress: its checks have begun and it has not ended. -/
def Cmd.inProgress (c : Cmd) : Bool := c.began && c.stage != .done

/-- What becomes of a job on a withdrawn core (R109, R321): unstarted it waits for another place; pre-empted, or with commands left that may not start there, it starts again elsewhere; a command in progress ends first. -/
def State.moveAway (s : State) (j : Job) : State :=
  if j.cmds.all (·.stage = .done) then s
  else if j.preempted then s.replayJob j.id
  else if j.cmds.any Cmd.inProgress then s
  else if j.cmds.any (·.began) then s.replayJob j.id
  else s.updJob j.id fun j => { j with phase := .accepted }

/-- A core is withdrawn (R109, R313, R321): its admitted nodes are re-homed and its jobs go elsewhere. -/
def State.withdraw (s : State) (g : Nat) : State :=
  let s := s.rehome (· == g)
  s.cmd.jobs.foldl (fun s j => if j.phase = .placed ∧ j.core = g then s.moveAway j else s) s

/-- A unit becomes suspect (R108, R178): SUSPECT set and reported with the location that made it so, escalation due, its core withdrawn. [DESIGN CHOICE, log entry 104] -/
def State.makeSuspect (s : State) (u : UnitId) (addr : Nat) : State :=
  if s.bit (suspectReg u) 30 then s
  else (((s.setBit (suspectReg u) 30 true).report (unitSource u) Kind.LEDGER_SUSPECT 0 addr).setEscal u (some {})).withdraw u.core.val

/-- Count a correction or transient in a unit's sliding second; at the limit the unit becomes suspect (R108, R178). -/
def State.countWindow (s : State) (u : UnitId) (limit addr : Nat) : State :=
  let w := ((s.core u.core.val).window.getD (escIdx u) []).filter (fun t => s.refNs < t + 1000000000) ++ [s.refNs]
  let s := s.updCore u.core.val fun c => { c with window := c.window.set (escIdx u) w }
  if limit ≤ w.length then s.makeSuspect u addr else s

/-- Put a record at the front of TW_LEDGER_HIST (R114). -/
def State.pushHist (s : State) (g outcome : Nat) (col : Option Nat) : State :=
  match col with
  | none => s
  | some c =>
    let old := (List.range 15).map fun n => s.rd (Reg.TW_LEDGER_HIST g n)
    let new := BitVec.ofNat 32 (2 ^ 31 + outcome * 2 ^ 16 + c) :: old
    (List.range 16).foldl (fun s n => s.wr (Reg.TW_LEDGER_HIST g n) (new.getD n 0)) s

/-! ### Judging a drain -/

/-- What the ledger decides of one run of a pass (R103, R104). -/
inductive Verdict where
  /-- Settled, with the selvage flags it adds (R105) and the correction phase, if one ran: the cell corrected. -/
  | settled (flags : Nat) (fix : Option (Nat × Nat))
  /-- The one re-run is due. -/
  | rerun
  | failed
  deriving DecidableEq, Repr

/-- The engine of a core as a unit. -/
def engineOf (g : Nat) : UnitId := ⟨Fin.ofNat 32 g, 0⟩

/-- Count, record and report an outcome that is not CLEAN (R105 to R107, R114, R117): 1 corrected, 2 transient, 3 failed. [DESIGN CHOICE, log entry 74] -/
def State.outcome (s : State) (g stall outcome loc : Nat) (col : Option Nat) (inj : Bool) : State :=
  let src := unitSrc g 0
  let addr := loc + b2n inj * 2 ^ 39
  let kind := match outcome with | 1 => Kind.LEDGER_CORRECTED | 2 => Kind.LEDGER_TRANSIENT | _ => Kind.LEDGER_FAIL
  let cnt := match outcome with | 1 => Reg.TW_LEDGER_CORRECTED g | 2 => Reg.TW_LEDGER_DISAGREE g | _ => Reg.TW_LEDGER_FAILS g
  let s := ((s.setFld (Reg.TW_LEDGER_STATUS g) 2 0 outcome).wr (Reg.TW_LEDGER_LOC g) (BitVec.ofNat 32 loc)).report src kind stall addr
  if inj then s.inc (Reg.TW_LEDGER_INJECTS g) 1
  else
    let s := (s.inc cnt 1).pushHist g outcome col
    if outcome = 3 then s.makeSuspect (engineOf g) addr
    else s.countWindow (engineOf g) (s.fld (Reg.TW_LEDGER_MODE g) 15 8) addr

/-- One drained run as the comparison sees it: cells with every fault in, whether it is the re-run, what the first run left, the injection it had, a fault outside the cells. -/
structure Drained where
  cells : Tile
  rerun : Bool
  eng : Eng
  inject : Option Nat
  forced : Bool
  deriving DecidableEq, Repr

/-- The classification of a drained run (R102, R115, R141). -/
def Drained.class (r : Drained) : Class := if r.forced then .mismatch else r.cells.classify

/-- What the ledger decides of a drained run (R103 to R105), with the cells that count, corrected where they are, and what the command remembers. -/
def State.ruling (s : State) (g : Nat) (r : Drained) : Verdict × Tile × Eng :=
  let p := s.present g
  let again := (.rerun, r.cells, { r.eng with rerunDue := true, firstLoc := locOf p r.cells.badRows r.cells.badCols, firstCol := colOf p r.cells.badCols, injected := r.inject })
  if r.rerun then
    match r.class with
    | .clean => (.settled (2 ^ 4) none, r.cells, {})
    | _ => (.failed, r.cells, {})
  else
    match r.class with
    | .clean => (.settled 0 none, r.cells, r.eng)
    | .single i j d => if s.bit (Reg.TW_LEDGER_MODE g) 0 then (.settled (2 ^ 5) (some (i, j)), r.cells.setCell i j (· + d), r.eng) else again
    | .mismatch => again

/-- What the ledger records of a drain that has completed (R102, R105 to R108, R114): registers, reports, a unit that becomes suspect. A first run that waits for its re-run leaves its location alone; its column enters the history with the outcome of the re-run, and never where that does not come. [DESIGN CHOICE, log entry 104] -/
def State.recordDrain (s : State) (g stall : Nat) (r : Drained) : State :=
  let p := s.present g
  let loc := locOf p r.cells.badRows r.cells.badCols
  match (s.ruling g r).1 with
  | .settled 0 _ => s.setFld (Reg.TW_LEDGER_STATUS g) 2 0 0
  | .settled _ none => s.outcome g stall 2 r.eng.firstLoc r.eng.firstCol r.eng.injected.isSome
  | .settled _ (some _) => s.outcome g stall 1 loc (colOf p r.cells.badCols) r.inject.isSome
  | .rerun => s.wr (Reg.TW_LEDGER_LOC g) (BitVec.ofNat 32 loc)
  | .failed => s.outcome g stall 3 loc (if r.eng.injected.isSome then none else r.eng.firstCol) r.inject.isSome

/-- The injection armed on an engine, for the pass that starts now (R116). -/
def State.armed (s : State) (g : Nat) : Option Nat :=
  if s.bit (Reg.TW_LEDGER_INJECT g) 31 then some (s.rd (Reg.TW_LEDGER_INJECT g)).toNat else none

/-- The injection of a pass that starts now: the armed one, unless the one pass it is for has started and still waits for its re-run (R116). [DESIGN CHOICE, log entry 96] -/
def State.injectNow (s : State) (g : Nat) : Option Nat :=
  if s.cmd.jobs.any fun j => j.core == g && j.cmds.any Cmd.keepsInjection then none else s.armed g

/-- The injection of a pass at its drain: dropped where ARM has been written 0 (R121). [DESIGN CHOICE, log entry 96] -/
def State.stillArmed (s : State) (g : Nat) (i : Option Nat) : Option Nat := if s.bit (Reg.TW_LEDGER_INJECT g) 31 then i else none

/-! ### Escalation (R110 to R114) -/

/-- The cluster control core of a core runs (R113). -/
def State.controlUp (s : State) (g : Nat) : Bool := s.bit Reg.FW_STATUS (3 + g / 8)

/-- Some escalation of the cluster is in progress. -/
def State.escalating (s : State) (c : Nat) : Bool := (List.range 8).any fun k => (s.core (c * 8 + k)).escal.any Option.isSome

/-- GATE of a cluster takes effect once no escalation of it is in progress (R495). -/
def State.gateTakes (s : State) (c : Nat) : State :=
  if s.bit (Reg.PWR_CLUSTER_C c) 31 && !(s.pwr.gated.getD c false) && !s.escalating c then
    ({ s with pwr := { s.pwr with gated := s.pwr.gated.set c true } } : State).rehome (fun g => g / 8 == c)
  else s

/-- Show the stage of an engine's escalation; a tidy unit shows none (R119). -/
def State.showStage (s : State) (u : UnitId) (stage : Nat) : State :=
  if u.unit.val = 0 then s.setFld (Reg.TW_LEDGER_STATUS u.core.val) 11 8 stage else s

/-- End an escalation: STAGE returns to 0 and HELD keeps the last stage (R110, R119). -/
def State.endEscal (s : State) (u : UnitId) (stage : Nat) : State :=
  let s := (s.showStage u 0).setEscal u none
  let s := if u.unit.val = 0 then s.setFld (Reg.TW_LEDGER_STATUS u.core.val) 15 12 stage else s
  s.gateTakes (u.core.val / 8)

/-- Columns bypassed now or by an entry that is still to take effect. -/
def Core.bypassed (c : Core) : List Nat := match c.pendMap with | some p => p.2 | none => c.bypass

/-- The candidate column for bypass: the present column with most records, at least two, the lowest on a tie (R114). -/
def State.candidate (s : State) (g : Nat) : Option Nat :=
  let cols := (List.range 16).filterMap fun n =>
    let r := Reg.TW_LEDGER_HIST g n
    if s.bit r 31 && !((s.core g).bypassed.contains (s.fld r 8 0)) then some (s.fld r 8 0) else none
  let best := cols.eraseDups.foldl (fun (b : Option (Nat × Nat)) c =>
    let n := cols.count c
    match b with
    | none => some (c, n)
    | some (c', n') => if n' < n ∨ (n' = n ∧ c < c') then some (c, n) else b) none
  match best with
  | some (c, n) => if 2 ≤ n then some c else none
  | none => none

/-- The stage after a given one, with the column that stage 7 bypasses, never a ninth (R83, R110, R114, R178). -/
def State.nextStage (s : State) (u : UnitId) (stage : Nat) : Nat × Option Nat :=
  if stage < 6 then (stage + 1, none)
  else if u.unit.val = 0 && (s.core u.core.val).bypassed.length < 8 then
    match s.candidate u.core.val with
    | some c => (7, some c)
    | none => (8, none)
  else (8, none)

/-- Insert a column in ascending order. -/
def insertCol (c : Nat) : List Nat → List Nat
  | [] => [c]
  | a :: t => if c < a then c :: a :: t else if c = a then a :: t else a :: insertCol c t

/-- Record an in-service entry of the disabled-unit map in the boot NOR, to take effect when the engine is free (R84). -/
def State.mapEntry (s : State) (g : Nat) (e : Bool × List Nat) : State :=
  let s := s.updCore g fun c => { c with pendMap := some e }
  { s with board := { s.board with service := s.board.service.set g e } }

/-- ESCALATION_STAGE_ENTER (R110, R112): the next stage's setting, its record, and what comes before its probe. [DESIGN CHOICE, log entry 74] -/
def execEscalationStageEnter (unit : UnitId) (s : State) : Host.Outcome State Fault Refusal :=
  .next (match s.escal unit with
    | none => s
    | some e =>
      if e.phase ≠ .due ∨ s.phase ≠ .live ∨ s.controlUp unit.core.val = false then s
      else
        let g := unit.core.val
        let c := g / 8
        let st := s.nextStage unit e.stage
        let n := st.1
        let s := (s.showStage unit n).report (unitSource unit) Kind.LEDGER_ESCALATED 0 (n * 2 ^ 32)
        if n ≤ 4 then
          if s.fld (Reg.PWR_REG_C c) 22 20 < n then
            ((s.setFld (Reg.PWR_REG_C c) 22 20 n).setBit (Reg.PWR_REG_C c) 31 false).setEscal unit (some ⟨n, .settling⟩)
          else s.setEscal unit (some ⟨n, .probeDue⟩)
        else if n ≤ 6 then
          let lim := if n = 5 then 1100 else 950
          let s := { s with pwr := { s.pwr with escCap := s.pwr.escCap.set c (min (s.pwr.escCap.getD c 1500) lim) } }
          let r := Reg.PWR_PACE_CAP_C c
          (s.setFld r 11 0 (min (s.fld r 11 0) lim)).setEscal unit (some ⟨n, .probeDue⟩)
        else if n = 7 then
          let col := st.2.getD 0
          ((s.mapEntry g ((s.core g).disabled, insertCol col (s.core g).bypassed)).report (unitSource unit) Kind.LEDGER_BYPASS 0 (col * 2 ^ 10)).setEscal unit (some ⟨7, .probeDue⟩)
        else ((s.mapEntry g (true, (s.core g).bypassed)).report (unitSource unit) Kind.LEDGER_DISABLE 0 0).endEscal unit 8)

/-- REGULATOR_SETTLED (R505, R506): the change of a cluster's raise has settled, or has not within 50 µs. -/
def execRegulatorSettled (cluster : ClusterId) (ok : Bool) (mv : BitVec 12) (s : State) : Host.Outcome State Fault Refusal :=
  .next (
    let c := cluster.val
    let r := Reg.PWR_REG_C c
    let s := (s.setBit r 31 ok).setFld r 11 0 mv.toNat
    let s := { s with cores := s.cores.mapIdx fun g x => if g / 8 = c then
      { x with escal := x.escal.map fun e => e.map fun y => if y.phase = .settling then { y with phase := .probeDue } else y } else x }
    if ok then s else s.report 0x102 Kind.REG_FAULT 0 (c + mv.toNat * 2 ^ 16))

/-- A command uses a unit of its core. -/
def usesUnit (d : List Byte) : Bool := opcodeOf d < 0x10

/-- A command of the core's units is in progress: begun and not ended, pre-empted ones too until the core is withdrawn (R84). -/
def State.coreBusy (s : State) (g : Nat) : Bool :=
  (s.core g).pass.isSome || s.cmd.jobs.any fun j =>
    j.phase = .placed && j.core == g && !(j.preempted && s.suspect g) && j.cmds.any fun c => usesUnit c.desc && c.inProgress

/-- The injection armed on a unit, for what runs there next (R116, R179). -/
def State.armedOn (s : State) (u : UnitId) : Option Nat :=
  if u.unit.val = 0 then s.injectNow u.core.val
  else
    let r := Reg.TD_INJECT u.core.val (u.unit.val - 2)
    if s.bit r 31 then some (s.rd r).toNat else none

/-- PROBE (R111): the probe set starts on the withdrawn core, once the stage's settings are in force and the core is free; its first pass or vector takes an armed injection (R116, R179). -/
def execProbe (unit : UnitId) (s : State) : Host.Outcome State Fault Refusal :=
  .next (match s.escal unit with
    | none => s
    | some e =>
      if e.phase = .probeDue ∧ s.controlUp unit.core.val ∧ (s.core unit.core.val).pendMap = none ∧ s.coreBusy unit.core.val = false ∧ (s.core unit.core.val).testing = false then
        (s.setProbeInj unit (s.armedOn unit)).setEscal unit (some { e with phase := .probing })
      else s)

/-- The column that a location names alone (R107). -/
def locCol (loc : Nat) : Option Nat := if bitOf loc 19 then some (bits loc 18 10) else none

/-- Record one outcome of an engine's probe, as for a command's pass but under stall 0 (R106, R111, R114, R119). -/
def State.probePass (s : State) (g : Nat) (inject : Bool) (b : ProbeBad) : State :=
  let n := b.outcome.val
  if n = 0 then s.setFld (Reg.TW_LEDGER_STATUS g) 2 0 0
  else s.outcome g 0 n (if n = 3 then b.rerun.toNat else b.first.toNat) (locCol b.first.toNat) (inject && b.injected)

/-- Record one outcome of a tidy unit's probe (R106, R177 to R179). -/
def State.probeVector (s : State) (u : UnitId) (inject : Bool) (b : ProbeBad) : State :=
  let g := u.core.val
  let m := u.unit.val - 2
  let n := b.outcome.val
  let inj := inject && b.injected
  if n = 0 then s
  else
    let addr := (if n = 3 then b.rerun.toNat else b.first.toNat) + b2n inj * 2 ^ 39
    let s := s.report (unitSource u) (if n = 3 then Kind.LEDGER_FAIL else Kind.LEDGER_TRANSIENT) 0 addr
    if inj then s.inc (Reg.TD_CHECK_INJECTS g m) 1
    else (s.inc (if n = 3 then Reg.TD_CHECK_FAILS g m else Reg.TD_CHECK_RETRIED g m) 1).countWindow u 4 addr

/-- Record one outcome of a probe. -/
def State.probeOutcome (s : State) (u : UnitId) (inject : Bool) (b : ProbeBad) : State :=
  if u.unit.val = 0 then s.probePass u.core.val inject b else s.probeVector u inject b

/-- What a probe ran enters the unit's counters (R73, R78, R95, R187), and LAST is CLEAN until an outcome says otherwise (R119); its injection has ended (R116), and its passes were staged (R229). -/
def State.countProbe (s : State) (u : UnitId) (inject : Bool) (p : ProbePasses) (k : ProbeSteps) : State :=
  let g := u.core.val
  let m := u.unit.val - 2
  if u.unit.val = 0 then
    let s := ((s.inc (Reg.TW_PASSES g) p.ran).inc64 (Reg.TW_STEPS g) k.ran).inc64 (Reg.TW_STEPS_SAVED g) k.saved
    let s := (s.inc (Reg.TW_OVF_PASSES g) p.ovf).setFld (Reg.TW_LEDGER_STATUS g) 2 0 0
    (if inject then s.setBit (Reg.TW_LEDGER_INJECT g) 31 false else s).loseChunks g
  else
    let s := (s.inc (Reg.TD_CHAINS g m) p.ran).inc64 (Reg.TD_STEPS g m) k.ran
    if inject then s.setBit (Reg.TD_INJECT g m) 31 false else s

/-- PROBE_COMPLETE (R110, R111): clean clears SUSPECT and ends the escalation; otherwise the next stage is due. No probe lasts longer than 1,000,000 bit-steps. -/
def execProbeComplete (unit : UnitId) (passes : ProbePasses) (steps : ProbeSteps) (bad : List ProbeBad) (known : Bool) (s : State) : Host.Outcome State Fault Refusal :=
  .next (match s.escal unit with
    | none => s
    | some e =>
      if e.phase ≠ .probing ∨ s.controlUp unit.core.val = false ∨ 1000000 < steps.ran then s
      else
        let inj := (s.probeInj unit).isSome
        let s := s.countProbe unit inj passes steps
        let s := bad.foldl (fun s b => s.probeOutcome unit inj b) s
        if bad.all (·.outcome == 0) && known then
          ((s.setBit (suspectReg unit) 30 false).report (unitSource unit) Kind.LEDGER_RESTORED 0 0).endEscal unit e.stage
        else s.setEscal unit (some { e with phase := .due }))

/-- DISABLED_MAP_APPLY (R84, R221): a waiting map entry takes effect while no command is in progress on the engine. -/
def execDisabledMapApply (core : CoreId) (s : State) : Host.Outcome State Fault Refusal :=
  .next (
    let g := core.val
    match (s.core g).pendMap with
    | none => s
    | some (dis, cols) =>
      let probing := (s.core g).escal.any fun e => e.any (·.phase = .probing)
      if s.coreBusy g || probing then s
      else
        let was := (s.core g).disabled
        let s := s.updCore g fun c => { c with disabled := dis, bypass := cols, pendMap := none }
        if dis && !was then (s.loseBolt g).withdraw g else s)

/-- A unit's probe runs. -/
def State.probing (s : State) (u : UnitId) : Bool := (s.escal u).any (·.phase = .probing)

/-- A pass is in progress on an engine (R93): a command's, a probe's or a self-test slice's. A probe and a slice run passes from start to end. [DESIGN CHOICE, log entry 104] -/
def State.engineBusy (s : State) (g : Nat) : Bool := (s.core g).pass.isSome || s.probing (engineOf g) || (s.core g).testing

/-- TW_STATUS as it reads (R93): DISABLED, BYPASSED and PRESENT come from the map in force. -/
def State.readTwStatus (s : State) (g : Nat) : Word :=
  let v := (s.rd (Reg.TW_STATUS g)).toNat
  let c := s.core g
  BitVec.ofNat 32 (b2n c.disabled * 2 ^ 31 + b2n (bitOf v 30) * 2 ^ 30 + b2n (s.engineBusy g) * 2 ^ 29 + c.bypass.length % 16 * 2 ^ 16 + s.width g)

/-- TW_COLMAPn as it reads (R94). -/
def State.readColmap (s : State) (g n : Nat) : Word :=
  BitVec.ofNat 32 ((s.core g).bypass.foldl (fun v c => if c / 32 = n then v + 2 ^ (c % 32) else v) 0)

end Sys2Proof.Machine
end

