-- ==== Sys2Proof/Machine/Twill.lean ====
section
/-!
DEFINITION. The Twill engine (R61 to R81): operands, trimmed steps, cells, the drain's conversion and argmax, and the parts
of TWILL_PASS: base and K steps, drain, re-run, low pass.
-/
namespace Sys2Proof.Machine

/-! ### Operands -/

/-- The value of a weft element of width b from its bits (R62). -/
def weftValue (sg : Bool) (b raw : Nat) : Int := if sg then signed b raw else (raw % 2 ^ b : Nat)

/-- The value of the low n planes of a weft element, each plane p worth 2^p. -/
def lowPlanes (raw : Nat) : Nat → Int
  | 0 => 0
  | p + 1 => lowPlanes raw p + (b2n (raw.testBit p) * 2 ^ p : Nat)

/-- The value that b′ presented planes of a weft element have, plane by plane; plane b′ − 1 is the sign plane of a signed weft (R63, R71). -/
def planeValue (sg : Bool) (raw : Nat) : Nat → Int
  | 0 => 0
  | n + 1 =>
    let top : Int := (b2n (raw.testBit n) * 2 ^ n : Nat)
    lowPlanes raw n + (if sg then -top else top)

/-- The smallest width that holds a value; at least 1 for a signed weft (R71). -/
def needWidth (sg : Bool) (v : Int) : Nat :=
  if sg then
    let u := (if v < 0 then -v - 1 else v).toNat
    if u = 0 then 1 else Nat.log2 u + 2
  else if v.toNat = 0 then 0 else Nat.log2 v.toNat + 1

/-- The trimmed width b′ of a step: 0 where every element is zero (R71). -/
def trimWidth (sg : Bool) (vs : List Int) : Nat :=
  if vs.all (· == 0) then 0 else vs.foldl (fun m v => max m (needWidth sg v)) 0

/-- Bit-steps of a step of trimmed width b′ (R71). -/
def stepCost (b : Nat) : Nat := if b = 0 then 0 else max b 2

/-- The bits of weft element i of a plane-sliced step of width b (R68). -/
def weftRaw (b : Nat) (step : List Byte) (i : Nat) : Nat :=
  (List.range b).foldl (fun a p => a + b2n ((step.getD (p * 64 + i / 8) 0).getLsbD (i % 8)) * 2 ^ p) 0

/-- One K step as the engine receives it: the weft elements' bits by row, the warp elements' values by logical column. -/
structure KStep where
  weft : List Nat
  warp : List Int
  deriving DecidableEq, Repr

/-! ### Cells through a pass (R63, R64, R97 to R100) -/

/-- The cells while the steps run: exact sums, OVF, and the checksum cells. -/
structure Cells where
  exact : List (List Int)
  ovf : List (List Bool)
  chkCol : List Int
  chkRow : List Int
  corner : Int
  /-- Bit-steps consumed by the K steps. -/
  cost : Nat := 0
  deriving DecidableEq, Repr

/-- Sum of integers. -/
def sumInt (l : List Int) : Int := l.foldl (· + ·) 0

/-- The cells after the base: cleared (no list), or loaded with C-in rows (R65, R100). -/
def baseCells (rows cols : Nat) (cin : Option (List (List Int))) : Cells :=
  let m := match cin with
    | none => List.replicate rows (List.replicate cols 0)
    | some l => l
  { exact := m, ovf := List.replicate rows (List.replicate cols false), chkCol := m.map sumInt,
    chkRow := (List.range cols).map fun j => sumInt (m.map fun r => r.getD j 0), corner := sumInt (m.map sumInt) }

/-- An exact sum lies outside the signed 32-bit range (R64). -/
def outside32 (x : Int) : Bool := x < -(2 ^ 31) || 2 ^ 31 ≤ x

/-- One K step of a weft of width b (R63, R64, R71, R97 to R99): only the trimmed planes are presented. -/
def Cells.step (sg : Bool) (b : Nat) (c : Cells) (k : KStep) : Cells :=
  let bw := trimWidth sg (k.weft.map (weftValue sg b))
  if bw = 0 then c
  else
    let w := k.weft.map fun r => planeValue sg r bw
    let s := sumInt k.warp
    let n := sumInt w
    let ex := List.zipWith (fun row v => List.zipWith (fun e x => e + v * x) row k.warp) c.exact w
    { exact := ex, ovf := List.zipWith (fun o row => List.zipWith (fun o e => o || outside32 e) o row) c.ovf ex,
      chkCol := List.zipWith (fun e v => e + v * s) c.chkCol w, chkRow := List.zipWith (fun e x => e + n * x) c.chkRow k.warp,
      corner := c.corner + n * s, cost := c.cost + stepCost bw }

/-- A 32-bit word of an integer. -/
def word (i : Int) : Word := BitVec.ofInt 32 i

/-- The cells as the drain reads them: every accumulator and checksum modulo 2^32 (R63, R96). -/
def Cells.tile (c : Cells) : Tile :=
  { acc := c.exact.map (·.map word), ovf := c.ovf, chkCol := c.chkCol.map word, chkRow := c.chkRow.map word, corner := word c.corner }

/-- A pass from its base to its last K step (R65). -/
def runCells (sg : Bool) (b rows cols : Nat) (cin : Option (List (List Int))) (ks : List KStep) : Cells :=
  ks.foldl (Cells.step sg b) (baseCells rows cols cin)

/-- Bit-steps of base, K steps and drain, and those that trimming saved (R65, R71, R73). -/
def passSteps (c : Cells) (cin : Bool) (b k : Nat) : Nat × Nat :=
  ((if cin then 512 else 1) + c.cost + 512, k * widthSteps b - c.cost)

/-! ### The drain (R74 to R78) -/

/-- The layout of a drain: output rows, scales, argmax (R68, R74 to R77); q0 is the first column's index in the scale table, the argmax indices and the rows. -/
structure Drain where
  fmt : Nat
  rnd : Nat
  mark : Bool
  zp : Nat
  argmax : Bool
  argmaxOnly : Bool
  rows : Nat
  cols : Nat
  q0 : Nat
  out : Nat
  outStride : Nat
  argmaxAt : Nat
  /-- Device address of each scale table; none acts as 1. -/
  rowScale : Option Nat
  colScale : Option Nat
  deriving DecidableEq, Repr

/-- A scale entry: MULT and SHIFT (R75). -/
def scaleEntry (v : Nat) : Nat × Nat := (bits v 15 0, bits v 20 16)

/-- Saturate to an integer output format (R74). -/
def satOut (fmt : Nat) (q : Int) : Int :=
  match fmt with
  | 1 => clampInt (-128) 127 q
  | 2 => clampInt 0 255 q
  | _ => clampInt (-32768) 32767 q

/-- A drain's float result: one rounding half to even, and a zero is positive (R76). -/
def floatOut (f : FpFmt) (x : Int) (sh : Nat) : Nat :=
  let p := f.ofRatio (decide (x < 0)) x.natAbs (2 ^ sh)
  if p % 2 ^ (f.eb + f.mb) = 0 then 0 else p

/-- The pattern that the drain writes for an accumulator (R76). -/
def requant (fmt rnd zp : Nat) (rs cs : Nat × Nat) (a : Word) : Nat :=
  if fmt = 0 then a.toNat
  else
    let x := a.toInt * ((rs.1 * cs.1 : Nat) : Int)
    let sh := rs.2 + cs.2
    if fmt ≤ 3 then unsigned (8 * (outBytes fmt).getD 1) (satOut fmt (roundShift x sh rnd + signed 16 zp))
    else floatOut (if fmt = 4 then bf16 else fp16) x sh

/-- The overflow marker of a format (R78). -/
def marker (fmt : Nat) : Nat :=
  match fmt with
  | 0 => 0x80000000
  | 1 => 0x80
  | 2 => 0
  | 3 => 0x8000
  | 4 => 0x7FC0
  | _ => 0x7E00

/-- A written output as the number argmax compares (R77). -/
def outValue (fmt p : Nat) : Fp :=
  match fmt with
  | 0 => .ofInt (signed 32 p)
  | 1 => .ofInt (signed 8 p)
  | 2 => .ofInt p
  | 3 => .ofInt (signed 16 p)
  | 4 => bf16.value p
  | _ => fp16.value p

/-- The lowest row with the greatest value; a NaN ranks below every number (R77). -/
def argmaxOf (vs : List Fp) : Nat :=
  ((vs.zipIdx).foldl (fun (b : Fp × Nat) v => if (b.1.isNan && !v.1.isNan) || v.1.gt b.1 then v else b) (.nan, 0)).2

/-- Read a scale table's entries from q on, n of them (R75). -/
def readScales (t : Tag) (at_ : Option Nat) (q n : Nat) : Run (List (Nat × Nat)) :=
  match at_ with
  | none => pure (List.replicate n (1, 0))
  | some a => do
    let b ← readMem t (a + q * 4) (n * 4)
    pure ((List.range n).map fun i => scaleEntry (le b (4 * i) 4))

/-- Write a drain's output rows and argmax indices from settled or unsettled cells (R76 to R78). -/
def drainWrite (t : Tag) (d : Drain) (x : Tile) : Run Unit := do
  let rs ← readScales t d.rowScale 0 d.rows
  let cs ← readScales t d.colScale d.q0 d.cols
  let e := (outBytes d.fmt).getD 1
  let pat := fun i j => if d.mark && x.hasOvf i j then marker d.fmt else requant d.fmt d.rnd d.zp (rs.getD i (1, 0)) (cs.getD j (1, 0)) (x.cell i j)
  if ¬ d.argmaxOnly then
    eachDo (fun i => writeMem t (d.out + i * d.outStride + d.q0 * e) ((List.range d.cols).flatMap fun j => leBytes e (pat i j))) (List.range d.rows)
  if d.argmax then
    writeMem t (d.argmaxAt + d.q0 * 2) ((List.range d.cols).flatMap fun j =>
      leBytes 2 (argmaxOf ((List.range d.rows).map fun i => outValue d.fmt (pat i j))))

/-- OVF stands in a cell of the tile (R78). -/
def Tile.anyOvf (t : Tile) (rows cols : Nat) : Bool :=
  (List.range rows).any fun i => (List.range cols).any fun j => t.hasOvf i j

/-! ### TWILL_PASS -/

/-- The drain of a TWILL_PASS's last pass. -/
def twillDrain (g : Nat) (t : TwillD) : Drain :=
  { fmt := t.fmt, rnd := t.rnd, mark := t.ovfMark, zp := t.outZero, argmax := t.argmax, argmaxOnly := t.argmaxOnly, rows := t.rows,
    cols := t.cols, q0 := 0, out := boltAddr g t.out, outStride := t.outStride, argmaxAt := boltAddr g t.argmaxOff,
    rowScale := if t.rowScale = 0 then none else some (boltAddr g t.rowScale),
    colScale := if t.colScale = 0 then none else some (boltAddr g t.colScale) }

/-- The warp elements of a step as one pass takes them: whole 8-bit elements, or the high or low bytes of 16-bit ones (R62, R80). -/
def warpValues (t : TwillD) (low : Bool) (row : List Byte) : List Int :=
  (List.range t.cols).map fun j =>
    if t.warp16 then
      if low then ((row.getD (2 * j) 0).toNat : Int)
      else let h := (row.getD (2 * j + 1) 0); if t.aSigned then h.toInt else h.toNat
    else let h := row.getD j 0; if t.aSigned then h.toInt else h.toNat

/-- Read C-in rows as signed words (R65, R68). -/
def readCin (t : Tag) (base stride rows cols : Nat) : Run (List (List Int)) := do
  let rec go : Nat → List (List Int) → Run (List (List Int))
    | 0, acc => pure acc
    | n + 1, acc => do
      let b ← readMem t (base + n * stride) (cols * 4)
      go n (((List.range cols).map fun j => signed 32 (le b (4 * j) 4)) :: acc)
  go rows []

/-- Read the K steps of a TWILL_PASS in ascending k. -/
def readSteps (tag : Tag) (g : Nat) (t : TwillD) (low : Bool) : Nat → Run (List KStep)
  | 0 => pure []
  | n + 1 => do
    let rest ← readSteps tag g t low n
    let w ← readMem tag (boltAddr g t.weft + n * t.bits * 64) (t.bits * 64)
    let a ← readMem tag (boltAddr g t.warp + n * t.warpStride) (t.cols * t.e)
    pure (rest ++ [{ weft := (List.range t.rows).map (weftRaw t.bits w), warp := warpValues t low a }])

/-- Where step k of a pass of weft width b lies in its chunk buffer: the weft, the warp (R70, R229). [DESIGN CHOICE, log entry 109] -/
def chunkAt (g b k : Nat) : Nat × Nat :=
  let base := skeinAddr g (if k / 128 % 2 = 0 then 0 else 0x30000)
  (base + k % 128 * (b * 64), base + 128 * (b * 64) + k % 128 * 512)

/-- The weft of a step as a porter stages it: plane by plane, the bits of rows past the last zero (R68, R69). -/
def stagedWeft (b : Nat) (weft : List Nat) : List Byte :=
  (List.range b).flatMap fun p => (List.range 64).map fun i =>
    BitVec.ofNat 8 ((List.range 8).foldl (fun v t => v + b2n ((weft.getD (8 * i + t) 0).testBit p) * 2 ^ t) 0)

/-- A step is staged in its chunk buffer, and the engine reads the planes that trimming leaves it and the warp vector, checked (R69 to R71, R229, R240, R243).
The warp of a feeder's pass comes from the window register (R130). Bytes of the warp vector's place past its columns stay. [DESIGN CHOICE, log entry 109] -/
def stageStep (tag : Tag) (g : Nat) (sg : Bool) (b : Nat) (feeder : Bool) (k : Nat) (x : KStep) : Run Unit := do
  let p := chunkAt g b k
  let warp := if feeder then [] else (x.warp.take 512).map fun v => BitVec.ofInt 8 v
  change fun s => (s.stageBytes g p.1 (stagedWeft b x.weft)).stageBytes g p.2 warp
  let bw := trimWidth sg (x.weft.map (weftValue sg b))
  if bw ≠ 0 then
    eccRead tag p.1 (bw * 64)
    eachDo (fun l => eccRead tag l.1 l.2) (lines p.2 warp.length)

/-- The steps of a pass through its chunk buffers, in ascending k. -/
def stageSteps (tag : Tag) (g : Nat) (sg : Bool) (b : Nat) (feeder : Bool) (ks : List KStep) : Run Unit :=
  eachDo (fun (x : KStep × Nat) => stageStep tag g sg b feeder x.2 x.1) ks.zipIdx

/-- A pass begins on an engine: its cells after the last K step, its cost, and the injection armed for it. -/
def beginPass (g job idx : Nat) (c : Cells) (cin : Bool) (b k : Nat) (rerun low : Bool) (inject : Option Nat) : Run Unit :=
  let st := passSteps c cin b k
  change fun s => s.updCore g fun x => { x with pass := some { job := job, cmd := idx, tile := c.tile, steps := st.1, saved := st.2, rerun := rerun, low := low, inject := inject } }

/-- The injection that ends with a run of a pass: its own, or the one its first run had (R116). [DESIGN CHOICE, log entry 96] -/
def Pass.injection (p : Pass) (c : Cmd) : Option Nat := if p.rerun then c.eng.injected else p.inject

/-- An error stops a pass: it is abandoned, and the steps it consumed are not stated (R87, R95). [DESIGN CHOICE, log entry 41] -/
def State.abandonPass (s : State) (g : Nat) : State :=
  let n := (Config.free 16 s.freeN).toNat
  let s := { s with freeN := s.freeN + 1 }
  let s := (s.inc (Reg.TW_ABANDONED g) 1).inc64 (Reg.TW_STEPS g) n
  let s := match (s.core g).pass with
    | none => s
    | some p => match (s.job? p.job).bind (·.cmd? p.cmd) with
      | some c => s.disarm g (p.injection c)
      | none => s.disarm g p.inject
  s.updCore g fun c => { c with pass := none }

/-- Run a part of a pass; an error abandons the pass and ends the command. -/
def passPart {α : Type} (g : Nat) (m : Run α) : Run α :=
  tryCatch m fun e => do change (·.abandonPass g); throw e

/-- Start a pass of TWILL_PASS: H, L or the only one (R65, R80), as its first run or its re-run. -/
def startTwill (j : Job) (idx : Nat) (d : List Byte) (rerun low : Bool) (inject : Option Nat) : Run Unit := do
  let s ← get
  let t := twillD d
  let g := j.core
  let tag := j.tag s 0
  let cin := t.cin && (!t.warp16 || low)
  passPart g do
    let base ← if cin then (some <$> readCin tag (boltAddr g t.cinOff) t.cinStride t.rows t.cols) else pure none
    let ks ← readSteps tag g t low t.k
    stageSteps tag g t.wSigned t.bits false ks
    beginPass g j.id idx (runCells t.wSigned t.bits t.rows t.cols base ks) cin t.bits t.k rerun low inject

/-- TWILL_PASS (R90): the pass starts, or its H pass under WARP16; the drain and what follows are steps of their own. -/
def execTwillPass (job idx : Nat) (s : State) : Host.Outcome State Fault Refusal :=
  .next (runPart s job idx 0x01 .started fun j c => do
    change fun s => s.updCmd job idx fun c => { c with stage := .running }
    let s ← get
    let s' := s.injectNow j.core
    startTwill j idx c.desc false false s')

/-- The combined cells of a WARP16 command from H's rows, H's OVF and L's cells (R80). -/
def combine (h : List (List Int)) (hOvf : List (List Bool)) (l : Tile) : Tile :=
  { l with
    acc := l.acc.zipIdx.map fun r => r.1.zipIdx.map fun x => word ((h.getD r.2 []).getD x.2 0 * 256 + x.1.toInt),
    ovf := l.acc.zipIdx.map fun r => r.1.zipIdx.map fun x =>
      l.hasOvf r.2 x.2 || (hOvf.getD r.2 []).getD x.2 false || outside32 ((h.getD r.2 []).getD x.2 0 * 256 + x.1.toInt) }

/-- Read H's rows back from the scratch area for L's drain; its selvage is checked for CRC, version and extent only (R80, R91). -/
def readScratch (tag : Tag) (g : Nat) (t : TwillD) : Run (List (List Int)) := do
  let b := twillScratch g t
  let _ ← checkInput tag b 0 0
  readCin tag b.base (scratchStride t.cols) t.rows t.cols

/-- Write H's raw rows to the scratch area, then its selvage with the flags that H added (R80, R91). -/
def writeScratch (tag : Tag) (g : Nat) (t : TwillD) (p : Prov) (x : Tile) : Run Unit := do
  let b := twillScratch g t
  openOutput tag b
  zeroGaps tag b
  eachDo (fun i => writeMem tag (b.base + i * scratchStride t.cols) ((List.range t.cols).flatMap fun j => leBytes 4 (x.cell i j).toNat)) (List.range t.rows)
  closeOutput tag b p

/-- Account a drained run: one more pass, its bit-steps, the bit-steps saved (R73, R95); a re-run and a correction are charged to stall 0 (R317). -/
def State.countPass (s : State) (g : Nat) (p : Pass) (extra : Nat) : State :=
  let s := ((s.inc (Reg.TW_PASSES g) 1).inc64 (Reg.TW_STEPS g) (p.steps + extra)).inc64 (Reg.TW_STEPS_SAVED g) p.saved
  let extraSteps := (if p.rerun then p.steps else 0) + extra
  let s := if extraSteps = 0 then s else s.charge 0 extraSteps
  s.updCmd p.job p.cmd fun c => { c with saved := c.saved + p.saved }

/-- OVF in a drained tile: every run is counted, and the flag is that of the run whose outputs stand (R78, R88). -/
def State.countOvf (s : State) (g : Nat) (p : Pass) (settled o : Bool) : State :=
  if !o then s
  else
    let s := s.inc (Reg.TW_OVF_PASSES g) 1
    if settled then s.addOwn p.job p.cmd (2 ^ 6) else s

/-- Bit-steps of the correction phase after a drain (R103): 516 where the drain wrote argmax indices, which the H pass of R80 does not. [DESIGN CHOICE, log entry 104] -/
def correctionCost (argmax : Bool) : Verdict → Nat
  | .settled _ (some _) => if argmax then 516 else 4
  | _ => 0

/-- A pass at the comparator: its cells with the bits that flipped and the injection still armed (R101, R116). -/
def State.drained (s : State) (g : Nat) (p : Pass) (eng : Eng) (faults : List CellFault) : Drained :=
  let inj := s.stillArmed g p.inject
  let raw := faults.foldl (Tile.flip (s.width g)) p.tile
  { cells := (match inj with | some v => raw.flip (s.width g) (injectFault v) | none => raw), rerun := p.rerun, eng := eng, inject := inj, forced := faults.any forces }

/-- A drain has completed (R95, R102, R105): the run is counted, its outcome recorded, its OVF noted; the disagreements of the feeder's generators count too (R152). -/
def State.endDrain (s : State) (g stall : Nat) (p : Pass) (r : Drained) (argmax ovf : Bool) : State :=
  let v := (s.ruling g r).1
  let settled := match v with | .settled .. => true | _ => false
  ((s.countPass g p (correctionCost argmax v)).recordDrain g stall r).countOvf g p settled ovf

/-- Leave the engine free, with what the command remembers between its passes. -/
def State.leaveEngine (s : State) (g : Nat) (p : Pass) (e : Eng) : State :=
  (s.updCore g fun c => { c with pass := none }).updCmd p.job p.cmd fun c => { c with eng := e }

/-- The drain of a pass of TWILL_PASS (R74 to R81, R101 to R105): written, then judged, and the command carried on or ended; a drain that is stopped is not judged (R87, R102). -/
def drainTwill (j : Job) (p : Pass) (c : Cmd) (faults : List CellFault) : Run Unit := do
  let t := twillD c.desc
  let g := j.core
  let s ← get
  let tag := j.tag s 0
  let r := s.drained g p c.eng faults
  let (v, fixed, eng) := s.ruling g r
  let high := t.warp16 && !p.low
  let ovf ← passPart g do
    if high then do
      let o := fixed.anyOvf t.rows t.cols
      let own := match v with | .settled f _ => f | _ => 0
      writeScratch tag g t { flags := own ||| (if o then 2 ^ 6 else 0) } fixed
      pure o
    else do
      let out ← if t.warp16 then do
          let h ← readScratch tag g t
          pure (combine h c.eng.hOvf fixed)
        else pure fixed
      drainWrite tag (twillDrain g t) out
      pure (out.anyOvf t.rows t.cols)
  change fun s => s.endDrain g j.stall p r (t.argmax && !high) ovf
  match v with
  | .settled f _ => do
    change fun s => (s.addOwn p.job p.cmd f).disarm g (p.injection c)
    let keep : Eng := if high then { lowDue := true, hOvf := fixed.ovf } else {}
    change fun s => s.leaveEngine g p keep
    if ¬ high then change fun s => s.finishCmd p.job p.cmd (successStatus (s.ownOf p.job p.cmd))
  | .rerun => change fun s => s.leaveEngine g p { eng with hOvf := c.eng.hOvf }
  | .failed => do
    change fun s => (s.disarm g c.eng.injected).leaveEngine g p {}
    change fun s => s.finishCmd p.job p.cmd St.LEDGER_FAIL

/-- The command that runs on a core's engine or waits to run its next pass there: job and index. -/
def State.engineCmd (s : State) (g : Nat) (f : Cmd → Bool) : Option (Job × Nat × Cmd) :=
  s.cmd.jobs.findSome? fun j =>
    if j.phase = .placed && j.core == g && !j.preempted then
      ((j.cmds.zipIdx).find? fun c => c.1.stage = .running && f c.1).map fun c => (j, c.2, c.1)
    else none

/-- A pre-emption waits for the core's running command to reach a boundary (R318); it comes before a re-run and before L (R81, R87). -/
def State.yieldDue (s : State) (g : Nat) : Bool := (s.sch.preempt.getD g none).isSome

/-- The injection a pass's re-run has: the first run's again where PERSIST is 1 (R116). -/
def persists (i : Option Nat) : Option Nat := i.filter fun v => bitOf v 30

/-- WARP16_LOW_PASS (R80, R81): L starts once H is settled and the engine is free. -/
def execWarp16LowPass (core : CoreId) (s : State) : Host.Outcome State Fault Refusal :=
  .next (
    let g := core.val
    if (s.core g).pass.isSome ∨ s.yieldDue g then s
    else match s.engineCmd g fun c => opcodeOf c.desc == 1 && c.eng.lowDue && !c.eng.rerunDue with
      | none => s
      | some (j, i, _) => runPart s j.id i 1 .running fun j c => startTwill j i c.desc false true (s.injectNow g))

/-- CHUNK_READY (R70): the engine goes on at the chunk boundary; its wait is counted as porter starvation. -/
def execChunkReady (core : CoreId) (waited : Nat) (s : State) : Host.Outcome State Fault Refusal :=
  .next (if (s.core core.val).pass.isSome then s.inc64 (Reg.SK_CHUNK_WAIT core.val) waited else s)

end Sys2Proof.Machine
end

