-- ==== Sys2Proof/Machine/Tidy.lean ====
section
/-!
DEFINITION. The tidy units (R153 to R188): lane values, the operation menu (R161 to R164), loads and stores (R165 to R167),
reductions in their fixed order (R168, R169), selection, gathers and scatters, the checker, and TIDY_CHAIN.
-/
namespace Sys2Proof.Machine

/-! ### Lane values -/

/-- What a lane holds: a float of the compute type, or an int32. -/
inductive Val where
  | f (x : Fp)
  | i (w : Word)
  deriving DecidableEq, Repr

/-- The float format of a compute type (R153). -/
def ctFmt (ct : Nat) : FpFmt := if ct = 0 then fp32 else if ct = 1 then bf16 else fp16

/-- A lane value as a float. -/
def Val.fp : Val → Fp
  | .f x => x
  | .i w => .ofInt w.toInt

/-- A lane value as an int32. -/
def Val.int : Val → Int
  | .f _ => 0
  | .i w => w.toInt

/-- The number 1 or 0 of a comparison, as a float. -/
def fpBool (b : Bool) : Fp := .ofInt (if b then 1 else 0)

/-- A function computed in FP32 and then rounded to the compute type (R163). [DEDUCED, log entry 47] -/
def via32 (f : FpFmt) (x : Fp) : Fp := f.round x

/-- SIGMOID, each step rounding as an element stage (R163). -/
def sigmoidF (f : FpFmt) (a : Fp) : Fp :=
  let t := via32 f (fp32.exp a.neg)
  let u := f.round (t.add (.ofInt 1))
  via32 f (fp32.div (.ofInt 1) u)

/-- GELU, each step rounding as an element stage (R163). -/
def geluF (f : FpFmt) (a : Fp) : Fp :=
  let u := f.round (a.mul a)
  let u := f.round (u.mul a)
  let v := f.round ((u.mul (fp32.roundRatio false 44715 1000000)).add a)
  let v := f.round (v.mul (fp32.roundRatio false 7978846 10000000))
  let t := via32 f (fp32.tanh v)
  let w := f.round (t.add (.ofInt 1))
  let w := f.round (w.mul a)
  f.round (w.mul (.fin false 1 (-1)))

/-- The exact quotient of two numbers rounded to an integer (QUANT): 0 half away from zero, 1 half to even. -/
def quotInt (rnd : Nat) (a b : Fp) : Fp :=
  match a, b with
  | .fin s m e, .fin t n g =>
    if n = 0 then fp32.div a b
    else
      let x := ratioOf m e
      let y := ratioOf n g
      .ofInt (roundInt (if rnd = 0 then 4 else 0) (s != t) (x.1 * y.2) (x.2 * y.1))
  | _, _ => fp32.div a b

/-- An element or row stage in a float compute type: the exact result rounded once to it (R161 to R163). [DEDUCED, log entry 47] -/
def evalF (f : FpFmt) (op param : Nat) (i0 i1 a b c : Fp) : Fp :=
  f.round (match op with
    | 0x01 => a.add b
    | 0x02 => a.add b.neg
    | 0x03 => a.mul b
    | 0x04 => (a.mul b).add c
    | 0x05 => a.min2 b
    | 0x06 => a.max2 b
    | 0x07 => a.abs
    | 0x08 => a.neg
    | 0x09 => fpBool (a.gt b)
    | 0x0A => fpBool (a.ge b)
    | 0x0B => fpBool (a.eqv b)
    | 0x0C => fpBool (a.ge i0 && i1.gt a)
    | 0x0D => if a.isZero then c else b
    | 0x0E => (a.max2 i0).min2 i1
    | 0x0F => a.roundIntegral param
    | 0x10 => fp32.div (.ofInt 1) a
    | 0x11 => fp32.div a b
    | 0x12 => fp32.sqrt a
    | 0x13 => fp32.rsqrt a
    | 0x14 => fp32.exp a
    | 0x15 => fp32.log a
    | 0x16 => fp32.tanh a
    | 0x17 => sigmoidF f a
    | 0x18 => a.mul (sigmoidF f a)
    | 0x19 => geluF f a
    | 0x1A => (quotInt param a b).add i0
    | 0x1B => (a.add i0.neg).mul b
    | _ => a)

/-- An element or row stage in CT INT (R161, R164). -/
def evalI (op param : Nat) (i0 i1 a b c : Int) : Word :=
  match op with
  | 0x01 => word (a + b)
  | 0x02 => word (a - b)
  | 0x03 => word (a * b)
  | 0x04 => word (a * b + c)
  | 0x05 => word (min a b)
  | 0x06 => word (max a b)
  | 0x07 => word a.natAbs
  | 0x08 => word (-a)
  | 0x09 => word (if b < a then 1 else 0)
  | 0x0A => word (if b ≤ a then 1 else 0)
  | 0x0B => word (if a = b then 1 else 0)
  | 0x0C => word (if i0 ≤ a ∧ a < i1 then 1 else 0)
  | 0x0D => word (if a = 0 then c else b)
  | 0x0E => word (min (max a i0) i1)
  | 0x20 => word a &&& word b
  | 0x21 => word a ||| word b
  | 0x22 => word a ^^^ word b
  | 0x23 => word (a / ((2 ^ (param % 32) : Nat) : Int))
  | 0x24 =>
    let e := scaleEntry (word b).toNat
    word (roundShift (a * (e.1 : Nat)) e.2 param + i0)
  | _ => word a

/-- An element or row stage. -/
def evalStage (ct : Nat) (t : TStage) (a b c : Val) : Val :=
  if ct = 3 then .i (evalI t.op t.param (signed 32 t.imm0) (signed 32 t.imm1) a.int b.int c.int)
  else
    let f := ctFmt ct
    .f (evalF f t.op t.param (f.round (fp32.value t.imm0)) (f.round (fp32.value t.imm1)) a.fp b.fp c.fp)

/-! ### Loads and stores -/

/-- The exact value of a stored element of a format: an integer or a float. -/
def storedValue (fmt raw : Nat) : Sum Int Fp :=
  match fmt with
  | 0 => .inl (signed 8 raw)
  | 1 => .inl raw
  | 2 => .inl (signed 16 raw)
  | 3 => .inl raw
  | 4 => .inl (signed 32 raw)
  | 5 => .inr (bf16.value raw)
  | 6 => .inr (fp16.value raw)
  | 7 => .inr (fp32.value raw)
  | 8 => .inr (e4m3.value raw)
  | _ => .inr (e5m2.value raw)

/-- A load's conversion to the compute type (R166). -/
def loadVal (ct : Nat) (t : Tensor) (raw : Nat) : Val :=
  match storedValue t.fmt raw with
  | .inl q =>
    if ct = 3 then .i (word q)
    else if t.scaled then .f ((ctFmt ct).round ((Fp.ofInt (q - signed 16 t.zero)).mul (fp32.value t.scale)))
    else .f ((ctFmt ct).round (.ofInt q))
  | .inr x => .f ((ctFmt ct).round x)

/-- A value in a float storage format, with SAT for the FP8 formats (R167). -/
def storeFloat (f : FpFmt) (sat : Bool) (x : Fp) : Nat :=
  let b := f.bits x
  let top := 2 ^ (f.eb + f.mb)
  if sat && !x.isNan && f.maxFin < b % top then b / top * top + f.maxFin else b

/-- A value rounded to an integer for an integer store; none for an infinity, with its sign (R167). -/
def storeInt (t : Tensor) (x : Fp) : Sum Bool Int :=
  let add := fun (i : Int) => if t.scaled then i + signed 16 t.zero else i
  match x with
  | .nan => .inr (add 0)
  | .inf n => .inl n
  | .fin n m e =>
    let r := ratioOf m e
    let s := match fp32.value t.scale with
      | .fin _ k g => ratioOf k g
      | _ => (1, 1)
    let mode := if t.rnd = 0 then 4 else 0
    .inr (add (if t.scaled then roundInt mode n (r.1 * s.2) (r.2 * s.1) else roundInt mode n r.1 r.2))

/-- Saturate a rounded value or an infinity to a range. -/
def satRange (lo hi : Int) : Sum Bool Int → Int
  | .inl n => if n then lo else hi
  | .inr i => clampInt lo hi i

/-- The range of an integer storage format, or of a WEFT element. -/
def intRange (t : Tensor) : Int × Int :=
  match t.fmt with
  | 0 => (-128, 127)
  | 1 => (0, 255)
  | 2 => (-32768, 32767)
  | 3 => (0, 65535)
  | 4 => (-(2 ^ 31), 2 ^ 31 - 1)
  | _ => if t.weftSigned then (-((2 ^ (t.weftBits - 1) : Nat) : Int), ((2 ^ (t.weftBits - 1) : Nat) : Int) - 1) else (0, ((2 ^ t.weftBits : Nat) : Int) - 1)

/-- A value as the integer that an integer format or WEFT stores (R167). -/
def storeIntVal (t : Tensor) (v : Val) : Int :=
  let r := intRange t
  match v with
  | .f x => satRange r.1 r.2 (storeInt t x)
  | .i w => clampInt r.1 r.2 w.toInt

/-- The stored pattern of a value in a tensor's format (R167). -/
def storeVal (t : Tensor) (v : Val) : Nat :=
  match t.fmt with
  | 5 => storeFloat bf16 false v.fp
  | 6 => storeFloat fp16 false v.fp
  | 7 => storeFloat fp32 false v.fp
  | 8 => storeFloat e4m3 t.sat v.fp
  | 9 => storeFloat e5m2 t.sat v.fp
  | _ => unsigned (8 * (fmtBytes t.fmt).getD 1) (storeIntVal t v)

/-- A WEFT row, plane-sliced, elements past the last zero (R68, R167). -/
def weftRow (bits : Nat) (vs : List Int) : List Byte :=
  (List.range bits).flatMap fun p => (List.range 64).map fun k =>
    BitVec.ofNat 8 ((List.range 8).foldl (fun a i => a + b2n ((unsigned bits (vs.getD (8 * k + i) 0)).testBit p) * 2 ^ i) 0)

/-! ### Reductions (R168 to R170) -/

/-- The partials of the lanes: each lane folds its own elements in order. -/
def lanePartials {α β : Type} (l : Nat) (f : β → α → β) (init : β) (xs : List α) : List β :=
  (List.range l).map fun k => (xs.zipIdx.filter fun x => x.2 % l = k).foldl (fun b x => f b x.1) init

/-- Combine neighbours, left operand first. -/
def pairUp {β : Type} (f : β → β → β) : List β → List β
  | a :: b :: t => f a b :: pairUp f t
  | l => l

/-- The tree of R168: n levels of neighbours combined. -/
def tree {β : Type} (f : β → β → β) : Nat → List β → List β
  | 0, l => l
  | n + 1, l => tree f n (pairUp f l)

/-- A reduction in the fixed order of R168: lanes, then the tree; the result is in lane 0. -/
def reduceLanes {α β : Type} (l : Nat) (fold : β → α → β) (comb : β → β → β) (init : β) (xs : List α) : β :=
  (tree comb (Nat.log2 l) (lanePartials l fold init xs)).headD init

/-- Join two partials that may be empty. -/
def joinOpt {α : Type} (f : α → α → α) : Option α → Option α → Option α
  | none, y => y
  | x, none => x
  | some x, some y => some (f x y)

/-- The running pair of RSOFTMAX takes an element (R169). -/
def softFold (p : Option (Fp × Fp)) (x : Fp) : Option (Fp × Fp) :=
  let r := fp32.round
  let (m, s) := p.getD (.inf true, .ofInt 0)
  if x.gt m then some (x, r ((r (s.mul (fp32.exp (r (m.add x.neg))))).add (.ofInt 1)))
  else some (m, r (s.add (fp32.exp (r (x.add m.neg)))))

/-- Two pairs of RSOFTMAX combine (R169). -/
def softComb (a b : Fp × Fp) : Fp × Fp :=
  let r := fp32.round
  let m := a.1.max2 b.1
  let ta := if a.1.eqv m then Fp.ofInt 1 else fp32.exp (r (a.1.add m.neg))
  let tb := if b.1.eqv m then Fp.ofInt 1 else fp32.exp (r (b.1.add m.neg))
  (m, r ((r (a.2.mul ta)).add (r (b.2.mul tb))))

/-- Row maximum and scaled sum (R169). -/
def softmaxRow (l : Nat) (xs : List Fp) : Fp × Fp :=
  if xs.any Fp.isNan then (.nan, .nan)
  else (reduceLanes l softFold (joinOpt softComb) none xs).getD (.inf true, .ofInt 0)

/-- The value at a lowest index that no other beats: better x y says that x beats y. -/
def argBest {α : Type} (better : α → α → Bool) (d : α) (xs : List α) : Nat :=
  ((xs.zipIdx).foldl (fun (b : α × Nat) v => if better v.1 b.1 then v else b) (xs.headD d, 0)).2

/-- ARGMAX and ARGMIN of floats: a NaN is beaten by every number (R170). -/
def beats (mx : Bool) (x y : Fp) : Bool := (!x.isNan && y.isNan) || (if mx then x.gt y else y.gt x)

/-- A reduction over float values: FP32 partials (R162, R168). -/
def reduceF (l op : Nat) (xs : List Fp) : Fp :=
  let r := fp32.round
  match op with
  | 0x30 => reduceLanes l (fun s x => r (s.add x)) (fun a b => r (a.add b)) (.ofInt 0) xs
  | 0x31 => (reduceLanes l (fun m x => joinOpt Fp.max2 m (some x)) (joinOpt Fp.max2) none xs).getD .nan
  | 0x32 => (reduceLanes l (fun m x => joinOpt Fp.min2 m (some x)) (joinOpt Fp.min2) none xs).getD .nan
  | 0x33 => reduceLanes l (fun s x => r ((x.mul x).add s)) (fun a b => r (a.add b)) (.ofInt 0) xs
  | 0x34 => .ofInt (argBest (beats true) .nan xs)
  | _ => .ofInt (argBest (beats false) .nan xs)

/-- A reduction over int32 values: sums wrap, and no order matters (R164, R168). -/
def reduceI (op : Nat) (xs : List Int) : Word :=
  match op with
  | 0x30 => word (sumInt xs)
  | 0x31 => word (xs.foldl max (xs.headD 0))
  | 0x32 => word (xs.foldl min (xs.headD 0))
  | 0x33 => word (sumInt (xs.map fun x => x * x))
  | 0x34 => word (argBest (fun x y => decide (y < x)) 0 xs)
  | _ => word (argBest (fun x y => decide (x < y)) 0 xs)

/-- The k best of a list in order, with their indices (TOPK, R170): beaten values stay behind, equal ones by lower index. -/
def topK {α : Type} (better : α → α → Bool) (k : Nat) (xs : List α) : List (α × Nat) :=
  let rec ins (x : α × Nat) : List (α × Nat) → List (α × Nat)
    | [] => [x]
    | y :: t => if better x.1 y.1 then x :: y :: t else y :: ins x t
  (xs.zipIdx.foldl (fun acc x => (ins x acc).take k) []).take k

/-! ### NMS (R171) -/

/-- A box. -/
structure Box where
  x1 : Fp
  y1 : Fp
  x2 : Fp
  y2 : Fp
  deriving DecidableEq, Repr

/-- A box from its 16 bytes (R165). -/
def boxOf (b : List Byte) : Box := ⟨fp32.value (le b 0 4), fp32.value (le b 4 4), fp32.value (le b 8 4), fp32.value (le b 12 4)⟩

/-- Every operation of suppress rounds to FP32 (R171). -/
def suppress (thr : Fp) (p q : Box) : Bool :=
  let r := fp32.round
  let z := Fp.ofInt 0
  let sub := fun (a b : Fp) => r (a.add b.neg)
  let area := fun (b : Box) => r ((((sub b.x2 b.x1).max2 z)).mul ((sub b.y2 b.y1).max2 z))
  let iw := (sub (p.x2.min2 q.x2) (p.x1.max2 q.x1)).max2 z
  let ih := (sub (p.y2.min2 q.y2) (p.y1.max2 q.y1)).max2 z
  let inter := r (iw.mul ih)
  let uni := sub (r ((area p).add (area q))) inter
  inter.gt (r (thr.mul uni))

/-- The indices kept, in order (R171). -/
def nmsKeep (scoreThr iouThr : Fp) (maxOut : Nat) (scores : List Fp) (boxes : List Box) : List Nat :=
  let cand := ((topK (fun (a b : Fp) => a.gt b) scores.length scores).filter fun x => x.1.ge scoreThr).map (·.2)
  let box := fun e => boxes.getD e ⟨.nan, .nan, .nan, .nan⟩
  cand.foldl (fun kept e => if maxOut ≤ kept.length || kept.any (fun k => suppress iouThr (box k) (box e)) then kept else kept ++ [e]) []

/-! ### Rows -/

/-- What a slot holds in a row: nothing, a value per element, or one value. -/
inductive SlotVal where
  | none
  | elems (l : List Val)
  | row (v : Val)
  deriving DecidableEq, Repr

/-- One row of a chain under evaluation: the tag and unit that access memory, the command, its tensors, its stages, what its slots hold at the end, its position. -/
structure RowCx where
  tag : Tag
  g : Nat
  unit : Nat
  d : TidyD
  ts : List Tensor
  ps : List Placed
  fin : List SlotUse
  x : Nat × Nat × Nat

/-- What a row has come to: row values by stage; and of the sweep that runs, values by stage (and by 16 + output for WEFT), raw bytes by input. -/
structure RowAcc where
  rows : List (Nat × List Val) := []
  vals : List (Nat × List Val) := []
  raws : List (Nat × List Byte) := []

/-- Append to the entry of a key. -/
def tabAppend {α : Type} [DecidableEq α] (k : Nat) (l : List α) (t : List (Nat × List α)) : List (Nat × List α) := tabSet [] k (tabGet [] k t ++ l) t

/-- The shaped inputs that a chain reads. -/
def RowCx.ins (c : RowCx) : List Tensor := c.ts.take c.d.nIn

/-- The one element of each input broadcast along dimension 0, read once in a sweep (R154). -/
def readBcast (c : RowCx) : List Tensor → Run (List (List Byte))
  | [] => pure []
  | t :: ts => do
    let v ← if !t.table && bitOf t.bcast 0 then readMem c.tag (t.addr c.g (t.rowOff c.x)) ((fmtBytes t.fmt).getD 1) else pure []
    let r ← readBcast c ts
    pure (v :: r)

/-- n elements of a tensor's row from element lo, raw. -/
def readElems (c : RowCx) (t : Tensor) (lo n : Nat) : Run (List (List Byte)) := do
  let e := (fmtBytes t.fmt).getD 1
  let a := t.addr c.g (t.rowOff c.x)
  if t.s0 = e then
    let b ← readMem c.tag (a + lo * e) (n * e)
    pure ((List.range n).map fun i => slice b (i * e) e)
  else
    let rec go : Nat → Run (List (List Byte))
      | 0 => pure []
      | k + 1 => do
        let r ← go k
        let b ← readMem c.tag (a + (lo + k) * t.s0) e
        pure (r ++ [b])
    go n

/-- The inputs of a vector, raw; a table gives nothing (R159, R166). -/
def readVec (c : RowCx) (lo n : Nat) : List Tensor → List (List Byte) → Run (List (List (List Byte)))
  | t :: ts, b :: bs => do
    let v ← if t.table then pure [] else if bitOf t.bcast 0 then pure (List.replicate n b) else readElems c t lo n
    let r ← readVec c lo n ts bs
    pure (v :: r)
  | _, _ => pure []

/-- The inputs of a vector converted to the compute type (R166). -/
def RowCx.loaded (c : RowCx) (raw : List (List (List Byte))) : List (List Val) :=
  (c.ins.zip raw).map fun p => p.2.map fun b => loadVal c.d.ct p.1 (leNat b)

/-- An immediate in the compute type (R158). -/
def immVal (ct imm : Nat) : Val := if ct = 3 then .i (BitVec.ofNat 32 imm) else .f ((ctFmt ct).round (fp32.value imm))

/-- An index as a value of the compute type (R158). -/
def idxVal (ct n : Nat) : Val := if ct = 3 then .i (BitVec.ofNat 32 n) else .f ((ctFmt ct).round (.ofInt n))

/-- The value in a slot for element i of what it holds. -/
def slotVal (slots : List SlotVal) (n i : Nat) : Val :=
  match slots.getD n .none with
  | .elems l => l.getD i (.i 0)
  | .row v => v
  | .none => .i 0

/-- The value of a selector at element i of a vector that begins at element lo of the row (R158). -/
def selVal (c : RowCx) (lo : Nat) (ins : List (List Val)) (slots : List SlotVal) (t : TStage) (sel i : Nat) : Val :=
  if sel ≤ 3 then (ins.getD sel []).getD i (.i 0)
  else if sel ≤ 11 then slotVal slots (sel - 4) i
  else if sel = 12 then immVal c.d.ct t.imm0
  else if sel = 13 then immVal c.d.ct t.imm1
  else if sel = 14 then idxVal c.d.ct (lo + i)
  else idxVal c.d.ct c.x.1

/-- The index that a value names in a table of n elements (R172). -/
def tableIndex (n : Nat) (v : Val) : Option Nat :=
  match v with
  | .i w => if 0 ≤ w.toInt ∧ w.toInt < n then some w.toNat else none
  | .f (.fin s m e) =>
    let r := ratioOf m e
    if r.1 % r.2 = 0 ∧ (!s || m == 0) ∧ r.1 / r.2 < n then some (r.1 / r.2) else none
  | .f _ => none

/-- GATHER, SCATTER and SCATTER_ADD for one element; the value GATHER answers (R172, R173). -/
def tableStage (c : RowCx) (t : TStage) (a b : Val) : Run Val := do
  let tab := c.ts[if t.op = 0x40 then t.param else c.d.nIn + t.param]?
  match tab with
  | none => pure a
  | some x =>
    let e := (fmtBytes x.fmt).getD 1
    match tableIndex x.s1 a with
    | none => do
      change fun s => s.inc (if t.op = 0x40 then Reg.TD_GATHER_FILLED c.g c.unit else Reg.TD_SCATTER_DROPPED c.g c.unit) 1
      pure (immVal c.d.ct t.imm0)
    | some n => do
      let at_ := x.addr c.g (x.off + n * e)
      if t.op = 0x40 then do
        let b ← readMem c.tag at_ e
        pure (loadVal c.d.ct x (leNat b))
      else if t.op = 0x41 then do
        writeMem c.tag at_ (leBytes e (storeVal x b))
        pure a
      else do
        let _ ← atomicAdd c.tag at_ e (storeIntVal { x with fmt := 4 } b)
        pure a

/-- Table accesses for each element in order. -/
def tableElems (c : RowCx) (t : TStage) : List (Val × Val) → Run (List Val)
  | [] => pure []
  | (a, b) :: rest => do
    let v ← tableStage c t a b
    let r ← tableElems c t rest
    pure (v :: r)

/-- The stage leaves nothing in a slot. -/
def TStage.silent (t : TStage) : Bool := t.op == 0x41 || t.op == 0x42 || t.op == 0x48 || t.op == 0x49

/-- Put a stage's row values into its slots: one, or two for RSOFTMAX. -/
def putRow (t : TStage) (v : List Val) (slots : List SlotVal) : List SlotVal :=
  if t.silent then slots
  else
    let s := slots.set t.dst (.row (v.getD 0 (.i 0)))
    if t.op = 0x36 then s.set (t.dst + 1) (.row (v.getD 1 (.i 0))) else s

/-- Evaluate an element stage over n elements from lo: the slots after it (R161). -/
def elementStage (c : RowCx) (lo n : Nat) (ins : List (List Val)) (t : TStage) (slots : List SlotVal) : Run (List SlotVal) := do
  let vs := (List.range n).map fun i => (selVal c lo ins slots t t.a i, selVal c lo ins slots t t.b i, selVal c lo ins slots t t.c i)
  let out ← if 0x40 ≤ t.op then tableElems c t (vs.map fun v => (v.1, v.2.1)) else pure (vs.map fun v => evalStage c.d.ct t v.1 v.2.1 v.2.2)
  pure (if t.silent then slots else slots.set t.dst (.elems out))

/-- Evaluate a row stage: its value (R159). -/
def rowStage (c : RowCx) (t : TStage) (slots : List SlotVal) : Run Val := do
  let v := fun sel => selVal c 0 [] slots t sel 0
  if 0x40 ≤ t.op then tableStage c t (v t.a) (v t.b) else pure (evalStage c.d.ct t (v t.a) (v t.b) (v t.c))

/-- The result of a reduction over the row: of the values of its source, or of the raw bytes of an input (R168, R169, R175). -/
def reduceRow (c : RowCx) (t : TStage) (xs : List Val) (raw : List Byte) : List Val :=
  let l := lanesOf c.d.ct
  if t.op = 0x37 then [.i (crc32c raw)]
  else if t.op = 0x36 then
    let r := softmaxRow l (xs.map Val.fp)
    [.f r.1, .f r.2]
  else if c.d.ct = 3 then [.i (reduceI t.op (xs.map Val.int))]
  else [.f (reduceF l t.op (xs.map Val.fp))]

/-- A sweep over one vector (R159): every element stage up to the sweep's last, in order; earlier sweeps' row values stand in their slots. It
gives the slots, and the source values of the sweep's reductions and terminal stage. SCATTER_ADD adds in every sweep that evaluates it. [DEDUCED, log entry 113] -/
def sweepVec (c : RowCx) (sw lo n : Nat) (ins : List (List Val)) (rows : List (Nat × List Val)) : Nat → List Placed → List SlotVal → Run (List SlotVal × List (Nat × List Val))
  | _, [], slots => pure (slots, [])
  | i, p :: ps, slots => do
    let t := p.st
    match p.kind with
    | .element =>
      let s ← if p.sweep ≤ sw then elementStage c lo n ins t slots else pure slots
      sweepVec c sw lo n ins rows (i + 1) ps s
    | .row => sweepVec c sw lo n ins rows (i + 1) ps (if p.sweep < sw then putRow t (tabGet [] i rows) slots else slots)
    | _ =>
      let r ← sweepVec c sw lo n ins rows (i + 1) ps (if p.sweep < sw then putRow t (tabGet [] i rows) slots else slots)
      pure (r.1, if p.sweep = sw then (i, (List.range n).map fun k => selVal c lo ins slots t t.a k) :: r.2 else r.2)

/-- The end of a sweep (R159): its reductions are final, and the row stages whose last source they were are evaluated, in order. Sweep 0 stands
for what comes before the first. It gives the slots and the row values so far. -/
def sweepEnd (c : RowCx) (sw : Nat) (a : RowAcc) : Nat → List Placed → List SlotVal → Run (List SlotVal × List (Nat × List Val))
  | _, [], slots => pure (slots, [])
  | i, p :: ps, slots => do
    let t := p.st
    let v ← match p.kind with
      | .reduction => pure (if sw < p.sweep then [] else if p.sweep = sw then reduceRow c t (tabGet [] i a.vals) (tabGet [] t.param a.raws) else tabGet [] i a.rows)
      | .row => if p.sweep = sw then (do let v ← rowStage c t slots; pure [v]) else pure (if p.sweep < sw then tabGet [] i a.rows else [])
      | _ => pure []
    let r ← sweepEnd c sw a (i + 1) ps (if v.isEmpty then (if t.silent then slots else slots.set t.dst .none) else putRow t v slots)
    pure (r.1, if v.isEmpty then r.2 else (i, v) :: r.2)

/-- Write one element of an output at element i of the row. -/
def writeElem (c : RowCx) (t : Tensor) (i : Nat) (raw : Nat) : Run Unit :=
  writeMem c.tag (t.addr c.g (t.elemOff c.x i)) (leBytes ((fmtBytes t.fmt).getD 1) raw)

/-- The chain ends in TOPK or NMS, which write its outputs themselves. -/
def RowCx.terminal (c : RowCx) : Bool := c.ps.any fun p => p.kind == .terminal

/-- The outputs that a chain writes from slots, numbered. -/
def RowCx.outs (c : RowCx) : List (Tensor × Nat) := if c.terminal then [] else ((c.ts.drop c.d.nIn).zipIdx.filter fun p => !p.1.table)

/-- The element outputs of a vector, element by element (R160). -/
def writeVec (c : RowCx) (slots : List SlotVal) (lo n : Nat) : Run Unit :=
  eachDo (fun i => eachDo (fun (p : Tensor × Nat) =>
    if bitOf p.1.bcast 0 || p.1.fmt == 10 then pure () else writeElem c p.1 (lo + i) (storeVal p.1 (slotVal slots (p.1.src - 4) i))) c.outs) (List.range n)

/-- The row-scalar outputs whose slot is final after a sweep (R160). -/
def writeScalars (c : RowCx) (sw : Nat) (slots : List SlotVal) : Run Unit :=
  eachDo (fun (p : Tensor × Nat) =>
    if bitOf p.1.bcast 0 && slotAt c.fin p.1.src == .row sw then writeElem c p.1 0 (storeVal p.1 (slotVal slots (p.1.src - 4) 0)) else pure ()) c.outs

/-- The WEFT outputs, a whole row at the row's end (R68, R167). [DESIGN CHOICE, log entry 107] -/
def writeWefts (c : RowCx) (a : RowAcc) : Run Unit :=
  eachDo (fun (p : Tensor × Nat) =>
    if p.1.fmt = 10 then writeMem c.tag (p.1.addr c.g (p.1.rowOff c.x)) (weftRow p.1.weftBits ((tabGet [] (16 + p.2) a.vals).map (storeIntVal p.1))) else pure ()) c.outs

/-- Write the k best of TOPK: a WEFT row, or element by element. -/
def writeBest (c : RowCx) (t : Tensor) (best : List (Val × Nat)) : Run Unit :=
  if t.fmt = 10 then writeMem c.tag (t.addr c.g (t.rowOff c.x)) (weftRow t.weftBits (best.map fun v => storeIntVal t v.1))
  else eachDo (fun (p : (Val × Nat) × Nat) => writeElem c t p.2 (storeVal t p.1.1)) best.zipIdx

/-- The terminal stage of a row: TOPK or NMS (R170, R171). -/
def terminalStage (c : RowCx) (a : RowAcc) (i : Nat) (t : TStage) : Run Unit := do
  match c.ts[c.d.nIn]?, c.ts[c.d.nIn + 1]? with
  | some o0, some o1 =>
    let xs := tabGet [] i a.vals
    if t.op = 0x48 then do
      let better := fun (a b : Val) => if c.d.ct = 3 then decide (b.int < a.int) else beats true a.fp b.fp
      let best := topK better t.param xs
      writeBest c o0 best
      eachDo (fun (p : (Val × Nat) × Nat) => writeElem c o1 p.2 p.1.2) best.zipIdx
    else do
      let boxes := (List.range c.d.d0).map fun k => boxOf (slice (tabGet [] 1 a.raws) (16 * k) 16)
      let kept := nmsKeep (fp32.value t.imm0) (fp32.value t.imm1) t.param (xs.map Val.fp) boxes
      eachDo (fun i => writeElem c o0 i (match kept[i]? with | some k => k | none => 2 ^ (8 * (fmtBytes o0.fmt).getD 1) - 1)) (List.range t.param)
      writeElem c o1 0 kept.length
  | _, _ => pure ()

/-! ### The checker (R176 to R179) -/

/-- An outcome of a tidy unit's checker: counted and reported, and what it means for the unit (R177, R178, R179). -/
def State.tidyOutcome (s : State) (g m stall loc : Nat) (fail inj : Bool) : State :=
  let u : UnitId := ⟨Fin.ofNat 32 g, Fin.ofNat 8 (2 + m)⟩
  let addr := loc + b2n inj * 2 ^ 39
  let s := s.report (unitSource u) (if fail then Kind.LEDGER_FAIL else Kind.LEDGER_TRANSIENT) stall addr
  if inj then s.inc (Reg.TD_CHECK_INJECTS g m) 1
  else if fail then (s.inc (Reg.TD_CHECK_FAILS g m) 1).makeSuspect u addr
  else (s.inc (Reg.TD_CHECK_RETRIED g m) 1).countWindow u 4 addr

/-- The location of a disagreement (R177): stage, sweep minus 1, lowest lane. -/
def laneLoc (stage sweep lane : Nat) : Nat := stage % 16 * 2 ^ 16 + (sweep - 1) % 4 * 2 ^ 12 + lane % 512

/-- A re-evaluation is consumed on its unit (R187) and charged to stall 0 (R317); how many bit-steps it takes is not stated: a free value. [DESIGN CHOICE, log entry 42] -/
def State.chargeAgain (s : State) (g m : Nat) : State :=
  let n := (Config.free 16 s.freeN).toNat
  (({ s with freeN := s.freeN + 1 } : State).charge 0 n).inc64 (Reg.TD_STEPS g m) n

/-- A command meets a checker disagreement in a vector: it goes on with RETRIED, or ends with LEDGER_FAIL (R177). -/
def tidyCheck (g m : Nat) (j : Job) (idx loc : Nat) (fail inj : Bool) : Run Unit := do
  change fun s => (s.tidyOutcome g m j.stall loc fail inj).chargeAgain g m
  if fail then throw St.LEDGER_FAIL else change fun s => s.addOwn j.id idx (2 ^ 4)

/-- A disagreement in a vector as the checker sees it; the vector after the last stands for the row's end. -/
structure Disagree where
  sweep : Nat
  vec : Nat
  stage : Nat
  lane : Nat
  fail : Bool
  inj : Bool
  deriving DecidableEq, Repr

/-- The stage of a chain is evaluated in a sweep (R159). -/
def evaluated (ps : List Placed) (stage sweep : Nat) : Bool :=
  match ps[stage]? with
  | some p => if p.kind = .row then p.sweep == sweep || (p.sweep == 0 && sweep == 1) else inSweep sweep p
  | none => false

/-- Where in a sweep of a row of n vectors a disagreement in a vector of a stage is met: that of a row stage at the row's end, or before the first vector (R176). -/
def meetAt (ps : List Placed) (stage n vec : Nat) : Nat :=
  match ps[stage]? with
  | some p => if p.kind = .row then (if p.sweep = 0 then 0 else n) else vec
  | none => vec

/-- The injection armed on a tidy unit, where the stage is evaluated (R179): in the first sweep and vector that evaluate it. -/
def State.tidyInject (s : State) (g m : Nat) (d : TidyD) (ps : List Placed) : Option Disagree :=
  let r := Reg.TD_INJECT g m
  let st := s.fld r 19 16
  if s.bit r 31 && s.fld r 8 0 < lanesOf d.ct then
    ((List.range (sweepsOf ps)).find? fun n => evaluated ps st (n + 1)).map fun n =>
      ⟨n + 1, meetAt ps st (ceilDiv d.d0 (lanesOf d.ct)) 0, st, s.fld r 8 0, s.bit r 30, true⟩
  else none

/-- Order of two disagreements: sweep, vector, stage, lane. -/
def Disagree.before (a b : Disagree) : Bool :=
  a.sweep < b.sweep || (a.sweep == b.sweep && (a.vec < b.vec || (a.vec == b.vec && (a.stage < b.stage || (a.stage == b.stage && a.lane ≤ b.lane)))))

/-- Insert a disagreement in order. -/
def insDis (x : Disagree) : List Disagree → List Disagree
  | [] => [x]
  | y :: t => if x.before y then x :: y :: t else y :: insDis x t

/-- One outcome per vector: the first stage and lane that disagreed; it fails where any of the vector's disagreements comes again. -/
def perVector : List Disagree → List Disagree
  | [] => []
  | x :: t =>
    match perVector t with
    | [] => [x]
    | y :: r => if x.sweep = y.sweep ∧ x.vec = y.vec then { x with fail := x.fail || y.fail, inj := x.inj && y.inj } :: r else x :: y :: r

/-! ### TIDY_CHAIN -/

/-- The disagreement of a vector of a sweep. -/
def disOf (dis : List Disagree) (sw v : Nat) : Option Disagree := dis.find? fun x => x.sweep == sw && x.vec == v

/-- Meet the disagreement of a vector of a sweep, if there is one (R177). -/
def meetDis (c : RowCx) (j : Job) (idx : Nat) : Option Disagree → Run Unit
  | none => pure ()
  | some x => tidyCheck c.g c.unit j idx (laneLoc x.stage x.sweep x.lane) x.fail x.inj

/-- Vector v of a sweep: its inputs are read, and read again where the copies disagreed; what agrees has its effects, and in the last sweep its element outputs are written (R159, R160, R176). -/
def tidyVec (c : RowCx) (j : Job) (idx : Nat) (dis : List Disagree) (bc : List (List Byte)) (sw v : Nat) (a : RowAcc) : Run RowAcc := do
  let lo := v * lanesOf c.d.ct
  let n := min (lanesOf c.d.ct) (c.d.d0 - lo)
  let raw ← readVec c lo n c.ins bc
  let raw ← if (disOf dis sw v).isSome then readVec c lo n c.ins bc else pure raw
  meetDis c j idx (disOf dis sw v)
  let r ← sweepVec c sw lo n (c.loaded raw) a.rows 0 c.ps (List.replicate 8 .none)
  let last := sw = sweepsOf c.ps
  if last then writeVec c r.1 lo n
  let vals := r.2.foldl (fun t x => tabAppend x.1 x.2 t) a.vals
  let vals := if last then c.outs.foldl (fun t p => if p.1.fmt = 10 then tabAppend (16 + p.2) ((List.range n).map (slotVal r.1 (p.1.src - 4))) t else t) vals else vals
  let keep := fun k => c.ps.any fun p => p.sweep == sw && ((p.st.op == 0x37 && p.st.param == k) || (p.st.op == 0x49 && k == 1))
  pure { a with vals := vals, raws := raw.zipIdx.foldl (fun t x => if keep x.2 then tabAppend x.2 x.1.flatten t else t) a.raws }

/-- Vectors of a sweep in ascending order. -/
def tidyVecs (c : RowCx) (j : Job) (idx : Nat) (dis : List Disagree) (bc : List (List Byte)) (sw : Nat) : List Nat → RowAcc → Run RowAcc
  | [], a => pure a
  | v :: l, a => do
    let a ← tidyVec c j idx dis bc sw v a
    tidyVecs c j idx dis bc sw l a

/-- The end of a sweep of a row: its row values, the row-scalar outputs that they make final, and after the last sweep the outputs of whole rows. -/
def tidySweepEnd (c : RowCx) (sw : Nat) (a : RowAcc) : Run RowAcc := do
  let r ← sweepEnd c sw a 0 c.ps (List.replicate 8 .none)
  writeScalars c sw r.1
  if sw = sweepsOf c.ps then
    writeWefts c a
    eachDo (fun (p : Placed × Nat) => if p.1.kind = .terminal then terminalStage c a p.2 p.1.st else pure ()) c.ps.zipIdx
  pure { rows := r.2 }

/-- The sweeps of a row in turn (R159): each reads the row's inputs again. [DEDUCED, log entry 113] -/
def tidySweeps (c : RowCx) (j : Job) (idx : Nat) (dis : List Disagree) : List Nat → RowAcc → Run Unit
  | [], _ => pure ()
  | sw :: l, a => do
    let n := ceilDiv c.d.d0 (lanesOf c.d.ct)
    let bc ← readBcast c c.ins
    let a ← tidyVecs c j idx dis bc sw (List.range n) a
    meetDis c j idx (disOf dis sw n)
    let a ← tidySweepEnd c sw a
    tidySweeps c j idx dis l a

/-- The disagreements that a row meets, one for each vector, in order: those that the step brings, and the armed injection. -/
def rowFaults (d : TidyD) (ps : List Placed) (r : Nat) (faults : List LaneFault) (inj : Option Disagree) : List Disagree :=
  let n := ceilDiv d.d0 (lanesOf d.ct)
  let own := (faults.filter fun f => f.row == r && 1 ≤ f.sweep && f.sweep ≤ sweepsOf ps && f.vec < n && f.lane < lanesOf d.ct && evaluated ps f.stage f.sweep).map
    fun f => (⟨f.sweep, meetAt ps f.stage n f.vec, f.stage, f.lane, f.again, false⟩ : Disagree)
  perVector ((own ++ inj.toList).foldl (fun l x => insDis x l) [])

/-- Run row r of a chain on unit m; its bit-steps count as it begins (R187). [DESIGN CHOICE, log entry 107] -/
def tidyRow (j : Job) (idx m : Nat) (d : TidyD) (ts : List Tensor) (lay : List Placed × List SlotUse) (faults : List LaneFault) (r : Nat) : Run Unit := do
  let s ← get
  let g := j.core
  let c : RowCx := ⟨j.tag s (2 + m), g, m, d, ts, lay.1, lay.2, d.rowIdx r⟩
  let inj := s.tidyInject g m d lay.1
  change fun s => (if inj.isSome then s.setBit (Reg.TD_INJECT g m) 31 false else s).inc64 (Reg.TD_STEPS g m) (tidyRowBudget d lay.1 ts)
  let a ← tidySweepEnd c 0 {}
  tidySweeps c j idx (rowFaults d lay.1 r faults inj) ((List.range (sweepsOf lay.1)).map (· + 1)) a

/-- The INIT fills of a chain, before row 0 (R173). -/
def initTables (t : Tag) (g : Nat) (outs : List Tensor) : Run Unit :=
  eachDo (fun x => if x.table && x.init then writeMem t (x.addr g x.off) (List.replicate (x.s1 * (fmtBytes x.fmt).getD 0) 0) else pure ()) outs

/-- The tidy units that a command on both or on one of them runs on. -/
def unitsOf (both second : Bool) : List Nat := if both then [0, 1] else [b2n second]

/-- A chain or a CONV_TILE has completed on its units (R187). -/
def State.countChain (s : State) (g : Nat) (units : List Nat) : State := units.foldl (fun s m => s.inc (Reg.TD_CHAINS g m) 1) s

/-- Bit-steps consumed on some units (R187). -/
def State.countSteps (s : State) (g : Nat) (units : List Nat) (n : Nat) : State := units.foldl (fun s m => s.inc64 (Reg.TD_STEPS g m) n) s

/-- Turns of n pieces of work: one by one, or two side by side on the two units, which take half of them each (R157, R215). -/
def turnsOf (n : Nat) (both : Bool) : Nat := ceilDiv n (if both then 2 else 1)

/-- The pieces of turn k, each with its unit. -/
def turnOf (n : Nat) (both second : Bool) (k : Nat) : List (Nat × Nat) :=
  if both then (k, 0) :: (if turnsOf n true + k < n then [(turnsOf n true + k, 1)] else []) else [(k, b2n second)]

/-- n turns of a chain from turn k, in order; a pre-emption that waits stops it after a turn, where rows are boundaries (R184). -/
def tidyTurns (j : Job) (idx : Nat) (second : Bool) (d : TidyD) (ts : List Tensor) (lay : List Placed × List SlotUse) (faults : List LaneFault) : Nat → Nat → Run Bool
  | 0, _ => pure true
  | n + 1, k => do
    eachDo (fun (p : Nat × Nat) => tidyRow j idx p.2 d ts lay faults p.1) (turnOf d.rows d.both second k)
    let s ← get
    if n ≠ 0 && s.yieldDue j.core && tidyRowBudget d lay.1 ts ≤ 33792 then do
      change fun s => s.updCmd j.id idx fun c => { c with progress := k + 1 }
      pure false
    else tidyTurns j idx second d ts lay faults n (k + 1)

/-- TIDY_CHAIN (R153 to R185): tables as they stand, INIT fills, then every row in the order of R157; after a pre-emption it goes on at the next row (R184). -/
def execTidyChain (job idx : Nat) (faults : List LaneFault) (s : State) : Host.Outcome State Fault Refusal :=
  .next (runPart s job idx 0x04 .started fun j c => do
    let s ← get
    let t := tidyD c.desc
    let us := unitsOf t.both c.second
    let tag := j.tag s (2 + us.headD 0)
    let chain ← readMem tag (boltAddr j.core t.chain) (t.n * 16)
    let tens ← readMem tag (boltAddr j.core t.tensors) ((t.nIn + t.nOut) * 32)
    let ts := tensorsOf t tens
    let lay := chainOf (stagesOf t chain)
    if c.progress = 0 then
      change fun s => s.countSteps j.core us (64 + initBeats t ts)
      initTables tag j.core (ts.drop t.nIn)
    let ended ← tidyTurns j idx c.second t ts lay faults (turnsOf t.rows t.both - c.progress) c.progress
    if ended then change fun s => (s.countChain j.core us).finishCmd job idx (successStatus (s.ownOf job idx)))

end Sys2Proof.Machine
end

