-- ==== Sys2Proof/Machine/Window.lean ====
section
/-!
DEFINITION. The window feeder (R123 to R152): pixels under taps, dense runs on the Twill engine, grouped convolution and
pooling on the tidy units, fused stages; CONV_TILE, FUSED_TILES, and the drain that every Twill pass shares.
-/
namespace Sys2Proof.Machine

/-! ### Pixels -/

/-- What a run needs of one input channel: the column of the first byte of each row, and the rows by image index. -/
structure Plane where
  x0 : Nat
  rows : List (Nat × List Byte)
  deriving DecidableEq, Repr

/-- The in-image row and column that a tap of an output position reads, either none where it falls into padding (R125 to R127). -/
def Layer.tapAt (l : Layer) (q ky kx : Nat) : Option Nat × Option Nat :=
  (resolveIndex l.padMode (tapIndex (l.y0 + q / l.tileW) l.sy l.padT ky l.dy) l.inH,
   resolveIndex l.padMode (tapIndex (l.x0 + q % l.tileW) l.sx l.padL kx l.dx) l.inW)

/-- A pixel byte as a number of the layer's signedness. -/
def Layer.pixel (l : Layer) (b : Byte) : Int := if l.pSigned then b.toInt else b.toNat

/-- The value that padding has (R126). -/
def Layer.padding (l : Layer) : Int := if l.padMode = 1 then l.pixel (BitVec.ofNat 8 l.padVal) else 0

/-- The value under a tap of an output position (R126, R128). -/
def Layer.under (l : Layer) (p : Plane) (q ky kx : Nat) : Int :=
  match l.tapAt q ky kx with
  | (some y, some x) => l.pixel ((tabGet [] y p.rows).getD (x - p.x0) 0)
  | _ => l.padding

/-- Insert a number in ascending order, once. -/
def insNat (n : Nat) : List Nat → List Nat
  | [] => [n]
  | a :: t => if n < a then n :: a :: t else if n = a then a :: t else a :: insNat n t

/-- The image rows and columns that positions q0 to q0 + n − 1 read. -/
def Layer.needs (l : Layer) (q0 n : Nat) : List Nat × List Nat :=
  let taps := (List.range n).flatMap fun i => (List.range l.fh).flatMap fun ky => (List.range l.fw).map fun kx => l.tapAt (q0 + i) ky kx
  (taps.foldl (fun a t => match t with | (some y, some _) => insNat y a | _ => a) [],
   taps.foldl (fun a t => match t with | (some _, some x) => insNat x a | _ => a) [])

/-- The feeder reads the rows of a channel that a run needs from the bolt (R131, R135). -/
def readPlane (tag : Tag) (g : Nat) (l : Layer) (need : List Nat × List Nat) (ch : Nat) : Run Plane := do
  match need.2.head?, need.2.getLast? with
  | some a, some b => do
    let rec go : List Nat → Run (List (Nat × List Byte))
      | [] => pure []
      | y :: t => do
        let v ← readMem tag (boltAddr g l.inOff + ch * l.chStride + (y - l.storeY0) * l.rowStride + (a - l.storeX0)) (b + 1 - a)
        let r ← go t
        pure ((y, v) :: r)
    let rows ← go need.1
    pure ⟨a, rows⟩
  | _, _ => pure ⟨0, []⟩

/-- The channels of a run, read in ascending order. -/
def readPlanes (tag : Tag) (g : Nat) (l : Layer) (need : List Nat × List Nat) : Nat → Run (List Plane)
  | 0 => pure []
  | n + 1 => do
    let r ← readPlanes tag g l need n
    let p ← readPlane tag g l need n
    pure (r ++ [p])

/-- The feeder consumes what its line store holds: an injected or stored error there is met once per run (R141, R239, R243). -/
def consumeLine (tag : Tag) (g fp : Nat) : Run Unit := eccRead tag (lineAddr g 0) (min (2 * fp) 196608)

/-! ### Dense runs (R129, R130) -/

/-- The weft of the K steps of a run, in ascending k. -/
def readWefts (tag : Tag) (g : Nat) (l : Layer) : Nat → Run (List (List Nat))
  | 0 => pure []
  | n + 1 => do
    let r ← readWefts tag g l n
    let w ← readMem tag (boltAddr g l.weft + n * l.bits * 64) (l.bits * 64)
    pure (r ++ [(List.range l.cOut).map (weftRaw l.bits w)])

/-- The K steps of a run: channel, tap row, tap column (R130). -/
def denseSteps (l : Layer) (q0 n : Nat) (wefts : List (List Nat)) (ps : List Plane) : List KStep :=
  wefts.zipIdx.map fun w =>
    let t := w.2 % (l.fh * l.fw)
    { weft := w.1, warp := (List.range n).map fun j => l.under (ps.getD (w.2 / (l.fh * l.fw)) ⟨0, []⟩) (q0 + j) (t / l.fw) (t % l.fw) }

/-- The drain of run r of a layer (R132). -/
def Layer.drain (g : Nat) (l : Layer) (r : Nat) : Drain :=
  { fmt := l.fmt, rnd := l.rnd, mark := l.ovfMark, zp := l.outZero, argmax := l.argmax, argmaxOnly := l.argmaxOnly, rows := l.cOut,
    cols := (l.run r).2, q0 := (l.run r).1, out := boltAddr g l.out, outStride := l.outStride, argmaxAt := boltAddr g l.argmaxOff,
    rowScale := if l.rowScale = 0 then none else some (boltAddr g l.rowScale),
    colScale := if l.colScale = 0 then none else some (boltAddr g l.colScale) }

/-- Show what the feeder runs (R152). -/
def State.showFeeder (s : State) (g : Nat) (fused : Bool) (stage kind run : Nat) : State :=
  s.wr (Reg.WF_STATUS g) (BitVec.ofNat 32 (2 ^ 31 + b2n fused * 2 ^ 30 + stage % 4 * 2 ^ 24 + kind % 16 * 2 ^ 16 + run % 65536))

/-- The high-water mark of the line store (R152). -/
def State.lineMark (s : State) (g fp : Nat) : State := (s.fillLine g (2 * fp)).setFld (Reg.WF_LINE_HWM g) 17 0 (max (s.fld (Reg.WF_LINE_HWM g) 17 0) (2 * fp))

/-- Start run r of a dense layer, or its re-run. -/
def startDense (j : Job) (idx : Nat) (l : Layer) (r : Nat) (rerun : Bool) (inject : Option Nat) : Run Unit := do
  let s ← get
  let g := j.core
  let tag := j.tag s 1
  let q := l.run r
  passPart g do
    let ps ← readPlanes tag g l (l.needs q.1 q.2) l.cIn
    consumeLine tag g (l.footprint r)
    let wefts ← readWefts tag g l l.k
    let base ← if l.cin then (some <$> readCin tag (boltAddr g l.cinOff + 4 * q.1) l.cinStride l.cOut q.2) else pure none
    let ks := denseSteps l q.1 q.2 wefts ps
    stageSteps (j.tag s 0) g l.wSigned l.bits true ks
    beginPass g j.id idx (runCells l.wSigned l.bits l.cOut q.2 base ks) l.cin l.bits l.k rerun false inject

/-! ### Runs on the tidy units (R137 to R140) -/

/-- Add products one by one; the exact running sum tells whether it ever left 32 bits (R138). -/
def runningSum (l : List Int) : Int × Bool := l.foldl (fun a x => (a.1 + x, a.2 || outside32 (a.1 + x))) (0, false)

/-- The weights of a grouped convolution: a list of taps for each (output channel, channel of its group). -/
def readGroupWeights (tag : Tag) (g : Nat) (l : Layer) : Nat → Run (List (List Int))
  | 0 => pure []
  | n + 1 => do
    let r ← readGroupWeights tag g l n
    let w ← readMem tag (boltAddr g l.weft + n * 128) (l.fh * l.fw)
    pure (r ++ [w.map fun b => if l.wSigned then b.toInt else (b.toNat : Int)])

/-- The values under every tap of a position, in the order t = ky × FW + kx. -/
def Layer.window (l : Layer) (p : Plane) (q : Nat) : List Int :=
  (List.range (l.fh * l.fw)).map fun t => l.under p q (t / l.fw) (t % l.fw)

/-- The taps of a position that lie inside the image in both axes (R139). -/
def Layer.inside (l : Layer) (q : Nat) : Nat :=
  ((List.range (l.fh * l.fw)).filter fun t =>
    let y := tapIndex (l.y0 + q / l.tileW) l.sy l.padT (t / l.fw) l.dy
    let x := tapIndex (l.x0 + q % l.tileW) l.sx l.padL (t % l.fw) l.dx
    decide (0 ≤ y ∧ y < l.inH ∧ 0 ≤ x ∧ x < l.inW)).length

/-- An exact quotient rounded by RND as in R76 (R139). -/
def roundDiv (x : Int) (n rnd : Nat) : Int := roundInt (if rnd = 0 then 4 else 0) (decide (x < 0)) x.natAbs n

/-- The value of one output element of kinds 1 to 3, and its OVF (R138, R139). The running sum takes the products channel by channel of the
group and tap by tap, in ascending order, which the rule leaves open. [DESIGN CHOICE, log entry 107] -/
def Layer.element (l : Layer) (ws : List (List Int)) (ps : List Plane) (o q : Nat) : Int × Bool :=
  if l.kind = 1 then
    runningSum ((List.range l.gIn).flatMap fun c =>
      List.zipWith (· * ·) (ws.getD (o * l.gIn + c) []) (l.window (ps.getD (o / l.gOut * l.gIn + c) ⟨0, []⟩) q))
  else
    let w := l.window (ps.getD o ⟨0, []⟩) q
    if l.kind = 2 then (w.foldl max (w.headD 0), false)
    else
      let n := if l.avgIn then l.inside q else l.fh * l.fw
      (roundDiv (sumInt w) (if n = 0 then l.fh * l.fw else n) l.rnd, false)

/-- Write the outputs of a run on the tidy units: grouped convolution through the drain's arithmetic, pooling as it is (R138, R139). -/
def writeTidyRun (tag : Tag) (g : Nat) (l : Layer) (r : Nat) (vals : List (List (Int × Bool))) : Run Unit :=
  let t : Tile := { acc := vals.map (·.map fun v => word v.1), ovf := vals.map (·.map (·.2)) }
  drainWrite tag { l.drain g r with fmt := l.fmt, rnd := if l.kind = 1 then l.rnd else 0 } t

/-- Meet the feeder's and the checker's disagreements of a run on the tidy units, each re-evaluated once (R141, R177). -/
def meetRun (j : Job) (idx : Nat) (both second : Bool) : List LaneFault → Run Unit
  | [] => pure ()
  | f :: t => do
    let m := if both then b2n (f.row == 1) else b2n second
    tidyCheck j.core m j idx (laneLoc f.stage f.sweep f.lane) f.again false
    meetRun j idx both second t

/-- Run r of a layer of kinds 1 to 3, whole; its bit-steps count as its pixels have come (R187). [DESIGN CHOICE, log entry 107] -/
def tidyConvRun (j : Job) (idx : Nat) (second : Bool) (l : Layer) (r : Nat) (faults : List LaneFault) : Run Unit := do
  let s ← get
  let g := j.core
  let tag := j.tag s 1
  let q := l.run r
  let ps ← readPlanes tag g l (l.needs q.1 q.2) l.cIn
  consumeLine tag g (l.footprint r)
  let ws ← if l.kind = 1 then readGroupWeights tag g l (l.cOut * l.gIn) else pure []
  change fun s => s.countSteps g (unitsOf l.both second) l.runBudget
  meetRun j idx l.both second faults
  let vals := (List.range l.cOut).map fun o => (List.range q.2).map fun k => l.element ws ps o (q.1 + k)
  writeTidyRun tag g l r vals
  if vals.any (·.any (·.2)) then change fun s => s.addOwn j.id idx (2 ^ 6)

/-! ### Commands of the feeder -/

/-- The layers that a feeder command runs: one for CONV_TILE, the stages of FUSED_TILES; a stage with an empty region computes nothing (R146). -/
def State.layersOf (s : State) (j : Job) (c : Cmd) : List Layer :=
  if opcodeOf c.desc = 2 then [convLayer c.desc] else fusedLayers c.desc (s.fusedView j.core c.desc)

/-- The runs that a layer has: none for an empty region. -/
def Layer.nRuns (l : Layer) : Nat := if l.tileH = 0 ∨ l.tileW = 0 then 0 else l.runs

/-- The first stage from a given one that has runs. -/
def nextRun (ls : List Layer) : Nat → Nat → Nat → Option (Nat × Nat)
  | 0, _, _ => none
  | fuel + 1, st, r =>
    match ls[st]? with
    | none => none
    | some l => if r < l.nRuns then some (st, r) else nextRun ls fuel (st + 1) 0

/-- Start the run that a feeder command stands at: a dense run starts its pass; one on the tidy units waits for its end. -/
def startRun (j : Job) (idx : Nat) : Run Unit := do
  let s ← get
  match (s.job? j.id).bind (·.cmd? idx) with
  | none => pure ()
  | some c =>
    match (s.layersOf j c)[c.aux]? with
    | none => pure ()
    | some l => do
      change fun s => ((s.showFeeder j.core (opcodeOf c.desc == 3) c.aux l.kind c.progress).lineMark j.core (l.footprint c.progress)).updCmd j.id idx
        fun c => { c with eng := { c.eng with runDue := false } }
      if l.kind = 0 then startDense j idx l c.progress false (s.injectNow j.core)

/-- Writes of stall 0 to the line store that waited for the feeder are made (R142). [DESIGN CHOICE, log entry 37] -/
def State.releaseLine (s : State) (g : Nat) : State :=
  let held := (s.core g).lineHeld
  (held.foldl (fun (s : State) w => (s.poke w.1 w.2).noteLine w.1 w.2.length) s).updCore g fun c => { c with lineHeld := [] }

/-- The feeder stands still again; what the ended command leaves (R142, R148). STAGE, KIND and RUN keep what they showed last. [DESIGN CHOICE, log entry 107] -/
def State.feederDone (s : State) (g : Nat) (d : List Byte) : State :=
  let s := ((s.setBit (Reg.WF_STATUS g) 31 false).setBit (Reg.WF_STATUS g) 30 false).releaseLine g
  if opcodeOf d = 3 then s.undefine (boltAddr g (fusedD d).workOff) (fusedD d).workSize else s

/-- A pre-emption takes the feeder from a CONV_TILE between its runs: it stands still, and what waited for it goes on (R142, R152). -/
def State.pauseFeeder (s : State) (j : Job) : State :=
  if j.cmds.any fun c => c.stage = .running && opcodeOf c.desc == 2 then (s.setBit (Reg.WF_STATUS j.core) 31 false).releaseLine j.core else s

/-- A part of a feeder command; an error ends the command and frees the feeder. -/
def feederPart (j : Job) (d : List Byte) (m : Run Unit) : Run Unit :=
  tryCatch m fun e => do change (·.feederDone j.core d); throw e

/-- Start a feeder command at its first run, or at the run that a pre-emption left unstarted (R143). -/
def startFeeder (s : State) (job idx op : Nat) : State :=
  match (s.job? job).bind (·.cmd? idx) with
  | some c =>
    if c.stage = .started then
      runPart s job idx op .started fun j c => feederPart j c.desc do
        let s ← get
        match nextRun (s.layersOf j c) 5 0 0 with
        | none => change fun s => (s.feederDone j.core c.desc).finishCmd job idx St.OK
        | some p => do
          change fun s => s.updCmd job idx fun c => { c with stage := .running, aux := p.1, progress := p.2 }
          startRun j idx
    else if c.eng.runDue then
      runPart s job idx op .running fun j c => if j.preempted || (s.core j.core).pass.isSome || s.barred j c.desc then pure () else feederPart j c.desc (startRun j idx)
    else s
  | none => s

/-- CONV_TILE (R143): its first run starts, or the next one after a pre-emption. -/
def execConvTile (job idx : Nat) (s : State) : Host.Outcome State Fault Refusal := .next (startFeeder s job idx 0x02)

/-- FUSED_TILES (R150): its first stage's first run starts. -/
def execFusedTiles (job idx : Nat) (s : State) : Host.Outcome State Fault Refusal := .next (startFeeder s job idx 0x03)

/-- The drain of a dense run (R132): written, then judged; the run's end follows. -/
def drainDense (j : Job) (p : Pass) (c : Cmd) (l : Layer) (faults : List CellFault) : Run Unit := do
  let g := j.core
  change fun s => s.inc (Reg.WF_CHECK_MISMATCH g) ((faults.filter fun f => f.site == .gen).length)
  let s ← get
  let r := s.drained g p c.eng faults
  let (v, fixed, eng) := s.ruling g r
  passPart g (drainWrite (j.tag s 1) (l.drain g c.progress) fixed)
  change fun s => s.endDrain g j.stall p r l.argmax (fixed.anyOvf l.cOut (l.run c.progress).2)
  match v with
  | .settled f _ => change fun s => ((s.addOwn p.job p.cmd f).disarm g (p.injection c)).leaveEngine g p {}
  | .rerun => change fun s => s.leaveEngine g p eng
  | .failed => do
    change fun s => (s.disarm g c.eng.injected).leaveEngine g p {}
    throw St.LEDGER_FAIL

/-- PASS_DRAIN_COMPLETE (R102): the pass on a core's engine has drained, with the bits that flipped in its cells. -/
def execPassDrainComplete (core : CoreId) (faults : List CellFault) (s : State) : Host.Outcome State Fault Refusal :=
  .next (
    let g := core.val
    match (s.core g).pass with
    | none => s
    | some p =>
      match (s.job? p.job).bind (·.cmd? p.cmd) with
      | none => s.updCore g fun c => { c with pass := none }
      | some c =>
        if opcodeOf c.desc = 1 then runPart s p.job p.cmd 1 .running fun j c => drainTwill j p c faults
        else runPart s p.job p.cmd (opcodeOf c.desc) .running fun j c => feederPart j c.desc do
          let s ← get
          match (s.layersOf j c)[c.aux]? with
          | some l => drainDense j p c l faults
          | none => pure ())

/-- LEDGER_RERUN (R104): the one re-run of a mismatched pass, from its base; a pre-emption that waits comes first (R87), which FUSED_TILES never lets in (R149). -/
def execLedgerRerun (core : CoreId) (s : State) : Host.Outcome State Fault Refusal :=
  .next (
    let g := core.val
    if (s.core g).pass.isSome then s
    else match s.engineCmd g fun c => c.eng.rerunDue with
      | none => s
      | some (j, i, c) =>
        if s.yieldDue g && opcodeOf c.desc != 3 then s
        else if opcodeOf c.desc = 1 then runPart s j.id i 1 .running fun j c => startTwill j i c.desc true c.eng.lowDue (persists c.eng.injected)
        else runPart s j.id i (opcodeOf c.desc) .running fun j c => feederPart j c.desc do
          let s ← get
          match (s.layersOf j c)[c.aux]? with
          | some l => do
            change fun s => (s.showFeeder g (opcodeOf c.desc == 3) c.aux l.kind c.progress).lineMark g (l.footprint c.progress)
            startDense j i l c.progress true (persists c.eng.injected)
          | none => pure ())

/-- The feeder command that runs on a core, its run at an end: no pass in progress, no re-run or run due. -/
def State.feederCmd (s : State) (g : Nat) : Option (Job × Nat × Cmd) :=
  if (s.core g).pass.isSome then none
  else s.engineCmd g fun c => (opcodeOf c.desc == 2 || opcodeOf c.desc == 3) && !c.eng.rerunDue && !c.eng.runDue

/-- CONV_RUN_COMPLETE (R129, R141, R146): a run ends; the next run or stage starts, unless a pre-emption or a debt keeps it back (R318, R320), or the command ends. -/
def execConvRunComplete (core : CoreId) (faults : List LaneFault) (s : State) : Host.Outcome State Fault Refusal :=
  .next (
    let g := core.val
    match s.feederCmd g with
    | none => s
    | some (j, i, c) => runPart s j.id i (opcodeOf c.desc) .running fun j c => feederPart j c.desc do
      let s ← get
      let ls := s.layersOf j c
      match ls[c.aux]? with
      | none => pure ()
      | some l => do
        if l.kind ≠ 0 then do
          change fun s => s.inc (Reg.WF_CHECK_MISMATCH g) (faults.filter (·.gen)).length
          tidyConvRun j i c.second l c.progress faults
        change fun s => s.inc (Reg.WF_RUNS g) 1
        match nextRun ls 5 c.aux (c.progress + 1) with
        | some p => do
          change fun s => s.updCmd j.id i fun c => { c with aux := p.1, progress := p.2 }
          if opcodeOf c.desc = 2 && (s.yieldDue g || s.barred j c.desc) then change fun s => s.updCmd j.id i fun c => { c with eng := { c.eng with runDue := true } }
          else startRun j i
        | none => do
          change fun s =>
            let s := if opcodeOf c.desc = 2 && l.kind != 0 then s.countChain g (unitsOf l.both c.second) else s
            (s.feederDone g c.desc).finishCmd j.id i (successStatus (s.ownOf j.id i)))

/-- LINE_STORE_SLOT_FILLED (R135): a waiting step goes on; its wait is counted. -/
def execLineStoreSlotFilled (core : CoreId) (waited : Nat) (s : State) : Host.Outcome State Fault Refusal :=
  .next (if s.bit (Reg.WF_STATUS core.val) 31 then s.inc64 (Reg.WF_FEED_WAIT core.val) waited else s)

/-- A write of CLEAR in WF_LINE_HWM (R152). -/
def State.afterLineClear (g : Nat) (v : Word) (s : State) : State :=
  if v.getLsbD 31 then s.setFld (Reg.WF_LINE_HWM g) 17 0 0 else s

end Sys2Proof.Machine
end

