-- ==== Sys2Proof/Machine/Attn.lean ====
section
/-!
DEFINITION. The commands that read contexts (R208 to R219): the context checks they start with, ATTN_BLOCK as passes and
tidy-unit steps, DECODE_BATCH.
-/
namespace Sys2Proof.Machine

/-! ### Windows -/

/-- The positions of a context's window, ascending (R194). -/
def CtxRec.window (r : CtxRec) : List Nat := (List.range (r.nextPos - r.lo)).map (· + r.lo)

/-- Read the tag of a position's slot: POS1 and FLAGS (R193). -/
def readTag (t : Tag) (r : CtxRec) (p : Nat) : Run (Nat × Nat) := do
  let b ← readMem t (r.tagAddr (p % r.maxLen)) 8
  pure (le b 0 4, le b 4 2)

/-- One position of a window as a reading command stages it: attended or a hole, its tag's flags, its latent. -/
structure Staged where
  pos : Nat
  attended : Bool
  flags : Nat
  latent : List Byte
  deriving DecidableEq, Repr

/-- Stage some positions of a context from its region (R208, R215). -/
def stagePositions (t : Tag) (r : CtxRec) : List Nat → Run (List Staged)
  | [] => pure []
  | p :: ps => do
    let g ← readTag t r p
    let b ← readMem t (r.slotAddr (p % r.maxLen)) (r.latentW * r.e)
    let rest ← stagePositions t r ps
    pure (⟨p, g.1 == p + 1, g.2, b⟩ :: rest)

/-- The union of the attended tokens' flags of some contexts (R219). -/
def attendedFlags (t : Tag) : List Nat → Run Nat
  | [] => pure 0
  | n :: ns => do
    let s ← get
    let r := s.ctx n
    let rec go : List Nat → Run Nat
      | [] => pure 0
      | p :: ps => do
        let g ← readTag t r p
        let rest ← go ps
        pure ((if g.1 == p + 1 then g.2 else 0) ||| rest)
    let a ← go r.window
    let rest ← attendedFlags t ns
    pure (a ||| rest)

/-- The flags of the attended tokens as one further input, number k, under the command's flag policy (R219). -/
def tokensInput (t : Tag) (d : List Byte) (k : Nat) (ctxs : List Nat) : Run Prov := do
  let f ← attendedFlags t ctxs
  let bad := f &&& flagRefuseOf d
  if bad != 0 then do
    change fun s => s.report t.initiator.toNat Kind.INPUT_FLAGGED t.stall.val (bad + k % 256 * 2 ^ 16)
    throw St.INPUT_FLAGGED
  pure { flags := f }

/-- Start checks of ATTN_BLOCK after its selvages (R205, R211, R213, R214). -/
def startAttn (t : Tag) (g : Nat) (d : List Byte) : Run Prov := do
  let a := attnD d
  ctxChecks12 t a.ctxs
  let s ← get
  let first := s.ctx a.ctx
  ctxEach t (fun _ r _ => if r.fmt != 0 || r.latentW != first.latentW || (a.mode == 1 && r.maxLen != first.maxLen) then some St.BAD_FORMAT else none) a.ctxs
  ctxEach t (fun _ r _ =>
    if 237500 < attnBudget r.latentW r.maxLen r.slot a || (a.mode == 1 && a.kb < a.nctx * r.maxLen) then some St.OUT_OF_LIMIT else none) a.ctxs
  let s ← get
  if s.width g < max a.kb (a.nh * a.dv) then throw St.PLAN_WIDTH
  tokensInput t d (attnIns g first.latentW a).length a.ctxs

/-- Start checks of DECODE_BATCH after its selvages (R205, R217, R218). -/
def startDecode (t : Tag) (g : Nat) (d : List Byte) : Run Prov := do
  let a := decodeD d
  let s ← get
  let ctxs := s.decodeCtxs g a
  ctxChecks12 t ctxs
  ctxEach t (fun _ r _ => if r.latentW != a.w then some St.BAD_FORMAT else none) ctxs
  ctxEach t (fun _ _ _ => if 33792 < 16 * decodeTok a then some St.OUT_OF_LIMIT else none) ctxs
  tokensInput t d (decodeIns g a).length ctxs

/-! ### Passes within one command -/

/-- Run one pass of a command that runs several, INT8 by INT8, with its re-run where it is due (R104, R209): the settled cells. -/
def atomicPass (j : Job) (idx : Nat) (faults : List PassFault) (n rows cols : Nat) (ks : List KStep) : Run Tile := do
  let g := j.core
  let c := runCells true 8 rows cols none ks
  let st := passSteps c false 8 ks.length
  let once := fun (rerun : Bool) (eng : Eng) (inj : Option Nat) => do
    let s ← get
    stageSteps (j.tag s 0) g true 8 false ks
    let s ← get
    let fs := (faults.filter fun f => f.pass == n && (!rerun || f.again)).map (·.fault)
    let p : Pass := { job := j.id, cmd := idx, tile := c.tile, steps := st.1, saved := st.2, rerun := rerun, inject := inj }
    let r := s.drained g p eng fs
    let (v, fixed, eng) := s.ruling g r
    set (s.endDrain g j.stall p r false (fixed.anyOvf c.exact.length (c.exact.headD []).length))
    pure (v, fixed, eng)
  let s ← get
  let inj := s.injectNow g
  let (v, fixed, eng) ← once false {} inj
  let (v, fixed, _) ← match v with
    | .rerun => once true eng (persists eng.injected)
    | _ => pure (v, fixed, eng)
  change fun s => s.disarm g inj
  match v with
  | .settled f _ => do
    change fun s => s.addOwn j.id idx f
    pure fixed
  | _ => throw St.LEDGER_FAIL

/-! ### ATTN_BLOCK -/

/-- The FP32 entry n of a table. -/
def fpEntry (l : List Byte) (n : Nat) : Fp := fp32.value (le l (4 * n) 4)

/-- A column of a key block: its context and what was staged there, if it holds a position (R208). -/
abbrev KeyCol := Option (Nat × Staged)

/-- The operands of ATTN_BLOCK, read once. -/
structure AttnIn where
  a : AttnD
  r : Nat
  qs : List Byte
  qpos : List Byte
  wuk : List Byte
  wukRs : List (Nat × Nat)
  wuv : List Byte
  wuvCs : List (Nat × Nat)
  vs : List Byte
  q : List Byte

/-- Read the operands of ATTN_BLOCK (R211). -/
def readAttn (tag2 tag0 : Tag) (g r : Nat) (a : AttnD) : Run AttnIn := do
  let rd := fun (t : Tag) o n => readMem t (boltAddr g o) n
  let q ← rd tag0 a.q (a.nh * a.dk * 512)
  let qs ← rd tag2 a.qs (a.nh * a.nq * 4)
  let qpos ← if a.causal then rd tag2 a.qpos (a.nq * 4) else pure []
  let wuk ← rd tag0 a.wuk (r * 512)
  let rs ← readScales tag0 (if a.wukRs = 0 then none else some (boltAddr g a.wukRs)) 0 (a.nh * a.dk)
  let wuv ← rd tag0 a.wuv (r * roundUp (a.nh * a.dv) 64)
  let cs ← readScales tag0 (if a.wuvCs = 0 then none else some (boltAddr g a.wuvCs)) 0 (a.nh * a.dv)
  let vs ← rd tag2 a.vs (a.nh * a.dv * 4)
  pure ⟨a, r, qs, qpos, wuk, rs, wuv, cs, vs, q⟩

/-- Query i attends the key of a column (R208). -/
def AttnIn.attends (x : AttnIn) (i : Nat) (c : KeyCol) : Bool :=
  match c with
  | none => false
  | some (n, t) => t.attended && (x.a.mode == 0 || n == x.a.ctx + i / x.a.qpc) && (!x.a.causal || t.pos ≤ le x.qpos (4 * i) 4)

/-- A signed byte of a list as a number. -/
def sbyte (l : List Byte) (i : Nat) : Int := (l.getD i 0).toInt

/-- The latent element k of a column, 0 where it holds no position. -/
def colLatent (c : KeyCol) (k : Nat) : Int := match c with | some (_, t) => sbyte t.latent k | none => 0

/-- The INT8 outputs of a settled expansion pass: row and column scales, RND 0, OUT_ZERO 0 (R209). -/
def int8Out (t : Tile) (rows cols : Nat) (rs cs : List (Nat × Nat)) : List (List Int) :=
  (List.range rows).map fun i => (List.range cols).map fun j => signed 8 (requant 1 0 0 (rs.getD i (1, 0)) (cs.getD j (1, 0)) (t.cell i j))

/-- An element of a matrix of numbers. -/
def at2 (m : List (List Int)) (i j : Nat) : Int := (m.getD i []).getD j 0

/-- Key expansion of a block: N_HEADS × D_K rows by the block's columns (R209). -/
def AttnIn.keySteps (x : AttnIn) (cols : List KeyCol) : List KStep :=
  (List.range x.r).map fun k => { weft := (List.range (x.a.nh * x.a.dk)).map (weftRaw 8 (slice x.wuk (512 * k) 512)), warp := cols.map (colLatent · k) }

/-- Value expansion of a block: its columns as rows, by N_HEADS × D_V (R209). -/
def AttnIn.valSteps (x : AttnIn) (cols : List KeyCol) : List KStep :=
  let w := roundUp (x.a.nh * x.a.dv) 64
  (List.range x.r).map fun k =>
    { weft := cols.map fun c => unsigned 8 (colLatent c k), warp := (List.range (x.a.nh * x.a.dv)).map fun j => sbyte x.wuv (k * w + j) }

/-- The score pass of a head (R209). -/
def AttnIn.scoreSteps (x : AttnIn) (keys : List (List Int)) (h n : Nat) : List KStep :=
  (List.range x.a.dk).map fun k =>
    { weft := (List.range x.a.nq).map (weftRaw 8 (slice x.q (h * x.a.dk * 512 + 512 * k) 512)),
      warp := (List.range n).map fun c => at2 keys (h * x.a.dk + k) c }

/-- The P·V pass of a head (R209). -/
def AttnIn.pvSteps (x : AttnIn) (p vals : List (List Int)) (h n : Nat) : List KStep :=
  (List.range n).map fun c =>
    { weft := (List.range x.a.nq).map fun i => unsigned 8 (at2 p i c), warp := (List.range x.a.dv).map fun j => at2 vals c (h * x.a.dv + j) }

/-- The running statistics of one query of one head (R210). -/
structure SoftRow where
  m : Fp := .inf true
  l : Fp := .ofInt 0
  o : List Fp := []
  /-- It has attended some key. -/
  any : Bool := false
  deriving DecidableEq, Repr

/-- exp and the product with 127, rounded half away to an integer; NaN gives 0 (R210, R167). -/
def probOf (x : Fp) : Int :=
  match fp32.round ((fp32.exp (fp32.round x)).mul (.ofInt 127)) with
  | .fin n m e => let r := ratioOf m e; roundInt 4 n r.1 r.2
  | _ => 0

/-- The scaled and masked scores of a query over a block, with their maximum (R210). -/
def AttnIn.scores (x : AttnIn) (cols : List KeyCol) (raw : Tile) (h i : Nat) : List Fp × Fp :=
  let v := cols.zipIdx.map fun c =>
    if x.attends i c.1 then fp32.round ((fp32.round (.ofInt (raw.cell i c.2).toInt)).mul (fpEntry x.qs (h * x.a.nq + i))) else .inf true
  (v, reduceF 64 0x31 v)

/-- Row i of P of a block, and the statistics before the P·V pass: m, l, alpha (R210). -/
def AttnIn.probRow (x : AttnIn) (cols : List KeyCol) (raw : Tile) (h i : Nat) (st : SoftRow) : List Int × SoftRow × Fp :=
  let r := fp32.round
  let s := x.scores cols raw h i
  let mn := st.m.max2 s.2
  let pq := s.1.map fun v => if mn == .inf true then 0 else probOf (v.add mn.neg)
  let alpha := if st.m.eqv mn then Fp.ofInt 1 else fp32.exp (r (st.m.add mn.neg))
  (pq, { st with m := mn, l := r ((r (st.l.mul alpha)).add (r (.ofInt (sumInt pq)))), any := st.any || cols.any (x.attends i) }, alpha)

/-- The outputs' running sums after the P·V pass (R210). -/
def AttnIn.accRow (x : AttnIn) (raw : Tile) (h i : Nat) (alpha : Fp) (st : SoftRow) : SoftRow :=
  let r := fp32.round
  let o := (List.range x.a.dv).map fun j =>
    r ((r ((st.o.getD j (.ofInt 0)).mul alpha)).add (r ((r (.ofInt (raw.cell i j).toInt)).mul (fpEntry x.vs (h * x.a.dv + j)))))
  { st with o := o }

/-- One head over one block; the passes of the block count from n (R209, R210). -/
def attnHead (j : Job) (idx : Nat) (faults : List PassFault) (x : AttnIn) (cols : List KeyCol) (keys vals : List (List Int)) (n h : Nat) (rows : List SoftRow) : Run (List SoftRow) := do
  let raw ← atomicPass j idx faults (n + 2 + 2 * h) x.a.nq cols.length (x.scoreSteps keys h cols.length)
  let ps := (List.range x.a.nq).map fun i => x.probRow cols raw h i (rows.getD i {})
  let pv ← atomicPass j idx faults (n + 3 + 2 * h) x.a.nq x.a.dv (x.pvSteps (ps.map (·.1)) vals h cols.length)
  pure (ps.zipIdx.map fun p => x.accRow pv h p.2 p.1.2.2 p.1.2.1)

/-- Every head of a block in turn. -/
def attnHeads (j : Job) (idx : Nat) (faults : List PassFault) (x : AttnIn) (cols : List KeyCol) (keys vals : List (List Int)) (n : Nat) : Nat → List (List SoftRow) → Run (List (List SoftRow))
  | 0, _ => pure []
  | h + 1, st => do
    let r ← attnHeads j idx faults x cols keys vals n h st
    let o ← attnHead j idx faults x cols keys vals n h (st.getD h [])
    pure (r ++ [o])

/-- The key blocks in ascending order: expansion, then the heads (R209). -/
def attnBlocksRun (j : Job) (idx : Nat) (faults : List PassFault) (x : AttnIn) : Nat → List (List KeyCol) → List (List SoftRow) → Run (List (List SoftRow))
  | _, [], st => pure st
  | n, cols :: bs, st => do
    let k ← atomicPass j idx faults n (x.a.nh * x.a.dk) cols.length (x.keySteps cols)
    let v ← atomicPass j idx faults (n + 1) cols.length (x.a.nh * x.a.dv) (x.valSteps cols)
    let st ← attnHeads j idx faults x cols (int8Out k (x.a.nh * x.a.dk) cols.length x.wukRs []) (int8Out v cols.length (x.a.nh * x.a.dv) [] x.wuvCs) n x.a.nh st
    attnBlocksRun j idx faults x (n + 2 + 2 * x.a.nh) bs st

/-- A list cut into parts of k elements. -/
def cutInto {α : Type} (k : Nat) (l : List α) : List (List α) := (List.range (ceilDiv l.length k)).map fun i => (l.drop (i * k)).take k

/-- The columns of the key blocks: a window in blocks (SINGLE), or every context's columns side by side (GROUP) (R208). -/
def attnCols (t : Tag) (a : AttnD) : Run (List (List KeyCol)) := do
  let s ← get
  if a.mode = 0 then do
    let r := s.ctx a.ctx
    let st ← stagePositions t r r.window
    pure (cutInto a.kb (st.map fun p => some (a.ctx, p)))
  else do
    let rec go : List Nat → Run (List KeyCol)
      | [] => pure []
      | n :: ns => do
        let s ← get
        let r := s.ctx n
        let st ← stagePositions t r r.window
        let rest ← go ns
        pure ((List.range r.maxLen).map (fun k => (st[k]?).map fun p => (n, p)) ++ rest)
    let cols ← go a.ctxs
    pure [cols]

/-- The output element of a query: +0 where it attended nothing, NaN where its score scale is NaN (R210). -/
def AttnIn.outElem (x : AttnIn) (h i j : Nat) (st : SoftRow) : Fp :=
  if !st.any then .ofInt 0
  else if (fpEntry x.qs (h * x.a.nq + i)).isNan then .nan
  else if st.l.isZero then .ofInt 0
  else fp32.div (st.o.getD j (.ofInt 0)) st.l

/-- The float format of an attention output. -/
def floatFmtOf (fmt : Nat) : FpFmt := if fmt = 5 then bf16 else if fmt = 6 then fp16 else fp32

/-- The effect of ATTN_BLOCK. -/
def effectAttn (j : Job) (idx : Nat) (d : List Byte) (faults : List PassFault) (lanes : List LaneFault) : Run Unit := do
  let s ← get
  let a := attnD d
  let g := j.core
  let r := (s.ctx a.ctx).latentW
  let x ← readAttn (j.tag s 2) (j.tag s 0) g r a
  let blocks ← attnCols (j.tag s 4) a
  let st ← attnBlocksRun j idx faults x 0 blocks (List.replicate a.nh (List.replicate a.nq {}))
  meetRun j idx true false lanes
  let e := floatBytes a.fmt
  eachDo (fun h => eachDo (fun i => do
    let row := (st.getD h []).getD i {}
    if !row.any then change fun s => s.inc Reg.CX_EMPTY_ROWS 1
    writeMem (j.tag s 2) (boltAddr g (a.out + (h * a.nq + i) * a.outStride))
      ((List.range a.dv).flatMap fun k => leBytes e ((floatFmtOf a.fmt).bits (x.outElem h i k row)))) (List.range a.nq)) (List.range a.nh)
  let steps := blocks.length * a.nh * ceilDiv (a.nq * ceilDiv a.kb 64 * 12 + a.nq * 12 + a.nq * ceilDiv a.dv 64 * 6) 2 + a.nh * ceilDiv (a.nq * ceilDiv a.dv 64 * 5) 2
  change fun s => s.countSteps g [0, 1] steps

/-- A computation whose end, with success or not, is followed by a change of the state. -/
def thenAlways (m : Run Unit) (f : State → State) : Run Unit := do
  tryCatch m fun e => do change f; throw e
  change f

/-- ATTN_BLOCK (R208 to R213): its passes and tidy-unit steps, block by block; its scratch area is undefined after it (R212). -/
def execAttnBlock (job idx : Nat) (faults : List PassFault) (lanes : List LaneFault) (s : State) : Host.Outcome State Fault Refusal :=
  .next (runWhole s job idx 0x05 fun j c => do
    let a := attnD c.desc
    thenAlways (effectAttn j idx c.desc faults lanes) fun s => s.undefine (boltAddr j.core a.scratch) a.scratchSize)

/-! ### DECODE_BATCH -/

/-- A latent element as FP32 (R192, R215). -/
def latentFp (r : CtxRec) (b : List Byte) (k : Nat) : Fp :=
  match r.fmt with
  | 0 => .fin (decide (sbyte b k < 0)) ((sbyte b k).natAbs * (scaleEntry r.scale).1) (-((scaleEntry r.scale).2 : Int))
  | 5 => bf16.value (le b (2 * k) 2)
  | 6 => fp16.value (le b (2 * k) 2)
  | _ => e4m3.value (le b k 1)

/-- The dot product in the order of R168 with 64 lanes, folding by fma (R215). -/
def dotF (xs ys : List Fp) : Fp :=
  let r := fp32.round
  reduceLanes 64 (fun s p => r ((p.1.mul p.2).add s)) (fun a b => r (a.add b)) (Fp.ofInt 0) (xs.zip ys)

/-- The running m, l and u of one entry and head (R215). -/
structure DecRow where
  m : Fp := .inf true
  l : Fp := .ofInt 0
  u : List Fp
  deriving DecidableEq, Repr

/-- One attended token (R215). -/
def DecRow.token (sm : Fp) (qt : List Fp) (st : DecRow) (c : List Fp) : DecRow :=
  let r := fp32.round
  let x := r ((dotF qt c).mul sm)
  if x.gt st.m then
    let a := fp32.exp (r (st.m.add x.neg))
    { m := x, l := r ((r (st.l.mul a)).add (.ofInt 1)), u := List.zipWith (fun u c => r ((r (u.mul a)).add c)) st.u c }
  else
    let p := fp32.exp (r (x.add st.m.neg))
    { st with l := r (st.l.add p), u := List.zipWith (fun u c => r (u.add (r (p.mul c)))) st.u c }

/-- Where unit m keeps m, l and u of head h of the entry that a pre-emption stopped (R216, R217): three FP32 values and more, in that order. [DESIGN CHOICE, log entry 108] -/
def decodeKeep (g : Nat) (a : DecodeD) (m h : Nat) : Nat :=
  boltAddr g a.scratch + (if a.both then m else 0) * roundUp (a.nh * (a.w + 2) * 4) 64 + h * ((a.w + 2) * 4)

/-- m, l and u as they are kept. -/
def DecRow.bytes (r : DecRow) : List Byte := (r.m :: r.l :: r.u).flatMap fun x => leBytes 4 (fp32.bits x)

/-- m, l and u as they were kept. -/
def decodeKept (w : Nat) (b : List Byte) : DecRow := { m := fpEntry b 0, l := fpEntry b 1, u := (List.range w).map fun k => fpEntry b (k + 2) }

/-- The positions of a window after its first n attended ones; none where nothing is left after them. [DESIGN CHOICE, log entry 108] -/
def skipAttended (t : Tag) (r : CtxRec) : Nat → List Nat → Run (Option (List Nat))
  | 0, ps => pure (some ps)
  | _ + 1, [] => pure none
  | n + 1, p :: ps => do
    let g ← readTag t r p
    let k := if g.1 = p + 1 then n else n + 1
    if k = 0 ∧ ps = [] then pure none else skipAttended t r k ps

/-- Stage at most n attended positions of a window, in order: their latents, and whether the window is at its end. [DESIGN CHOICE, log entry 108] -/
def stageAttended (t : Tag) (r : CtxRec) : Nat → List Nat → Run (List (List Byte) × Bool)
  | _, [] => pure ([], true)
  | 0, _ :: _ => pure ([], false)
  | n + 1, p :: ps => do
    let g ← readTag t r p
    let b ← readMem t (r.slotAddr (p % r.maxLen)) (r.latentW * r.e)
    if g.1 = p + 1 then do
      let rest ← stageAttended t r n ps
      pure (b :: rest.1, rest.2)
    else stageAttended t r (n + 1) ps

/-- A part of one entry of DECODE_BATCH on unit m: every head over at most cnt attended positions in ascending order, after the first skip of them (R215, R217). It says whether the entry is at its end. -/
def decodePart (j : Job) (idx : Nat) (a : DecodeD) (lanes : List LaneFault) (skip cnt n m ctx : Nat) : Run Bool := do
  let s ← get
  let g := j.core
  let t := j.tag s (2 + m)
  let r := s.ctx ctx
  match ← skipAttended (j.tag s 4) r skip r.window with
  | none => pure true
  | some ps => do
    let st ← stageAttended (j.tag s 4) r cnt ps
    change fun s => (if skip = 0 then s.countSteps g [m] (decodePerCtx a r.maxLen r.slot) else s).stage g
    let toks := st.1.map fun b => (List.range a.w).map (latentFp r b)
    eachDo (fun f => tidyCheck g m j idx (laneLoc f.stage f.sweep f.lane) f.again false) (lanes.filter fun f => f.row == n)
    if skip = 0 ∧ toks.isEmpty then change fun s => s.inc Reg.CX_EMPTY_ROWS a.nh
    eachDo (fun h => do
      let b ← readMem t (boltAddr g (a.q + (n * a.nh + h) * decodeStride a.qfmt a.w)) (a.w * floatBytes a.qfmt)
      let qt := (List.range a.w).map fun k => (floatFmtOf a.qfmt).value (le b (k * floatBytes a.qfmt) (floatBytes a.qfmt))
      let from_ ← if skip = 0 then pure { u := List.replicate a.w (.ofInt 0) } else do
        let k ← readMem t (decodeKeep g a m h) ((a.w + 2) * 4)
        pure (decodeKept a.w k)
      let o := toks.foldl (DecRow.token (fp32.value a.scale) qt) from_
      let out := o.u.flatMap fun u => leBytes (floatBytes a.fmt) ((floatFmtOf a.fmt).bits (if o.l.isZero then .ofInt 0 else fp32.div u o.l))
      let x := if st.2 then (boltAddr g (a.out + (n * a.nh + h) * decodeStride a.fmt a.w), out) else (decodeKeep g a m h, o.bytes)
      writeMem t x.1 x.2) (List.range a.nh)
    pure st.2

/-- The entries of a turn, each on its unit; whether all are at their ends. -/
def decodeTurn (j : Job) (idx : Nat) (a : DecodeD) (lanes : List LaneFault) (ctxs : List Nat) (skip cnt : Nat) : List (Nat × Nat) → Run Bool
  | [] => pure true
  | (n, m) :: l => do
    let x ← decodePart j idx a lanes skip cnt n m (ctxs.getD n 0)
    let y ← decodeTurn j idx a lanes ctxs skip cnt l
    pure (x && y)

/-- n turns from turn k, the first after some attended positions of its entries; a pre-emption that waits stops them between entries or after 16 positions (R217). -/
def decodeTurns (j : Job) (idx : Nat) (a : DecodeD) (second : Bool) (lanes : List LaneFault) (ctxs : List Nat) : Nat → Nat → Nat → Run Bool
  | 0, _, _ => pure true
  | n + 1, k, skip => do
    let s ← get
    let yields := s.yieldDue j.core
    let ended ← decodeTurn j idx a lanes ctxs skip (if yields then 16 else 2 ^ 32) (turnOf a.n a.both second k)
    if ended && (n == 0 || !yields) then decodeTurns j idx a second lanes ctxs n (k + 1) 0
    else do
      change fun s => s.updCmd j.id idx fun c => { c with progress := if ended then k + 1 else k, aux := if ended then 0 else skip + 16 }
      pure false

/-- DECODE_BATCH (R215 to R217): every entry in order; after a pre-emption it goes on at the next position. -/
def execDecodeBatch (job idx : Nat) (faults : List LaneFault) (s : State) : Host.Outcome State Fault Refusal :=
  .next (runPart s job idx 0x06 .started fun j c => do
    let s ← get
    let a := decodeD c.desc
    let us := unitsOf a.both c.second
    let list ← if a.list then readMem (j.tag s (2 + us.headD 0)) (boltAddr j.core a.listOff) (a.n * 2) else pure []
    let ctxs := (List.range a.n).map fun k => if a.list then le list (2 * k) 2 else a.first + k
    if c.progress = 0 ∧ c.aux = 0 then change fun s => s.countSteps j.core us 64
    let ended ← decodeTurns j idx a c.second faults ctxs (turnsOf a.n a.both - c.progress) c.progress c.aux
    if ended then change fun s => s.finishCmd job idx (successStatus (s.ownOf job idx)))

end Sys2Proof.Machine
end

