-- ==== Sys2Proof/Machine/Memory.lean ====
section
/-!
DEFINITION. Memories on their own (R238 to R265): write-back, the patrol scrubber, carve-outs, LPDDR5X training, firewall
regions, the HyperRAM's failure.
-/
namespace Sys2Proof.Machine

/-- ECC_WRITEBACK (R239): a corrected word is written back, unless a later write has replaced it. -/
def execEccWriteback (addr : BitVec 40) (s : State) : Host.Outcome State Fault Refusal :=
  .next (
    let a := addr.toNat / 8 * 8
    if s.writeback.contains a then s.clearMark a else s)

/-- Errors arise in stored words: single or double; a word that has a double error keeps it. In LPDDR5X outside every inline-ECC region nothing detects one: the word's bytes become free values (R248). -/
def State.addErrors (s : State) (l : List (BitVec 40 × Bool)) : State :=
  l.foldl (fun s e =>
    let a := e.1.toNat / 8 * 8
    if a < 0x1000000000 && (s.eccUnit a).isNone then s.undefine a 8
    else match s.ecc.find? (fun m => m.1 == a) with
    | some _ => { s with ecc := s.ecc.map fun m => if m.1 == a then (a, .double) else m }
    | none => { s with ecc := s.ecc ++ [(a, if e.2 then .double else .single)] }) s

/-- Bytes that a scrub pass covers: the skein, then the bolt (R242). -/
def scrubBytes : Nat := 0xC0000 + 0x400000

/-- The device address of a scrub offset. -/
def scrubAddr (g o : Nat) : Nat := if o < 0xC0000 then skeinAddr g o else boltAddr g (o - 0xC0000)

/-- PATROL_SCRUB_READ (R242): one line; correctable words are corrected in place, uncorrectable ones recorded. -/
def execPatrolScrubRead (core : CoreId) (late : List (BitVec 40 × Bool)) (s : State) : Host.Outcome State Fault Refusal :=
  .next (
    let g := core.val
    if s.phase ≠ .live ∨ !s.coreUp g then s
    else
      let s := s.addErrors late
      let o := (s.core g).scrubAt
      let s := (s.marks (scrubAddr g o) 64).foldl (fun s m => match m.2 with
        | .single => (s.correctable m.1 0).clearMark m.1
        | .double => s.uncorrectable m.1 0) s
      if o + 64 < scrubBytes then s.updCore g fun c => { c with scrubAt := o + 64 }
      else (s.updCore g fun c => { c with scrubAt := 0, scrubSince := s.refNs, scrubLateSent := false }).inc (Reg.BT_SCRUB_PASSES g) 1)

/-- SCRUB_LATE (R242): a pass has not completed within 4 s; sent once for the pass. -/
def execScrubLate (core : CoreId) (s : State) : Host.Outcome State Fault Refusal :=
  .next (
    let g := core.val
    let c := s.core g
    if s.phase = .live ∧ s.coreUp g ∧ c.scrubLateSent = false ∧ c.scrubSince + 4000000000 ≤ s.refNs then
      (s.updCore g fun c => { c with scrubLateSent := true }).report (unitSrc g 7) Kind.SCRUB_LATE 0 (scrubAddr g c.scrubAt)
    else s)

/-! ### Carve-outs (R244) -/

/-- A carve-out entry that may be in force: LIMIT not below BASE, inside the memory's general area, apart from the other enabled entries. -/
def State.carveOk (s : State) (g : Nat) (skein : Bool) (n v : Nat) : Bool :=
  let base := bits v 9 0
  let lim := bits v 21 12
  let cnt := if skein then 4 else 8
  let reg := fun k => if skein then Reg.SK_CARVE g k else Reg.BT_CARVE g k
  base ≤ lim && (!skein || (128 ≤ base && lim ≤ 191))
  && (List.range cnt).all fun k => k == n || !s.bit (reg k) 31 || s.fld (reg k) 21 12 < base || lim < s.fld (reg k) 9 0

/-- What a write of a carve-out entry leaves: an enabled entry keeps its fields; one that would be malformed or overlap stays disabled. -/
def State.afterCarve (g : Nat) (skein : Bool) (n : Nat) (old s : State) : State :=
  let r := if skein then Reg.SK_CARVE g n else Reg.BT_CARVE g n
  if old.bit r 31 then s.wr r (BitVec.ofNat 32 (putBits (old.rd r).toNat 31 31 (s.fld r 31 31)))
  else if s.bit r 31 && !old.carveOk g skein n (s.rd r).toNat then s.setBit r 31 false else s

/-! ### LPDDR5X (R245 to R250) -/

/-- What a write of MEM_DDR_CFG does: undefined rates and capacities leave their field, START trains (R246, R265). [DESIGN CHOICE, log entry 28] -/
def State.afterDdrCfg (v : Word) (old s : State) : State :=
  let r := Reg.MEM_DDR_CFG
  let cap := s.fld r 6 0
  let s := if 5 < s.fld r 10 8 then s.setFld r 10 8 (old.fld r 10 8) else s
  let s := if cap % 4 = 0 ∧ 8 ≤ cap ∧ cap ≤ 64 then s else s.setFld r 6 0 (old.fld r 6 0)
  if v.getLsbD 29 && (!old.bit r 31 || s.ddr == 0) then s.trainDdr else s

/-- DDR_TRAINING_DONE (R246): the capacity is mapped, or the lowest failing channel reports. -/
def execDdrTrainingDone (failed : List (Fin 16)) (s : State) : Host.Outcome State Fault Refusal :=
  .next (
    if s.ddr ≠ 1 then s
    else
      let s := { s with ddr := 2 }
      match failed with
      | [] => s.setBit Reg.MEM_DDR_CFG 30 true
      | c :: cs => s.report (0x110 + cs.foldl (fun m x => min m x.val) c.val) Kind.DDR_INIT_FAIL 0 0)

/-- Whether region n, as its registers stand, may be enabled (R250). -/
def State.regionOk (s : State) (n : Nat) : Bool :=
  let b := s.fld (Reg.SAF_FWR_BASE n) 15 0
  let l := s.fld (Reg.SAF_FWR_LIMIT n) 15 0
  b ≤ l && (l + 1) * 2 ^ 20 ≤ s.ddrBytes && (!s.bit (Reg.SAF_FWR_CTRL n) 1 || (l + 1 - b) % 8 == 0)
  && (List.range 64).all fun k => k == n || !s.bit (Reg.SAF_FWR_CTRL k) 0 || s.fld (Reg.SAF_FWR_LIMIT k) 15 0 < b || l < s.fld (Reg.SAF_FWR_BASE k) 15 0

/-- What a write of a firewall region's register leaves: 0 BASE, 1 LIMIT, 2 MASK, 3 CTRL (R250). -/
def State.afterRegion (n reg : Nat) (v : Word) (old s : State) : State :=
  let c := Reg.SAF_FWR_CTRL n
  if old.bit c 0 then
    if reg = 0 then s.wr (Reg.SAF_FWR_BASE n) (old.rd (Reg.SAF_FWR_BASE n))
    else if reg = 1 then s.wr (Reg.SAF_FWR_LIMIT n) (old.rd (Reg.SAF_FWR_LIMIT n))
    else if reg = 3 then s.setBit c 1 (old.bit c 1) else s
  else if reg = 3 && v.getLsbD 0 && s.bit c 0 then
    if s.regionOk n then
      let s := s.setBit c 4 false
      if s.bit c 1 then s.setBit c 8 true else s
    else (s.setBit c 0 false).setBit c 4 true
  else s

/-- FIREWALL_INIT_DONE (R248): zero and valid check bits stand over all of the region. -/
def execFirewallInitDone (region : Fin 64) (s : State) : Host.Outcome State Fault Refusal :=
  .next (s.initDone region.val)

end Sys2Proof.Machine
end

