-- ==== Sys2Proof/Machine/Barrow.lean ====
section
/-!
DEFINITION. The Barrow transport and ownership (R395 to R411): frames, sessions, windows, device requests and their answers,
claims, elections and the change of owner.
-/
namespace Sys2Proof.Machine

/-! ### Sessions -/

/-- Change Barrow's state. -/
def State.updBar (s : State) (f : Barrow → Barrow) : State := { s with bar := f s.bar }

/-- The open sessions. -/
def State.sessions (s : State) : List Session := s.bar.slots.filterMap id

/-- An open session by its number. -/
def State.session? (s : State) (n : Nat) : Option Session := s.sessions.find? (·.num == n)

/-- Change an open session. -/
def State.updSession (s : State) (n : Nat) (f : Session → Session) : State :=
  s.updBar fun b => { b with slots := b.slots.map fun o => o.map fun x => if x.num = n then f x else x }

/-- The owner's session number, 0 where there is none. -/
def State.ownerNum (s : State) : Nat := s.bar.owner.getD 0

/-! ### Frames -/

/-- A Barrow frame (R396): header with its CRC over header and body, the CRC field as zero. -/
def barFrame (version kind session seq ack epoch : Nat) (body : List Byte) : List Byte :=
  let h := beBytes 2 0xB7A0 ++ beBytes 1 version ++ beBytes 1 kind ++ beBytes 2 session ++ beBytes 2 body.length ++ beBytes 4 seq
    ++ beBytes 4 ack ++ beBytes 4 epoch
  h ++ beBytes 4 (crc32c (h ++ beBytes 4 0 ++ body)).toNat ++ body

/-- A port beside its registers. -/
def State.ethPort (s : State) (p : Nat) : EthPort := s.eth.getD p {}

/-- Change a port. -/
def State.updEth (s : State) (p : Nat) (f : EthPort → EthPort) : State := { s with eth := updAt f p s.eth }

/-- Bytes of the frame that carries a UDP payload of n bytes, FCS included. -/
def udpFrameBytes (ipv6 vlan : Bool) (n : Nat) : Nat := 14 + (if vlan then 4 else 0) + (if ipv6 then 40 else 20) + 8 + n + 4

/-- Put a Barrow datagram on a port's control queue; one too large for MAX_FRAME is not sent (R395). [DESIGN CHOICE, log entry 83] -/
def State.sendBarrow (s : State) (p : Nat) (dst : HostAddr) (udp : List Byte) : State :=
  if udpFrameBytes dst.ipv6 (s.bit (Reg.ETH_NET p) 31) udp.length ≤ s.fld (Reg.ETH_PORT_CTRL p) 13 0 then
    s.updEth p fun e => { e with ctrl := e.ctrl ++ [.barrow dst udp] }
  else s

/-- CMD_EPOCH. -/
def State.epoch (s : State) : Nat := (s.rd Reg.CMD_EPOCH).toNat

/-- The response to a request of a session: ACK (4) or NACK (5). -/
def State.respFrame (s : State) (x : Session) (seq kind : Nat) (body : List Byte) : List Byte :=
  barFrame x.version kind x.num 0 seq s.epoch body

/-- Send a response and store it for duplicates (R399). -/
def State.answer (s : State) (n seq kind : Nat) (body : List Byte) : State :=
  match s.session? n with
  | none => s
  | some x =>
    let f := s.respFrame x seq kind body
    (s.updSession n fun x => { x with resps := (x.resps.filter fun r => r.1 != seq && x.expect ≤ r.1 + 64) ++ [(seq, some f)] }).sendBarrow x.port x.addr f

/-- The body of a NACK (R398, R405): reason, status, detail. -/
def nackBody (reason status detail : Nat) : List Byte := beBytes 1 reason ++ beBytes 1 status ++ beBytes 2 0 ++ beBytes 4 detail

/-- BAR_OWNER_GEN. -/
def State.ownerGen (s : State) : Nat := (s.rd Reg.BAR_OWNER_GEN).toNat

/-- A session's role (R398). -/
def State.role (s : State) (x : Session) : Nat := if s.bar.owner = some x.num then 2 else if x.claim.isSome then 1 else 0

/-- The session state of an ACK (R398). -/
def State.sessionState (s : State) (n : Nat) : List Byte :=
  beBytes 1 ((s.session? n).elim 0 s.role) ++ beBytes 1 0 ++ beBytes 2 s.ownerNum ++ beBytes 4 s.ownerGen

/-- What a request's processing answers: nothing yet, or a response's kind and body. -/
abbrev Answer := Option (Nat × List Byte)

/-- Refuse a request. -/
def nack (reason detail : Nat) : Answer := some (5, nackBody reason 0 detail)

/-- Count a dropped frame (R396, R399). -/
def State.dropBarrow (s : State) : State := s.sat Reg.BAR_DROPPED 31 0 1

/-- The offset of the first byte of a body that is not zero among some reserved ones. -/
def badReserved (body : List Byte) (reserved : List Nat) : Option Nat := reserved.find? fun i => (body.getD i 0) != 0

/-- A request of a session in its host-to-device stream (R399): processed in SEQ order, a duplicate answered again, any other dropped. [DESIGN CHOICE, log entry 82] -/
def State.request (s : State) (n seq : Nat) (f : Session → State → State × Answer) : State :=
  match s.session? n with
  | none => s.dropBarrow
  | some x =>
    if seq = x.expect then
      let s := s.updSession n fun x => { x with expect := x.expect + 1, last := s.refNs, resps := x.resps.filter (fun r => x.expect < r.1 + 64) ++ [(seq, none)] }
      let r := f x s
      match r.2 with
      | some a => r.1.answer n seq a.1 a.2
      | none => r.1
    else if seq < x.expect ∧ x.expect ≤ seq + 64 ∧ 1 ≤ seq then
      let s := s.updSession n fun x => { x with dup := satAdd 16 x.dup 1, last := s.refNs }
      match x.resps.find? (·.1 == seq) with
      | some (_, some f) => s.sendBarrow x.port x.addr f
      | _ => s
    else s.dropBarrow

/-! ### Windows and device requests -/

/-- WIN and OFFSET of a host reference (R266). -/
def refWin (r : Nat) : Nat := bits r 63 56
/-- OFFSET of a host reference. -/
def refOff (r : Nat) : Nat := bits r 47 0
/-- The reserved bits of a host reference. -/
def refReserved (r : Nat) : Nat := bits r 55 48

/-- The session to which a window is bound (R402). -/
def State.winSession (s : State) (w : Nat) : Option Nat :=
  if w != 0 && s.bit (Reg.BAR_WIN w) 31 then some (s.fld (Reg.BAR_WIN w) 15 0) else none

/-- Bytes off to off + n − 1 lie in a window. -/
def State.winHolds (s : State) (w off n : Nat) : Bool := off + n ≤ s.rd64 (Reg.BAR_WIN_SIZE w) % 2 ^ 48

/-- The session through which the device may read bytes of a window: bound, with the right, within SIZE (R402). -/
def State.winRead (s : State) (w off n : Nat) : Option Nat :=
  if s.bit (Reg.BAR_WIN w) 25 && s.winHolds w off n then s.winSession w else none

/-- The session through which the device may write: bound to the owner's session, with the right, within SIZE (R402). -/
def State.winWrite (s : State) (w off n : Nat) : Option Nat :=
  if s.bit (Reg.BAR_WIN w) 24 && s.winHolds w off n then (s.winSession w).filter fun x => s.bar.owner = some x else none

/-- The body of a READ or WRITE (R398). -/
def accessBody (w off n : Nat) (data : List Byte) : List Byte := beBytes 1 w ++ beBytes 1 0 ++ beBytes 2 n ++ beBytes 8 off ++ data

/-- Send a device request in a session and keep it until it is answered: READ (1) or WRITE (2). -/
def State.deviceRequest (s : State) (n kind w off len : Nat) (data : List Byte) (why : ReqFor) : State :=
  match s.session? n with
  | none => s
  | some x =>
    let b := accessBody w off len data
    let f := barFrame x.version kind n x.nextSeq 0 s.epoch b
    (s.updSession n fun x => { x with nextSeq := x.nextSeq + 1, reqs := x.reqs ++ [{ seq := x.nextSeq, kind := kind, body := b, sends := 1, at_ := s.refNs, why := why, win := w }] }).sendBarrow x.port x.addr f

/-- Send a device READ whose answer comes with the same command: it uses its SEQ and is not kept. -/
def State.readNow (s : State) (n w off len : Nat) : State :=
  match s.session? n with
  | none => s
  | some x =>
    (s.updSession n fun x => { x with nextSeq := x.nextSeq + 1 }).sendBarrow x.port x.addr (barFrame x.version 1 n x.nextSeq 0 s.epoch (accessBody w off len []))

/-- Cut n bytes at off into parts of at most m bytes: (offset, length) of each. [DESIGN CHOICE, log entry 59] -/
def cutParts (m off n : Nat) : List (Nat × Nat) := (List.range (ceilDiv n m)).map fun i => (off + i * m, min m (n - i * m))

/-- A session may send k more requests (R399). -/
def State.roomFor (s : State) (n k : Nat) : Bool := match s.session? n with | some x => x.reqs.length + k ≤ 64 | none => false

/-! ### Rings as Barrow sees them -/

/-- A ring beside its registers. -/
def State.ring (s : State) (n : Nat) : Ring := s.cmd.rings.getD n {}

/-- Change a ring. -/
def State.updRing (s : State) (n : Nat) (f : Ring → Ring) : State := { s with cmd := { s.cmd with rings := updAt f n s.cmd.rings } }

/-- Answer every doorbell of a ring that waits with NACK RING_REFUSED (R273, R275). [DESIGN CHOICE, log entry 54] -/
def State.refuseDoors (s : State) (n : Nat) : State :=
  let s := (s.ring n).doors.foldl (fun s d => s.answer d.session d.seq 5 (nackBody 3 0 n)) s
  s.updRing n fun r => { r with doors := [] }

/-- Stop fetching on a ring: reads that are under way accept nothing, waiting doorbells are refused. [DESIGN CHOICE, log entry 54] -/
def State.stopFetch (s : State) (n : Nat) : State :=
  let s := s.refuseDoors n
  s.updRing n fun r => { r with fetch := match r.fetch with | .journalling e st => .journalling e st | _ => .idle }

/-- The ring of a job, if one queued it. -/
def Job.ring? (j : Job) : Option Nat := match j.src with | .ring n _ => some n | .node .. => none

/-- The completion writes of a ring are abandoned: its record will be published again in full (R403). -/
def State.abandonWrites (s : State) (n : Nat) : State :=
  let s := s.updBar fun b => { b with slots := b.slots.map fun o => o.map fun x => { x with reqs := x.reqs.filter fun r => r.why != .completion n } }
  { s with cmd := { s.cmd with jobs := s.cmd.jobs.map fun j => if j.ring? = some n ∧ j.phase = .publishing then { j with phase := .completed, pubStep := 0 } else j } }

/-- The rings whose completion writes are outstanding among some requests. -/
def ringsOf (l : List Req) : List Nat := (l.filterMap fun r => match r.why with | .completion n => some n | _ => none).eraseDups

/-- The rings whose entry reads are outstanding among some requests. -/
def fetchesOf (l : List Req) : List Nat := (l.filterMap fun r => match r.why with | .entry n => some n | _ => none).eraseDups

/-- Unbind a window: its outstanding writes are abandoned; reads through it are refused (R402, R403, R275). -/
def State.unbind (s : State) (w : Nat) : State :=
  let lost := (s.sessions.flatMap (·.reqs)).filter (·.win == w)
  let s := (s.setBit (Reg.BAR_WIN w) 31 false).setFld (Reg.BAR_WIN w) 15 0 0
  let s := (ringsOf lost).foldl (fun s n => s.abandonWrites n) s
  let s := s.updBar fun b => { b with slots := b.slots.map fun o => o.map fun x => { x with reqs := x.reqs.filter fun r => r.win != w } }
  (fetchesOf lost).foldl (fun s n => s.stopFetch n) s

/-! ### Ownership -/

/-- A candidate or owner whose lease runs. -/
def Session.live (now : Nat) (x : Session) : Bool := x.claim.any fun c => now < c.due

/-- The first live candidate: lowest PRIORITY, then lowest session number (R406). -/
def State.firstCandidate (s : State) : Option Nat :=
  ((s.sessions.filter (·.live s.refNs)).foldl (fun (b : Option (Nat × Nat)) x =>
    let p := (x.claim.elim 0 (·.prio))
    match b with
    | none => some (p, x.num)
    | some (q, n) => if p < q ∨ (p = q ∧ x.num < n) then some (p, x.num) else b) none).map (·.2)

/-- A change of owner (R409, R410): the generation rises, every ring's ENABLE clears, completion writes in flight are abandoned. -/
def State.setOwner (s : State) (o : Option Nat) : State :=
  let s := (s.updBar fun b => { b with owner := o, elect := none }).inc Reg.BAR_OWNER_GEN 1
  (List.range 64).foldl (fun s n => ((s.setBit (Reg.CMD_RING_CTRL n) 31 false).stopFetch n).abandonWrites n) s

/-- Ownership has ended: the first live candidate becomes owner at once, or the device has none (R406). -/
def State.passOwner (s : State) : State := s.setOwner s.firstCandidate

/-- Report that ownership ended by lease or session end (R411). -/
def State.ownerLost (s : State) (x : Session) : State :=
  s.report (0x140 + x.port) Kind.OWNER_LOST x.stall (x.num + s.ownerGen % 2 ^ 24 * 2 ^ 16)

/-- End a session (R399): its windows unbound, its claim withdrawn, its ownership ended; the device reports it. -/
def State.endSession (s : State) (n : Nat) : State :=
  match s.session? n with
  | none => s
  | some x =>
    let s := s.report (0x140 + x.port) Kind.SESSION_LOST x.stall n
    let s := (List.range 256).foldl (fun s w => if s.winSession w = some n then s.unbind w else s) s
    let s := (ringsOf x.reqs).foldl (fun s r => s.abandonWrites r) s
    let s := (fetchesOf x.reqs).foldl (fun s r => s.stopFetch r) s
    let s := s.updBar fun b => { b with slots := b.slots.map fun o => o.filter (·.num != n) }
    let s : State := { s with cmd := { s.cmd with rings := s.cmd.rings.map fun r => { r with doors := r.doors.filter (·.session != n) } } }
    if s.bar.owner = some n then (s.passOwner).ownerLost x else s

/-- SESSION_IDLE_TIMEOUT (R399). -/
def execSessionIdleTimeout (session : BitVec 16) (s : State) : Host.Outcome State Fault Refusal :=
  .next (match s.session? session.toNat with
    | some x => if x.last + s.fld Reg.BAR_IDLE 15 0 * 1000000 ≤ s.refNs then s.endSession x.num else s
    | none => s)

/-- BARROW_RETRANSMIT (R399): go-back-N, or the end of the session after RETRY_MAX resendings. -/
def execBarrowRetransmit (session : BitVec 16) (s : State) : Host.Outcome State Fault Refusal :=
  .next (match s.session? session.toNat with
    | none => s
    | some x =>
      match x.reqs with
      | [] => s
      | r :: _ =>
        if s.refNs < r.at_ + s.fld Reg.BAR_RTO 15 0 * 1000 then s
        else if x.reqs.any fun q => s.fld Reg.BAR_RTO 19 16 < q.sends then s.endSession x.num
        else
          let s := x.reqs.foldl (fun s q => s.sendBarrow x.port x.addr (barFrame x.version q.kind x.num q.seq 0 s.epoch q.body)) s
          s.updSession x.num fun x => { x with retx := satAdd 16 x.retx x.reqs.length, reqs := x.reqs.map fun q => { q with sends := q.sends + 1, at_ := s.refNs } })

/-- Renew a session's lease (R407). -/
def State.renew (s : State) (n : Nat) : State :=
  s.updSession n fun x => { x with claim := x.claim.map fun c => { c with due := s.refNs + c.lease * 1000000 } }

/-- HEARTBEAT (R407): renews the lease and returns session state. -/
def execHeartbeat (session : BitVec 16) (seq : Word) (_body : List Byte) (s : State) : Host.Outcome State Fault Refusal :=
  .next (s.request session.toNat seq.toNat fun x s =>
    let s := s.renew x.num
    (s, some (4, s.sessionState x.num)))

/-- CLAIM (R406): a candidate, or a new priority and lease; with no owner and no election running, an election window starts. -/
def execClaim (session : BitVec 16) (seq : Word) (body : List Byte) (s : State) : Host.Outcome State Fault Refusal :=
  .next (s.request session.toNat seq.toNat fun x s =>
    let prio := be body 0 1
    let lease := be body 2 2
    let h := Reg.BAR_HOST x.host
    if body.length < 4 then (s, nack 6 body.length)
    else match badReserved body [1] with
      | some i => (s, nack 6 i)
      | none =>
        if lease < 10 ∨ 1000 < lease then (s, nack 6 2)
        else if !s.bit h 29 || prio < s.fld h 23 16 then (s, nack 5 0)
        else
          let s := s.updSession x.num fun x => { x with claim := some ⟨prio, lease, s.refNs + lease * 1000000⟩ }
          let s := if s.bar.owner = none ∧ s.bar.elect = none then
              s.updBar fun b => { b with elect := some (s.refNs + s.fld Reg.BAR_ELECT 9 0 * 1000000) } else s
          (s, some (4, s.sessionState x.num)))

/-- ELECTION_WINDOW_END (R406): the first candidate becomes owner. -/
def execElectionWindowEnd (s : State) : Host.Outcome State Fault Refusal :=
  .next (match s.bar.elect with
    | some d =>
      if d ≤ s.refNs then
        match s.firstCandidate with
        | some n => s.setOwner (some n)
        | none => s.updBar fun b => { b with elect := none }
      else s
    | none => s)

/-- CLAIM_LEASE_EXPIRE (R407): the claim is withdrawn, or ownership ends. -/
def execClaimLeaseExpire (session : BitVec 16) (s : State) : Host.Outcome State Fault Refusal :=
  .next (match s.session? session.toNat with
    | some x =>
      match x.claim with
      | some c =>
        if c.due ≤ s.refNs then
          let s := s.updSession x.num fun x => { x with claim := none }
          if s.bar.owner = some x.num then (s.passOwner).ownerLost x else s
        else s
      | none => s
    | none => s)

/-- RELEASE (R408). -/
def execRelease (session : BitVec 16) (seq : Word) (body : List Byte) (s : State) : Host.Outcome State Fault Refusal :=
  .next (s.request session.toNat seq.toNat fun x s =>
    let succ := be body 0 2
    let drop := fun (s : State) => s.updSession x.num fun x => { x with claim := none }
    let ack := fun (s : State) => (s, (some (4, s.sessionState x.num) : Answer))
    if body.length < 2 then (s, nack 6 body.length)
    else if s.bar.owner = some x.num then
      if succ = 0 then ack (drop s).passOwner
      else if succ ≠ x.num ∧ (s.session? succ).any (·.live s.refNs) then ack ((drop s).setOwner (some succ))
      else (s, nack 10 succ)
    else if x.claim.isSome then ack (drop s)
    else if succ = 0 then ack s
    else (s, nack 2 s.ownerGen))

/-- HOST_READ_WRITE (R397): a READ or WRITE from a host is a request of its stream, refused. -/
def execHostReadWrite (session : BitVec 16) (seq : Word) (_body : List Byte) (s : State) : Host.Outcome State Fault Refusal :=
  .next (s.request session.toNat seq.toNat fun _ s => (s, nack 6 0))

/-! ### Opening -/

/-- The valid BAR_HOST entry that holds an address on a port (R401); entry 0 may take any on the management port (R476). -/
def State.hostEntry (s : State) (p : Nat) (a : HostAddr) : Option Nat :=
  (List.range 8).find? fun k =>
    s.bit (Reg.BAR_HOST k) 31 && if k == 0 && s.bar.anyHost then p == 2 else s.bit (Reg.BAR_HOST k) 30 == a.ipv6
    && s.rdN (Reg.BAR_HOST_ADDR k) 4 % (if a.ipv6 then 2 ^ 128 else 2 ^ 32) == a.addr.toNat

/-- The next session number: upward, skipping 0 and numbers in use (R400). [DEDUCED, log entry 67] -/
def State.freeNum (s : State) : Nat → Nat → Nat
  | 0, n => n
  | fuel + 1, n =>
    let n := if n = 0 ∨ 65535 < n then 1 else n
    if (s.session? n).isSome then s.freeNum fuel (n + 1) else n

/-- The answer to an open request that opened or repeats a session (R398, R400). -/
def State.openAnswer (s : State) (x : Session) : List Byte :=
  barFrame x.version 4 x.num 0 0 s.epoch
    (beBytes 1 x.version ++ beBytes 1 0 ++ beBytes 2 x.num ++ beBytes 2 x.maxData ++ beBytes 2 0 ++ beBytes 8 x.nonce ++ beBytes 4 (s.rd Reg.SEC_DEVICE_ID).toNat)

/-- BARROW_OPEN (R400, R401): an open request is answered with a session, or refused. -/
def execBarrowOpen (port : PortId) (src : HostAddr) (body : List Byte) (s : State) : Host.Outcome State Fault Refusal :=
  .next (
    let p := port.val
    let lo := s.fld Reg.BAR_VERSION 7 0
    let hi := s.fld Reg.BAR_VERSION 15 8
    let no := fun (reason detail : Nat) => s.sendBarrow p src (barFrame hi 5 0 0 0 s.epoch (nackBody reason 0 detail))
    let maxData := be body 4 2
    let stall := be body 2 1 % 16
    let v := min (be body 1 1) hi
    if body.length < 16 then no 6 body.length
    else if 16 ≤ be body 2 1 then no 6 2
    else match badReserved body [3] with
      | some i => no 6 i
      | none =>
        if maxData < 256 ∨ 8192 < maxData ∨ maxData % 64 ≠ 0 then no 6 4
        else match badReserved body [6, 7] with
          | some i => no 6 i
          | none =>
            match s.sessions.find? fun x => x.addr == src && x.nonce == be body 8 8 with
            | some x => s.sendBarrow p src (s.openAnswer x)
            | none =>
              match s.hostEntry p src with
              | none => no 9 0
              | some h =>
                if !(s.bit (Reg.BAR_HOST h) stall) || (p == 2 && !s.bit (Reg.BAR_HOST h) 28) then no 5 0
                else if v < max (be body 0 1) lo then no 1 (lo * 256 + hi)
                else match s.bar.slots.findIdx? (·.isNone) with
                  | none => no 7 0
                  | some k =>
                    let n := s.freeNum 9 s.bar.nextNum
                    let x : Session := { num := n, version := v, port := p, host := h, addr := src, stall := stall, maxData := min maxData (if p = 2 then 1024 else 8192), nonce := be body 8 8, last := s.refNs }
                    let s := s.updBar fun b => { b with slots := b.slots.set k (some x), nextNum := n + 1 }
                    s.sendBarrow p src (s.openAnswer x))

/-! ### Barrow's registers as they read (R413) -/

/-- BAR_OWNER as it reads. -/
def State.readBarOwner (s : State) : Word := BitVec.ofNat 32 (b2n s.bar.owner.isSome * 2 ^ 31 + s.ownerNum)

/-- BAR_SESSk as it reads. -/
def State.readBarSess (s : State) (k : Nat) : Word :=
  match s.bar.slots.getD k none with
  | some x => BitVec.ofNat 32 (2 ^ 31 + s.role x * 2 ^ 28 + x.port * 2 ^ 24 + x.version * 2 ^ 16 + x.num)
  | none => 0

/-- BAR_SESS_INFOk as it reads. -/
def State.readBarInfo (s : State) (k : Nat) : Word :=
  match s.bar.slots.getD k none with
  | some x => BitVec.ofNat 32 (x.stall * 2 ^ 24 + x.host * 2 ^ 16 + x.claim.elim 0 (·.prio) * 2 ^ 8)
  | none => 0

/-- BAR_SESS_STATSk as it reads. -/
def State.readBarStats (s : State) (k : Nat) : Word :=
  match s.bar.slots.getD k none with
  | some x => BitVec.ofNat 32 (x.retx * 2 ^ 16 + x.dup)
  | none => 0

end Sys2Proof.Machine
end

