-- ==== Sys2Proof/Machine/Time.lean ====
section
/-!
DEFINITION. The time unit (R364 to R384): the counter and its steps, SYNCED and its lease, capture FIFOs, trigger
pulses, PPS, and the exchanges over Bilvan links.
-/
namespace Sys2Proof.Machine

/-- One ns in the counter's units (R364). -/
def nsUnit : Nat := 2 ^ 32

/-- Change the time unit. -/
def State.updTim (s : State) (f : TimeUnit → TimeUnit) : State := { s with tim := f s.tim }

/-! ### The counter -/

/-- The Address field of TIME_STEPPED: sign, and magnitude in ns, saturating (R383). -/
def stepAddr (d : Int) : Nat := b2n (d < 0) * 2 ^ 39 + min (d.natAbs / nsUnit) (2 ^ 39 - 1)

/-- One tick of the time reference (R364, R367): the increment, then a requested step, refused where the result would be negative or set bit 63 of NS. The counter stays where an increment would set that bit (R366). [DESIGN CHOICE, log entries 93, 112] -/
def State.timTick (s : State) : State :=
  if s.tim.on then
    let req := s.tim.stepReq
    let n := if s.tim.now + s.tim.incr < 2 ^ 63 * nsUnit then s.tim.now + s.tim.incr else s.tim.now
    let s := s.updTim fun t => { t with prev := t.now, now := n, added := t.incr, stepped := false, stepReq := none }
    match req with
    | none => s
    | some d =>
      let r := (n : Int) + d
      if r < 0 ∨ (2 ^ 63 * nsUnit : Nat) ≤ r then s.setBit Reg.TIM_STATUS 30 true
      else
        let s := s.updTim fun t => { t with now := r.toNat, stepped := true, stepAt := some s.refNs }
        let s := s.setFld Reg.TIM_STATUS 15 0 (s.stepGen + 1)
        s.report 0x160 Kind.TIME_STEPPED 0 (stepAddr d)
  else s

/-- A tick of 8 ns of reference time: what passes while no command waits. [DESIGN CHOICE, log entries 2, 11, 15] -/
def State.idleTick (s : State) : State := ({ s with refNs := s.refNs + 8 } : State).timTick

/-- TIM_STEP_APPLY (R367): the next tick, when a step was requested. [DESIGN CHOICE, log entry 93] -/
def execTimStepApply (s : State) : Host.Outcome State Fault Refusal :=
  .next (if s.tim.stepReq.isSome then s.idleTick else s)

/-- What a write of TIM_INCREMENT_NS does: a commit of both parts, ignored outside 7 and 8 (R365). The value stored for an ignored commit is the old one. -/
def State.afterIncrement (old s : State) : State :=
  let n := s.fld Reg.TIM_INCREMENT_NS 7 0
  if n = 7 ∨ n = 8 then s.updTim fun t => { t with incr := n * nsUnit + (s.rd Reg.TIM_INCREMENT_FRAC).toNat }
  else s.setFld Reg.TIM_INCREMENT_NS 7 0 (old.fld Reg.TIM_INCREMENT_NS 7 0)

/-- TIM_OFFSET as a signed number of counter units (R367). -/
def State.timOffset (s : State) : Int := signed 96 (s.rdN Reg.TIM_OFFSET 3)

/-- What a write of TIM_CTRL does (R367, R370): a step request, joined to one not yet applied; DECLARE; UNDECLARE, which prevails. -/
def State.afterTimCtrl (v : Word) (s : State) : State :=
  let s := if v.getLsbD 31 then
      s.updTim fun t => { t with stepReq := some (t.stepReq.getD 0 + s.timOffset) }
    else s
  if v.getLsbD 29 then (s.setBit Reg.TIM_STATUS 31 false).updTim fun t => { t with leaseDue := none }
  else if v.getLsbD 30 then
    let ms := s.fld Reg.TIM_CTRL 15 0
    (s.setBit Reg.TIM_STATUS 31 true).updTim fun t => { t with leaseDue := if ms = 0 then none else some (s.refNs + ms * 1000000) }
  else s

/-- SYNC_LEASE_EXPIRE (R370): the lease has run out, and its last tick is past: a DECLARE of that tick prevails. [DESIGN CHOICE, log entry 112] -/
def execSyncLeaseExpire (s : State) : Host.Outcome State Fault Refusal :=
  .next (match s.tim.leaseDue with
    | some d =>
      if d < s.refNs then
        (((s.setBit Reg.TIM_STATUS 31 false).setBit Reg.TIM_STATUS 29 true).updTim fun t => { t with leaseDue := none }).report 0x160 Kind.TIME_SYNC_LOST 0 0
      else s
    | none => s)

/-! ### Capture -/

/-- A capture record (R373): TIME and SYNCED, the identifying word but for its reserved bit, STEP_GEN and VALID. -/
def State.captureRecord (s : State) (time ident : Nat) : BitVec 128 :=
  BitVec.ofNat 128 (time % 2 ^ 63 + b2n s.synced * 2 ^ 63 + ident % 2 ^ 31 * 2 ^ 64 + s.stepGen * 2 ^ 96 + 2 ^ 127)

/-- Put a record in a FIFO of a size, or count it as dropped in its OVERFLOW register (R374). -/
def pushFifo (size : Nat) (r : BitVec 128) (l : List (BitVec 128)) : Option (List (BitVec 128)) :=
  if l.length < size then some (l ++ [r]) else none

/-- Capture into the FIFO of TS_IN pin n. -/
def State.pushTsin (s : State) (n : Nat) (r : BitVec 128) : State :=
  match pushFifo 8 r (s.tim.tsin.getD n []) with
  | some l => s.updTim fun t => { t with tsin := t.tsin.set n l }
  | none => s.sat (Reg.TIM_TSIN_OVF n) 31 0 1

/-- Capture into the event FIFO of Ethernet port p. -/
def State.pushPtp (s : State) (p : Nat) (r : BitVec 128) : State :=
  match pushFifo 32 r (s.tim.ptp.getD p []) with
  | some l => s.updTim fun t => { t with ptp := t.ptp.set p l }
  | none => s.sat (Reg.TIM_PTP_OVF p) 31 0 1

/-- TS_IN_EDGE (R372, R374): an enabled edge records the counter less 3 ticks. -/
def execTsInEdge (pin : Fin 4) (rising : Bool) (s : State) : Host.Outcome State Fault Refusal :=
  .next (
    let c := Reg.TIM_TSIN_CTRL pin
    if s.tim.on && s.bit c 31 && s.bit c (if rising then 0 else 1) then
      s.pushTsin pin (s.captureRecord (s.capture 3 0) (b2n rising * 2 ^ 28 + pin.val * 2 ^ 29))
    else s)

/-- Read word 0 of a FIFO's record register: the oldest record leaves, its other words are latched (R8, R374). -/
def State.popRecord (s : State) (ptp : Bool) (n : Nat) : Word × State :=
  let l := if ptp then s.tim.ptp.getD n [] else s.tim.tsin.getD n []
  let r := l.headD 0#128
  let off := if ptp then Reg.TIM_PTP_REC n else Reg.TIM_TSIN_REC n
  let s := { s with latch := (off, [r.extractLsb' 32 32, r.extractLsb' 64 32, r.extractLsb' 96 32]) :: s.latch.filter (fun e => e.1 != off) }
  (r.extractLsb' 0 32,
   if ptp then s.updTim fun t => { t with ptp := updAt List.tail n t.ptp } else s.updTim fun t => { t with tsin := updAt List.tail n t.tsin })

/-! ### Actions at a time -/

/-- Whether an action with target T and output advance A, in ns, is due (R376). -/
def State.actionDue (s : State) (target advance : Nat) : Bool := s.tim.on && target * nsUnit ≤ s.tim.now + advance * nsUnit

/-- How far, in counter units, the counter has passed a due action's time (R376). -/
def State.actionPast (s : State) (target advance : Nat) : Nat := s.tim.now + advance * nsUnit - target * nsUnit

/-- An action is late: the counter exceeds its time by more than the increment in force (R376). -/
def State.actionLate (s : State) (target advance : Nat) : Bool := s.tim.added < s.actionPast target advance

/-- A late edge of TRIG_OUT pin n is counted and reported (R376, R383). -/
def State.trigLate (s : State) (n target : Nat) : State :=
  if s.actionLate target 16 then
    (s.sat (Reg.TIM_TRIG_LATE n) 31 0 1).report 0x160 Kind.TIME_ACTION_LATE 0
      (n + min (s.actionPast target 16 / nsUnit) (2 ^ 32 - 1) * 2 ^ 8)
  else s

/-- A TRIG_OUT pin. -/
def State.trig (s : State) (n : Nat) : Trig := s.tim.trig.getD n {}

/-- Change a TRIG_OUT pin. -/
def State.updTrig (s : State) (n : Nat) (f : Trig → Trig) : State := s.updTim fun t => { t with trig := updAt f n t.trig }

/-- Whether pulse k belongs to the schedule of pin n (R377). -/
def State.trigHas (s : State) (n k : Nat) : Bool :=
  if s.rd (Reg.TIM_TRIG_PERIOD n) = 0#32 then k == 0
  else
    let c := (s.rd (Reg.TIM_TRIG_COUNT n)).toNat
    c == 0 || k < c

/-- Target of the active edge of pulse k of pin n (R377). -/
def State.trigTarget (s : State) (n k : Nat) : Nat := s.rd64 (Reg.TIM_TRIG_START n) + k * (s.rd (Reg.TIM_TRIG_PERIOD n)).toNat

/-- What a write of TIM_TRIG_CTRL does (R377): arming with its checks, disarming, and a polarity that only an unarmed pin takes. -/
def State.afterTrigCtrl (n : Nat) (v : Word) (old s : State) : State :=
  let c := Reg.TIM_TRIG_CTRL n
  let w := old.rd (Reg.TIM_TRIG_WIDTH n)
  let p := old.rd (Reg.TIM_TRIG_PERIOD n)
  if old.bit c 31 then
    let s := s.wr c (old.rd c)
    if v.getLsbD 31 then s
    else (s.setBit c 31 false).updTrig n fun t => { t with completing := t.active }
  else if v.getLsbD 31 then
    if w = 0#32 ∨ (p ≠ 0#32 ∧ p ≤ w) then s.setBit c 31 false
    else s.updTrig n fun t => { t with next := 0 }
  else s

/-- TRIG_OUT_ACTIVE_EDGE (R377): the next pulse of an armed pin becomes active. -/
def execTrigOutActiveEdge (pin : Fin 8) (s : State) : Host.Outcome State Fault Refusal :=
  .next (
    let t := s.trig pin
    let target := s.trigTarget pin t.next
    if s.bit (Reg.TIM_TRIG_CTRL pin) 31 && !t.active && s.trigHas pin t.next && s.actionDue target 16 then
      let s := s.trigLate pin target
      let s := s.updTrig pin fun t => { t with active := true, next := t.next + 1, off := target + (s.rd (Reg.TIM_TRIG_WIDTH pin)).toNat }
      s.wr64 (Reg.TIM_TRIG_LAST pin) (target % 2 ^ 63 + b2n s.synced * 2 ^ 63)
    else s)

/-- TRIG_OUT_INACTIVE_EDGE (R377): the active pulse ends; after the last of the schedule ARM reads 0. -/
def execTrigOutInactiveEdge (pin : Fin 8) (s : State) : Host.Outcome State Fault Refusal :=
  .next (
    let t := s.trig pin
    if t.active && s.actionDue t.off 16 then
      let s := (s.trigLate pin t.off).updTrig pin fun t => { t with active := false, completing := false }
      if !t.completing && !s.trigHas pin t.next then s.setBit (Reg.TIM_TRIG_CTRL pin) 31 false else s
    else s)

/-- What a write of TIM_PPS_CTRL does (R378, R384): ENABLE = 1 clears the record of the last second; a width outside 1 to 999 keeps the old one. -/
def State.afterPpsCtrl (v : Word) (old s : State) : State :=
  let w := s.fld Reg.TIM_PPS_CTRL 9 0
  let s := if 1 ≤ w ∧ w ≤ 999 then s else s.setFld Reg.TIM_PPS_CTRL 9 0 (old.fld Reg.TIM_PPS_CTRL 9 0)
  if v.getLsbD 31 then s.updTim fun t => { t with ppsLast := none } else s

/-- PPS_PULSE (R378): the last tick's increment reached a whole second, less two ticks, that is later than the last one pulsed. -/
def execPpsPulse (s : State) : Host.Outcome State Fault Refusal :=
  .next (
    let k := (s.tim.now + 16 * nsUnit) / (1000000000 * nsUnit)
    let later := match s.tim.ppsLast with
      | none => true
      | some l => decide (l < k)
    if s.tim.on && s.bit Reg.TIM_PPS_CTRL 31 && !s.tim.stepped && (s.tim.prev + 16 * nsUnit) / (1000000000 * nsUnit) < k && later
        && (!s.bit Reg.TIM_PPS_CTRL 30 || s.synced) then
      s.updTim fun t => { t with ppsLast := some k, ppsEnd := some (s.refNs + s.fld Reg.TIM_PPS_CTRL 9 0 * 1000000) }
    else s)

/-- PPS_PULSE_END (R378): WIDTH_MS of reference time after the pulse. -/
def execPpsPulseEnd (s : State) : Host.Outcome State Fault Refusal :=
  .next (match s.tim.ppsEnd with
    | some d => if d ≤ s.refNs then s.updTim fun t => { t with ppsEnd := none } else s
    | none => s)

/-! ### Time across Bilvan links -/

/-- A Bilvan port's link is up. -/
def State.bilUp (s : State) (p : Nat) : Bool := s.bit (Reg.BIL_PORT_CTRL p) 30

/-- Change a Bilvan port's exchanges. -/
def State.updBilTime (s : State) (p : Nat) (f : BilTime → BilTime) : State := s.updTim fun t => { t with bil := updAt f p t.bil }

/-- VALID goes to 0 and the port reports BIL_TIME_FAULT (R382). -/
def State.bilTimeFault (s : State) (p : Nat) : State :=
  ((s.setBit (Reg.TIM_BIL_STATUS p) 31 false).updBilTime p fun b => { b with delays := [], offsets := [], lastDelay := none, lastAt := s.refNs }).report
    0x160 Kind.BIL_TIME_FAULT 0 p

/-- The counter interpolated to a ns, some ns of reference time after the last tick, in 1/256 ns (R381): the increment is spread evenly over a tick's 8 ns. [DESIGN CHOICE, log entry 112] -/
def State.stampAt (s : State) (ns : Int) : Int := ((s.tim.now : Int) + ns * s.tim.incr / 8) / 2 ^ 24

/-- The port's next exchange is due: 1 ms since it sent the message of the last one (R381). -/
def State.exchangeDue (s : State) (p : Nat) (sent : Int) : Bool :=
  match (s.tim.bil.getD p {}).sentAt with
  | some a => decide ((a : Int) + 1000000 ≤ sent)
  | none => true

/-- A step has been applied to the counter since a moment (R381). -/
def State.steppedSince (s : State) (at_ : Int) : Bool := s.tim.stepAt.any fun a => decide (at_ ≤ (a : Int))

/-- BIL_TIME_EXCHANGE (R381, R382): the port's own two stamps come from its counter; a clean exchange joins the last 16, from which the port computes its two values. [DESIGN CHOICE, log entries 20, 112] -/
def execBilTimeExchange (port : PortId) (flight : Nat) (phase : Fin 8) (t2 t3 : BitVec 72) (stepped : Bool) (s : State) : Host.Outcome State Fault Refusal :=
  .next (
    let sent := (s.refNs : Int) + phase.val - flight
    if !s.bilUp port ∨ !s.exchangeDue port sent then s
    else
      let t1 := s.stampAt ((phase.val : Int) - flight)
      let t4 := s.stampAt phase.val
      let s := (s.updBilTime port fun b => { b with lastAt := s.refNs, sentAt := some sent.toNat }).emit (.timeMsg port.val t1)
      if stepped ∨ s.steppedSince sent then s
      else
        let i := fun (x : BitVec 72) => (x.toNat : Int)
        let delay := ((t4 - t1) - (i t3 - i t2)) / 2
        let offset := ((i t2 - t1) + (i t3 - t4)) / 2
        let b := s.tim.bil.getD port {}
        let ds := (b.delays ++ [delay]).drop (b.delays.length - 15)
        let os := (b.offsets ++ [offset]).drop (b.offsets.length - 15)
        if ds.length < 16 then s.updBilTime port fun b => { b with delays := ds, offsets := os }
        else
          let d := Config.bilWindow ds
          let far := match b.lastDelay with
            | some l => decide (16 * 256 < (d - l).natAbs)
            | none => false
          if far then s.bilTimeFault port
          else
            let s := s.updBilTime port fun b => { b with delays := ds, offsets := os, lastDelay := some d }
            let s := s.setBit (Reg.TIM_BIL_STATUS port) 31 true
            let s := s.wr (Reg.TIM_BIL_DELAY port) (BitVec.ofInt 32 d)
            s.wr64 (Reg.TIM_BIL_OFFSET port) (unsigned 64 (Config.bilWindow os)))

/-- BIL_TIME_TIMEOUT (R382): no exchange for 16 ms. -/
def execBilTimeTimeout (port : PortId) (s : State) : Host.Outcome State Fault Refusal :=
  .next (if (s.bilUp port ∨ s.bit (Reg.TIM_BIL_STATUS port) 31) ∧ (s.tim.bil.getD port {}).lastAt + 16000000 ≤ s.refNs then s.bilTimeFault port else s)

end Sys2Proof.Machine
end

