-- ==== Sys2Proof/Machine/Bilvan.lean ====
section
/-!
DEFINITION. Bilvan links (R521 to R539): training, packets and their resending, remote writes and signals, forwarded fault
records; and the local signals (R283, R284).
-/
namespace Sys2Proof.Machine

/-! ### Signals (R284) -/

/-- Raise a signal of this device: signal := max(signal, value) (R283). -/
def State.raiseSignal (s : State) (n v : Nat) : State := s.wr64 (Reg.CMD_SIG n) (max (s.rd64 (Reg.CMD_SIG n)) v)

/-- A SIGNAL refused (R284, R532): the scheduler core's record; absent is the target that is not there, or whose link is down. -/
def State.signalRefused (s : State) (stall sig dev : Nat) (absent : Bool) : State :=
  s.report 0x100 Kind.SIGNAL_REFUSED stall (sig + dev * 2 ^ 8 + b2n absent * 2 ^ 10)

/-! ### Ports -/

/-- A Bilvan port beside its registers. -/
def State.bilPort (s : State) (p : Nat) : BilPort := s.bil.getD p {}

/-- Change a Bilvan port. -/
def State.updBil (s : State) (p : Nat) (f : BilPort → BilPort) : State := { s with bil := updAt f p s.bil }

/-- The message is a deadline stall's: it goes before a best-effort stall's (R533). [DEDUCED, log entry 86] -/
def State.urgent (s : State) (m : BilMsg) : Bool :=
  match m with
  | .write st _ _ _ => s.deadlineStall st.val
  | .signal st _ _ => s.deadlineStall st.val
  | _ => true

/-- Take the next message of a queue: the first of a deadline stall, else the first. [DEDUCED, log entry 86] -/
def State.nextBil (s : State) (q : List BilPend) : Option (BilPend × List BilPend) :=
  match q.find? (fun b => s.urgent b.msg) with
  | some b => some (b, q.erase b)
  | none => match q with
    | [] => none
    | b :: t => some (b, t)

/-- Send waiting messages while fewer than 256 packets are unacknowledged (R524); fuel bounds how many. [DEDUCED, log entry 86] -/
def State.pumpBil (p : Nat) : Nat → State → State
  | 0, s => s
  | fuel + 1, s =>
    let b := s.bilPort p
    if !s.bilUp p || 256 ≤ b.sent.length then s
    else match s.nextBil b.queue with
      | none => s
      | some (m, q) =>
        let s := s.updBil p fun b => { b with queue := q, sent := b.sent ++ [{ seq := b.nextSeq, what := m, sends := 1 }], nextSeq := (b.nextSeq + 1) % 4096 }
        State.pumpBil p fuel (s.emit (.link p (.msg (BitVec.ofNat 12 b.nextSeq) m.msg)))

/-- Send whatever a port may. -/
def State.pump (s : State) (p : Nat) : State := State.pumpBil p (s.bilPort p).queue.length s

/-- Send a message on a port. -/
def State.bilSend (s : State) (p : Nat) (m : BilMsg) (owner : Option (Nat × Nat)) : State :=
  (s.updBil p fun b => { b with queue := b.queue ++ [{ msg := m, owner := owner }] }).pump p

/-- Send one line of a write into device e's window on port p; its data counts in BIL_TX_BYTES. [DESIGN CHOICE, log entry 35] -/
def State.bilWrite (s : State) (p stall a : Nat) (b : List Byte) (owner : Option (Nat × Nat)) : State :=
  (s.sat64 (Reg.BIL_TX_BYTES p) b.length).bilSend p (.write (Fin.ofNat 16 stall) (Fin.ofNat 4 s.board.devnum) (BitVec.ofNat 36 (a % 2 ^ 36)) b) owner

/-- The response to a message that a command waits for (R530, R532): an ERROR ends it with FIREWALL; after its last payload write a MOVE writes its selvage; after its last write it has succeeded. down: the link failed before the response. -/
def State.remoteDone (s : State) (id i : Nat) (ok down : Bool) : State :=
  match s.job? id with
  | none => s
  | some j =>
    match j.cmd? i with
    | none => s
    | some c =>
      if c.stage ≠ .running ∨ (opcodeOf c.desc ≠ 0x0A ∧ opcodeOf c.desc ≠ 0x11) then s
      else if !ok then
        let s := if down ∧ opcodeOf c.desc = 0x11 then s.signalRefused j.stall (le c.desc 17 1) (bits (le c.desc 16 1) 1 0) true else s
        s.finishCmd id i St.FIREWALL
      else if 1 < c.progress then s.updCmd id i fun c => { c with progress := c.progress - 1 }
      else
        let m := moveD c.desc
        if opcodeOf c.desc = 0x0A ∧ m.selvage ≠ 0 ∧ c.aux = 0 then
          let a := selvageAt m.dst m.dstExtent
          match s.portTo ((a - 0x8000000000) / 0x1000000000) with
          | some p =>
            (s.updCmd id i fun c => { c with aux := 1, progress := 1 }).bilWrite p j.stall a
              (selvageBytes c.prov j.stall m.dstExtent c.target) (some (id, i))
          | none => s.finishCmd id i St.FIREWALL
        else s.finishCmd id i (successStatus c.own)

/-! ### Down and up -/

/-- The link goes down (R528, R539): held transactions get ERROR, the port's fields return to their reset values but for ENABLE and the counters, the port reports it. -/
def State.linkDown (s : State) (p : Nat) : State :=
  if !s.bilUp p then s.updBil p fun b => { b with training := false, retryAt := none }
  else
    let b := s.bilPort p
    let held := b.sent.map (·.what) ++ b.queue
    let peer := s.fld (Reg.BIL_PORT_CTRL p) 17 16
    let trans := held.filter fun x => match x.msg with | .write .. => true | .signal .. => true | _ => false
    let s := s.setFld (Reg.BIL_PORT_CTRL p) 30 0 0
    let s := s.wr (Reg.BIL_PORT_STATUS p) 0
    let s := s.updBil p fun b => { b with queue := [], sent := [], nextSeq := 0, expect := 0, training := false, retryAt := none }
    let s := s.report (0x150 + p) Kind.BIL_LINK_DOWN 0 (peer + min trans.length (2 ^ 24 - 1) * 2 ^ 8)
    (trans.filterMap (·.owner)).foldl (fun s o => s.remoteDone o.1 o.2 false true) s

/-- Training starts (R525). -/
def State.startTraining (s : State) (p : Nat) : State :=
  if s.bit (Reg.BIL_PORT_CTRL p) 31 then s.updBil p fun b => { b with training := true, retryAt := none } else s

/-- What a write of BIL_PORT_CTRLp does (R525, R528): ENABLE = 1 trains, ENABLE = 0 takes the link down. -/
def State.afterBilCtrl (p : Nat) (old s : State) : State :=
  if s.bit (Reg.BIL_PORT_CTRL p) 31 then (if old.bit (Reg.BIL_PORT_CTRL p) 31 then s else s.startTraining p)
  else if old.bit (Reg.BIL_PORT_CTRL p) 31 then s.linkDown p else s

/-- Lanes of a mask. -/
def laneCount (m : BitVec 4) : Nat := ((List.range 4).filter fun i => m.getLsbD i).length

/-- The device and port that R522 wires to port p of device d. -/
def wiredTo (d p : Nat) : Nat × Nat := ((d + p + 1) % 4, 2 - p)

/-- The first check of R526 that a training fails, 0 for none. -/
def State.trainErr (s : State) (p : Nat) (r : TrainResult) : Nat :=
  let d := s.board.devnum
  let lo := s.fld Reg.BIL_VERSION 7 0
  let hi := s.fld Reg.BIL_VERSION 15 8
  if laneCount r.signal < 2 then 1
  else if laneCount r.locked < 2 then 2
  else if (r.dev.val, r.port.val) ≠ wiredTo d p then 3
  else if r.dev.val = d then 4
  else if r.maxVer.toNat < lo ∨ hi < r.minVer.toNat then 5
  else 0

/-! ### FAULT_N -/

/-- A kind's pending bit (R445). -/
def State.isPending (s : State) (k : Nat) : Bool := s.bit (Reg.TAL_PENDING (k / 32)) (k % 32)

/-- A pending bit holds FAULT_N low (R452): class A, or class B that is not masked. -/
def State.holdsFault (s : State) : Bool :=
  kindTable.any fun r => s.isPending r.1 && (r.2.1 == 0 || (r.2.1 == 1 && !s.bit (Reg.TAL_REACT r.1) 4))

/-- TAL_STATUS.READY. -/
def State.talReady (s : State) : Bool := s.bit Reg.TAL_STATUS 31

/-- FAULT_N is driven low (R452, R510). [DESIGN CHOICE, log entry 72] -/
def State.faultLow (s : State) : Bool := !s.talReady || s.holdsFault || s.tal.lowUntil.isSome || s.phase = .held || s.phase = .shutdown

/-! ### Training, continued -/

/-- BIL_TRAINING_DONE (R525 to R527): the link comes up, and the partner is told FAULT_N's level (R534); or TRAIN_ERR is set and training is tried again after 100 ms. [DEDUCED, log entry 85] -/
def execBilTrainingDone (port : PortId) (r : TrainResult) (s : State) : Host.Outcome State Fault Refusal :=
  .next (
    let p := port.val
    if !(s.bilPort p).training then s
    else
      let e := s.trainErr p r
      if e ≠ 0 then
        let s := s.setFld (Reg.BIL_PORT_STATUS p) 3 0 e
        let known := 3 ≤ e
        let addr := e + (if known then r.dev.val * 2 ^ 8 + r.port.val * 2 ^ 12 else 0)
        let s := if (s.bilPort p).lastErr = e then s else s.report (0x150 + p) Kind.BIL_TRAIN_FAIL 0 addr
        s.updBil p fun b => { b with training := false, retryAt := some (s.refNs + 100000000), lastErr := e }
      else
        let n := laneCount r.locked
        let hi := s.fld Reg.BIL_VERSION 15 8
        let v := min hi r.maxVer.toNat
        let c := Reg.BIL_PORT_CTRL p
        let s := ((s.setBit c 30 true).setFld c 26 24 (if n = 4 then 4 else 2)).setFld c 17 16 r.dev.val
        let s := s.setFld c 7 0 v
        let same := (List.range 7).all fun i => r.images.getD i 0 == s.rd (Reg.FW_IMAGE i)
        let s := (s.setFld (Reg.BIL_PORT_STATUS p) 3 0 0).setBit (Reg.BIL_PORT_STATUS p) 31 same
        let s := s.updBil p fun b => { b with training := false, retryAt := none, lastErr := 0, heard := s.refNs, queue := [], sent := [], nextSeq := 0, expect := 0 }
        let s := s.updBilTime p fun b => { b with delays := [], offsets := [], lastDelay := none, lastAt := s.refNs }
        let s := s.bilSend p (.level s.faultLow) none
        let s := if n < 4 then s.report (0x150 + p) Kind.BIL_LANE_DEGRADED 0 (~~~ r.locked).toNat else s
        if v < hi then s.report (0x150 + p) Kind.BIL_VERSION_DOWN 0 (v + hi * 2 ^ 8) else s)

/-- BIL_TRAIN_RETRY (R525): 100 ms after a failed training it is tried again. [DESIGN CHOICE, log entry 10] -/
def execBilTrainRetry (port : PortId) (s : State) : Host.Outcome State Fault Refusal :=
  .next (match (s.bilPort port).retryAt with
    | some d => if d ≤ s.refNs then s.startTraining port else s
    | none => s)

/-! ### Packets -/

/-- Send every unacknowledged packet again (R524); a packet already sent 8 times takes the link down, and the port trains anew. -/
def State.resend (s : State) (p : Nat) : State :=
  let b := s.bilPort p
  match b.sent.find? (fun x => 8 ≤ x.sends) with
  | some x => ((s.report (0x150 + p) Kind.BIL_RETRY_LIMIT 0 x.seq).linkDown p).startTraining p
  | none =>
    let s := s.sat (Reg.BIL_RETRIES p) 31 0 b.sent.length
    let s := s.updBil p fun b => { b with sent := b.sent.map fun x => { x with sends := x.sends + 1 } }
    b.sent.foldl (fun s x => s.emit (.link p (.msg (BitVec.ofNat 12 x.seq) x.what.msg))) s

/-- BIL_RETRY_TIMEOUT (R524): the sender has heard nothing for 2 µs. -/
def execBilRetryTimeout (port : PortId) (s : State) : Host.Outcome State Fault Refusal :=
  .next (
    let b := s.bilPort port
    if s.bilUp port && !b.sent.isEmpty && b.heard + 2000 ≤ s.refNs then
      (s.resend port).updBil port fun b => { b with heard := s.refNs }
    else s)

/-- BIL_PARTNER_SILENCE (R528): the partner has not answered for 16 µs. -/
def execBilPartnerSilence (port : PortId) (s : State) : Host.Outcome State Fault Refusal :=
  .next (if s.bilUp port && (s.bilPort port).heard + 16000 ≤ s.refNs then (s.linkDown port).startTraining port else s)

/-- The local address of an offset of this device's window (R529); none where the offset is reserved. [DESIGN CHOICE, log entry 39] -/
def remoteLocal (off : Nat) : Option Nat :=
  if off < 0xFC0000000 then some off
  else if off < 0xFE0000000 then some (0x1000000000 + (off - 0xFC0000000))
  else none

/-- A write arrives over a link (R24, R530): it keeps its STALL and ORIGIN, its INITIATOR is the receiving port; judged by this device's barriers under its own stall; OKAY once it has taken effect. -/
def State.remoteWrite (s : State) (p : Nat) (stall : StallId) (origin : Fin 4) (off : Nat) (data : List Byte) : Bool × State :=
  match remoteLocal off with
  | none => (false, s.report 0x180 Kind.FABRIC_ERROR stall (0x8000000000 + s.board.devnum * 0x1000000000 + off))
  | some a =>
    let t : Tag := ⟨stall, BitVec.ofNat 12 (0x150 + p), origin⟩
    match runOn (writeMem t a data) s with
    | (.ok _, s') => (true, s')
    | (.error _, s') => (false, s')

/-- A message takes effect (R530, R532, R534): the response to send, and the state. -/
def State.bilMessage (s : State) (p : Nat) (m : BilMsg) : Bool × State :=
  match m with
  | .write st o off d =>
    let r := s.remoteWrite p st o off.toNat d
    (r.1, r.2.sat64 (Reg.BIL_RX_BYTES p) d.length)
  | .signal st sig v =>
    if sig.toNat / 16 = st.val then (true, s.raiseSignal sig.toNat v.toNat)
    else (false, s.signalRefused st sig.toNat s.board.devnum false)
  | .record r =>
    (true, match pushFifo 16 r (s.bilPort p).peer with
      | some l => s.updBil p fun b => { b with peer := l }
      | none => s.sat (Reg.BIL_PEER_OVF p) 31 0 1)
  | .level low => (true, s.setBit (Reg.BIL_PORT_STATUS p) 30 low)

/-- BIL_PACKET_RECEIVE (R524): the next packet in sequence takes effect and is acknowledged; a bad or early one draws a NAK; a repeated one is discarded. -/
def execBilPacketReceive (port : PortId) (p : BilPacket) (s : State) : Host.Outcome State Fault Refusal :=
  .next (
    let n := port.val
    if !s.bilUp n then s
    else
      let b := s.bilPort n
      let s := s.updBil n fun b => { b with heard := s.refNs }
      match p with
      | .bad => (s.sat (Reg.BIL_CRC_ERR n) 31 0 1).emit (.link n .nak)
      | .nak => s.resend n
      | .ack seq ok =>
        match b.sent.find? (fun x => x.seq == seq.toNat) with
        | none => s
        | some x =>
          let s := s.updBil n fun b => { b with sent := b.sent.erase x }
          let s := match x.what.owner with
            | some o => s.remoteDone o.1 o.2 ok false
            | none => s
          s.pump n
      | .msg seq m =>
        if seq.toNat = b.expect then
          let s := s.updBil n fun b => { b with expect := (b.expect + 1) % 4096 }
          let r := s.bilMessage n m
          r.2.emit (.link n (.ack seq r.1))
        else if (seq.toNat + 4096 - b.expect) % 4096 < 2048 then s.emit (.link n .nak)
        else s)

/-- Read word 0 of BIL_PEER_FAULTp: the oldest forwarded record leaves, its other words are latched (R534, R8). -/
def State.popPeer (s : State) (p : Nat) : Word × State :=
  let r := (s.bilPort p).peer.headD 0#128
  let off := Reg.BIL_PEER_FAULT p
  let s := { s with latch := (off, [r.extractLsb' 32 32, r.extractLsb' 64 32, r.extractLsb' 96 32]) :: s.latch.filter (fun e => e.1 != off) }
  (r.extractLsb' 0 32, s.updBil p fun b => { b with peer := b.peer.tail })

/-- Forward a fault record and the FAULT_N level over every link that is up (R534). [DEDUCED, log entry 85] -/
def State.forwardFault (s : State) (m : BilMsg) : State :=
  (List.range 3).foldl (fun s p => if s.bilUp p then s.bilSend p m none else s) s

/-! ### SIGNAL (R283) -/

/-- Send a signal to another device; none where it is absent or its link is down (R532). -/
def State.sendSignal (s : State) (stall dev sig v : Nat) (owner : Option (Nat × Nat)) : Option State :=
  (s.portTo dev).map fun p => s.bilSend p (.signal (Fin.ofNat 16 stall) (BitVec.ofNat 8 sig) (BitVec.ofNat 64 v)) owner

/-- The effect of SIGNAL (R283, R284): at once, or remembered until the job is journalled; a remote one waits for its response. -/
def effectSignal (id i : Nat) (j : Job) (c : Cmd) : Run Unit := do
  let d := c.desc
  let dev := bits (le d 16 1) 1 0
  let sig := le d 17 1
  let v := le d 24 8
  let s ← get
  if sig / 16 ≠ j.stall then do
    set (s.signalRefused j.stall sig dev false)
    throw St.FIREWALL
  else if bitOf (le d 16 1) 2 then
    set (({ s with cmd := { s.cmd with after := s.cmd.after ++ [(id, dev, sig, v)] } } : State).finishCmd id i St.OK)
  else if dev = s.board.devnum then set ((s.raiseSignal sig v).finishCmd id i St.OK)
  else match (s.updCmd id i fun c => { c with stage := .running, progress := 1 }).sendSignal j.stall dev sig v (some (id, i)) with
    | some s' => set s'
    | none => do
      set (s.signalRefused j.stall sig dev true)
      throw St.FIREWALL

/-- SIGNAL (R283). -/
def execSignal (job idx : Nat) (s : State) : Host.Outcome State Fault Refusal :=
  .next (runPart s job idx 0x11 .started (effectSignal job idx))

/-- The signals that a job was to raise once journalled (R283): raised if its status is a success, dropped otherwise. [DESIGN CHOICE, log entry 90] -/
def State.raiseAfter (s : State) (id status : Nat) : State :=
  let mine := s.cmd.after.filter fun a => a.1 == id
  let stall := (s.job? id).elim 0 (·.stall)
  let s : State := { s with cmd := { s.cmd with after := s.cmd.after.filter fun a => a.1 != id } }
  if succeeded status then
    mine.foldl (fun s a =>
      if a.2.1 = s.board.devnum then s.raiseSignal a.2.2.1 a.2.2.2
      else match s.sendSignal stall a.2.1 a.2.2.1 a.2.2.2 none with
        | some s' => s'
        | none => s.signalRefused stall a.2.2.1 a.2.1 true) s
  else s

end Sys2Proof.Machine
end

