-- ==== Sys2Proof/Machine/Command.lean ====
section
/-!
DEFINITION. Job rings (R266 to R275), the acceptance journal (R288 to R290), job status and completion records (R270, R286),
their publication (R271, R403), and what Barrow's responses do to them.
-/
namespace Sys2Proof.Machine

/-! ### Rings -/

/-- The ring's next sequence number to accept. -/
def State.accepted (s : State) (n : Nat) : Nat := s.rd64 (Reg.CMD_RING_SEQ n)
/-- The ring's next completion to publish. -/
def State.published (s : State) (n : Nat) : Nat := s.rd64 (Reg.CMD_RING_PUB n)
/-- The ring's number of entries (R267). -/
def State.ringSize (s : State) (n : Nat) : Nat := 2 ^ s.fld (Reg.CMD_RING_CTRL n) 20 16
/-- The ring's stall. -/
def State.ringStall (s : State) (n : Nat) : Nat := s.fld (Reg.CMD_RING_CTRL n) 11 8
/-- CMD_STATUS.JOURNAL_OK. -/
def State.journalOk (s : State) : Bool := s.bit Reg.CMD_STATUS 31
/-- The ring takes doorbells: enabled, not halted, the journal in use (R273). -/
def State.ringOpen (s : State) (n : Nat) : Bool :=
  s.bit (Reg.CMD_RING_CTRL n) 31 && !s.bit (Reg.CMD_RING_CTRL n) 30 && s.journalOk
/-- Accepted jobs not yet published, over all rings (R274). -/
def State.outstanding (s : State) : Nat := sumNat ((List.range 64).map fun n => s.accepted n - s.published n)
/-- The scheduler core runs: it is not in reset or restarting (R296). -/
def State.schedUp (s : State) : Bool := s.bit Reg.FW_STATUS 2

/-- Records of the journal's log (R288). -/
def logSlots : Nat := 32704

/-- Fetching is paused (R274): too much is outstanding, or the next log slot still belongs to an unpublished job. -/
def State.fetchPaused (s : State) : Bool :=
  16384 ≤ s.outstanding || s.cmd.journal.log.any fun r => r.idx % logSlots == s.cmd.journal.total % logSlots

/-- Change the command plane. -/
def State.updCmdPlane (s : State) (f : CmdPlane → CmdPlane) : State := { s with cmd := f s.cmd }

/-- Change the journal. -/
def State.updJournal (s : State) (f : Journal → Journal) : State := s.updCmdPlane fun c => { c with journal := f c.journal }

/-- The CRC-32C that a copy of a ring's state carries (R288). The fields stand in the rule's order. [DESIGN CHOICE, log entry 60] -/
def RingCopy.seal (c : RingCopy) : Nat :=
  (crc32c (leBytes 8 c.accepted ++ leBytes 8 c.published ++ leBytes 4 c.epoch ++ leBytes 4 c.gen)).toNat

/-- A copy's CRC is valid. -/
def RingCopy.valid (c : RingCopy) : Bool := c.crc == c.seal

/-- Copy A is the one in use: its CRC is valid, and copy B's is not or has a lower generation (R288). -/
def Journal.usesA (j : Journal) (n : Nat) : Bool :=
  let a := j.copyA.getD n {}
  let b := j.copyB.getD n {}
  a.valid && (!b.valid || b.gen ≤ a.gen)

/-- The copy of a ring's state that a start-up uses: that with the valid CRC and the higher generation; an empty journal has none (R288). [DESIGN CHOICE, log entry 60] -/
def Journal.ring (j : Journal) (n : Nat) : RingCopy :=
  let b := j.copyB.getD n {}
  if j.usesA n then j.copyA.getD n {} else if b.valid then b else {}

/-- The ring state as the registers hold it goes into the journal, into copies A and B alternately (R288). -/
def State.saveRing (s : State) (n : Nat) : State :=
  s.updJournal fun j =>
    let c : RingCopy := { accepted := s.accepted n, published := s.published n, epoch := s.epoch, gen := (j.ring n).gen + 1 }
    let c := { c with crc := c.seal }
    if j.usesA n then { j with copyB := j.copyB.set n c } else { j with copyA := j.copyA.set n c }

/-! ### Fetching entries -/

/-- Read the entry at ACCEPTED through its window: a request, or a refusal; nothing where the session's 64 requests are out (R274, R275, R403). -/
def State.readEntry (s : State) (n : Nat) (second : Bool) : State :=
  let r := s.rd64 (Reg.CMD_RING_BASE n)
  let off := refOff r + s.accepted n % s.ringSize n * 64
  match (if refReserved r = 0 then s.winRead (refWin r) off 64 else none) with
  | none => s.stopFetch n
  | some x =>
    if s.roomFor x 1 then
      (s.updRing n fun q => { q with fetch := .reading second }).deviceRequest x 1 (refWin r) off 64 [] (.entry n)
    else s

/-- Go on fetching where a doorbell waits for more entries and nothing is under way; not on a ring that has records of a replay to publish (R293). -/
def State.startFetch (s : State) (n : Nat) : State :=
  let r := s.ring n
  if r.fetch = .idle ∧ s.schedUp ∧ s.ringOpen n ∧ !s.fetchPaused ∧ !(s.cmd.replayLeft.any (·.1 == n)) ∧ r.doors.any (fun d => s.accepted n < d.seqEnd) then s.readEntry n false else s

/-- Go on fetching on every ring. -/
def State.fetchAll (s : State) : State := (List.range 64).foldl (fun s n => s.startFetch n) s

/-- Acknowledge every doorbell that ACCEPTED covers (R273). -/
def State.ackDoors (s : State) (n : Nat) : State :=
  let acc := s.accepted n
  let s := ((s.ring n).doors.filter fun d => d.seqEnd ≤ acc).foldl (fun s d => s.answer d.session d.seq 4 (beBytes 8 acc)) s
  s.updRing n fun r => { r with doors := r.doors.filter fun d => acc < d.seqEnd }

/-- What a doorbell draws at once (R273): ACK, NACK, or nothing while it waits. [DESIGN CHOICE, log entry 54] -/
def State.doorbell (s : State) (session seq n e : Nat) : State × Answer :=
  if e ≤ s.accepted n then (s, some (4, beBytes 8 (s.accepted n)))
  else if s.published n + s.ringSize n < e ∨ !s.ringOpen n then (s, nack 3 n)
  else ((s.updRing n fun r => { r with doors := r.doors ++ [{ session := session, seq := seq, seqEnd := e }] }).startFetch n, none)

/-- DOORBELL (R273, R397): only the owner's is taken; while the scheduler core restarts it waits (R296). -/
def execDoorbell (session : BitVec 16) (seq : Word) (ring : RingId) (seqEnd : BitVec 64) (s : State) : Host.Outcome State Fault Refusal :=
  .next (s.request session.toNat seq.toNat fun x s =>
    if s.bar.owner ≠ some x.num then (s, nack 2 s.ownerGen)
    else if !s.schedUp then
      (s.updRing ring.val fun r => { r with doors := r.doors ++ [{ session := x.num, seq := seq.toNat, seqEnd := seqEnd.toNat }] }, none)
    else s.doorbell x.num seq.toNat ring.val seqEnd.toNat)

/-- Doorbells that waited for the scheduler core's restart are judged (R296). -/
def State.resumeDoors (s : State) (n : Nat) : State :=
  let doors := (s.ring n).doors
  let s := s.updRing n fun r => { r with doors := [] }
  doors.foldl (fun s d =>
    let r := s.doorbell d.session d.seq n d.seqEnd
    match r.2 with
    | some a => r.1.answer d.session d.seq a.1 a.2
    | none => r.1) s

/-! ### Entries -/

/-- The status that the checks of R269 from the second on give an entry; 0 where it passes. -/
def State.entryStatus (s : State) (n : Nat) (e : List Byte) : Nat :=
  let stall := s.ringStall n
  let dl := s.deadlineStall stall
  let list := le e 16 8
  let us := le e 24 4
  let st := le e 32 8
  let mask := le e 12 4
  if le e 8 1 ≠ 1 then St.BAD_VERSION
  else if le e 10 2 = 0 ∨ mask = 0 ∨ us = 0 then St.ZERO_FIELD
  else if le e 9 1 / 2 ≠ 0 || !zeroBytes e 28 31 || !zeroBytes e 48 59 || list % 64 ≠ 0 || (if bitOf (le e 9 1) 0 then decide (2 ^ 40 ≤ list) else refReserved list != 0)
      || (dl == (us == 0xFFFFFFFF)) || st % 64 ≠ 0 || refReserved st ≠ 0 then St.BAD_FORMAT
  else if 1024 < le e 10 2 ∨ (4000000000 < us ∧ us ≠ 0xFFFFFFFF) then St.OUT_OF_LIMIT
  else if !(List.range 32).any (fun g => mask.testBit g && !(s.core g).disabled) then St.PLAN_WIDTH
  else 0

/-- An entry has come from the host (R269, R275): judged, read once more 100 µs later, or the ring halts. -/
def State.entryCame (s : State) (n : Nat) (e : List Byte) : State :=
  match (s.ring n).fetch with
  | .reading second =>
    let seqOk := le e 0 8 == s.accepted n
    let crcOk := le e 60 4 == (crc32c (slice e 0 60)).toNat
    let keep := fun (st : Option Nat) => s.updRing n fun r => { r with fetch := .journalling e st }
    if seqOk && crcOk then
      let st := s.entryStatus n e
      keep (if st = 0 then none else some st)
    else if !second then s.updRing n fun r => { r with fetch := .waiting (s.refNs + 100000) }
    else if seqOk then keep (some St.CRC_MISMATCH)
    else ((s.setBit (Reg.CMD_RING_CTRL n) 30 true).report 0x100 Kind.RING_SEQ_ERROR (s.ringStall n) n).stopFetch n
  | _ => s

/-- Take away the requests of every session that a condition names. -/
def State.dropReqs (s : State) (f : Req → Bool) : State :=
  s.updBar fun b => { b with slots := b.slots.map fun o => o.map fun x => { x with reqs := x.reqs.filter fun r => !f r } }

/-- ENTRY_FETCHED (R269): the host's answer to the read of an entry. -/
def execEntryFetched (ring : RingId) (data : List Byte) (s : State) : Host.Outcome State Fault Refusal :=
  .next (if s.schedUp then (s.dropReqs fun r => r.why == .entry ring.val).entryCame ring.val data else s)

/-- ENTRY_REREAD (R269, R275): 100 µs after a wrong first read. [DESIGN CHOICE, log entry 10] -/
def execEntryReread (ring : RingId) (s : State) : Host.Outcome State Fault Refusal :=
  .next (match (s.ring ring.val).fetch with
    | .waiting d => if d ≤ s.refNs ∧ s.schedUp then s.readEntry ring.val true else s
    | _ => s)

/-- The job that an accepted entry queues (R268). -/
def jobOf (id n stall : Nat) (dl : Bool) (now epoch : Nat) (e : List Byte) (st : Option Nat) : Job :=
  { id := id, src := .ring n (le e 0 8), stall := stall, coreMask := le e 12 4, listDev := bitOf (le e 9 1) 0, list := le e 16 8,
    nCmds := le e 10 2, deadline := if dl then some (now + le e 24 4 * 1000) else none, statusPtr := le e 32 8, user := le e 40 8,
    epoch := epoch, early := st.map fun x => (x, 0xFFFF) }

/-- ENTRY_JOURNALLED (R274, R289): the log record and ACCEPTED are durable; the job is queued, and covered doorbells are acknowledged. [DESIGN CHOICE, log entry 53] -/
def execEntryJournalled (ring : RingId) (s : State) : Host.Outcome State Fault Refusal :=
  .next (
    let n := ring.val
    match (s.ring n).fetch with
    | .journalling e st =>
      if !s.schedUp ∨ !s.journalOk then s
      else
        let seq := s.accepted n
        let e := leBytes 8 seq ++ e.drop 8
        let stall := s.ringStall n
        let s := s.wr64 (Reg.CMD_RING_SEQ n) (seq + 1)
        let s := s.wr64 (Reg.CMD_RING_PUB n) (max (s.published n) (seq + 1 - s.ringSize n))
        let s := s.updJournal fun j => { j with log := j.log ++ [{ idx := j.total, ring := n, seq := seq, entry := e, time := s.refNs, epoch := s.epoch, completed := none, statuses := [] }], total := j.total + 1 }
        let s := s.saveRing n
        let s := s.updCmdPlane fun c => { c with jobs := c.jobs ++ [jobOf c.nextJob n stall (s.deadlineStall stall) s.refNs s.epoch e st], nextJob := c.nextJob + 1 }
        let s := (s.updRing n fun r => { r with fetch := .idle }).ackDoors n
        s.fetchAll
    | _ => s)

/-! ### The journal fails (R262, R290) -/

/-- The journal goes down, once until power-on reset: no further entry is accepted and waiting doorbells draw a NACK; accepted work goes on from on-die state (R290). -/
def State.journalDown (s : State) (a : Nat) : State :=
  if s.cmd.journalLost then s
  else
    let s := s.updCmdPlane fun c => { c with journalLost := true }
    let s := (s.setBit Reg.CMD_STATUS 31 false).report 0x100 Kind.JOURNAL_DOWN 0 a
    let s := s.dropReqs fun r => match r.why with | .entry _ => true | _ => false
    (List.range 64).foldl (fun s n => (s.refuseDoors n).updRing n fun r => { r with fetch := .idle }) s

/-- HRAM_ACCESS_TIMEOUT (R262, R290): the third attempt of an access has drawn no response. -/
def execHramAccessTimeout (addr : BitVec 40) (s : State) : Host.Outcome State Fault Refusal :=
  .next (
    match regionOf addr.toNat with
    | .hyper _ => ((s.setBit Reg.MEM_HR_STATUS 31 true).report 0x172 Kind.HRAM_NO_RESPONSE 0 addr.toNat).journalDown addr.toNat
    | _ => s)

/-! ### Job status and the completion record -/

/-- Order of success statuses: a re-run above a correction (R105, R286). -/
def rankStatus (a b : Nat) : Nat :=
  let r := fun x => if x = St.OK_RETRIED then 2 else if x = St.OK_CORRECTED then 1 else 0
  if r a < r b then b else a

/-- Job status and FAIL_INDEX of some commands (R286). -/
def decideStatus (deadlinePassed : Bool) (cmds : List Cmd) : Nat × Nat :=
  let l := cmds.zipIdx
  match l.find? fun c => !succeeded c.1.status && c.1.status != St.ABANDONED && c.1.status != St.VERSION_MISMATCH with
  | some (c, i) => (c.status, i)
  | none =>
    match (if deadlinePassed then l.find? (fun c => c.1.late) else none) with
    | some (_, i) => (St.DEADLINE_MISSED, i)
    | none => ((cmds.filter fun c => succeeded c.status).foldl (fun r c => rankStatus r c.status) St.OK, 0xFFFF)

/-- Job status and FAIL_INDEX. -/
def Job.outcome (j : Job) : Nat × Nat := match j.early with | some x => x | none => decideStatus j.deadlinePassed j.cmds

/-- The status array of a job: a command that never came to be placed counts as not started (R269, R271). [DESIGN CHOICE, log entry 53] -/
def Job.statusBytes (j : Job) : List Byte :=
  if j.cmds.isEmpty then List.replicate j.nCmds (BitVec.ofNat 8 St.ABANDONED) else j.cmds.map fun c => BitVec.ofNat 8 c.status

/-- The completion record (R270). [DESIGN CHOICE, log entry 53] -/
def Job.recordBytes (j : Job) (ns : Nat) (synced : Bool) : List Byte :=
  let o := j.outcome
  let ran := j.cmds.any (·.began)
  let seq := match j.src with | .ring _ q => q | .node .. => 0
  leBytes 8 seq ++ leBytes 1 o.1
    ++ leBytes 1 ((if ran then j.core else 0) + b2n j.replayed * 32 + b2n (j.cmds.any (·.status == St.VERSION_MISMATCH)) * 64 + b2n ran * 128)
    ++ leBytes 2 o.2 ++ leBytes 4 j.epoch ++ leBytes 8 j.user ++ leBytes 8 (ns % 2 ^ 63 + b2n synced * 2 ^ 63)

/-- The host reference of a ring's completion slot (R267). -/
def State.compRef (s : State) (n seq : Nat) : Nat :=
  let r := s.rd64 (Reg.CMD_RING_COMP n)
  r + seq % s.ringSize n * 32

/-- The window is bound to the owner's session (R402). -/
def State.winOwned (s : State) (w : Nat) : Bool := match s.winSession w with | some x => s.bar.owner == some x | none => false

/-- A WRITE of n bytes at a host reference is refused though its window is bound to the owner's session: past SIZE, without the right, or reserved bits set (R266, R402). -/
def State.writeRefused (s : State) (ref n : Nat) : Bool :=
  refReserved ref != 0 || s.winOwned (refWin ref) && (s.winWrite (refWin ref) (refOff ref) n).isNone

/-- The place that refuses a write of a job's completion, if one does (R266): the slot of its record, or its status array, whose window may also not be registered. A record whose completion window is not bound is held and nothing is judged (R403). [DESIGN CHOICE, log entry 53] -/
def State.completionRefused (s : State) (j : Job) (n seq : Nat) : Option Nat :=
  let slot := s.compRef n seq
  let k := j.statusBytes.length
  if (s.ring n).refusedHold || !s.winOwned (refWin slot) then none
  else if s.writeRefused slot 32 then some slot
  else if j.statusPtr != 0 && k != 0 && (s.writeRefused j.statusPtr k || !s.winOwned (refWin j.statusPtr)) then some j.statusPtr
  else none

/-- The Address field of a place in host memory (R276). -/
def hostAddrField (ref : Nat) : Nat := refWin ref * 2 ^ 32 + refOff ref % 2 ^ 32

/-- A refused write of its completion ends a job with FIREWALL, recorded; a job that had failed keeps the status that R286 gives it. [DESIGN CHOICE, log entry 53] -/
def State.judgeWrites (s : State) (j : Job) (n seq : Nat) : State :=
  match (if succeeded j.outcome.1 then s.completionRefused j n seq else none) with
  | some ref => (s.reportRefusal j.stall (hostAddrField ref)).updJob j.id fun j => { j with early := some (St.FIREWALL, 0xFFFF) }
  | none => s

/-- JOB_COMPLETE (R283, R286, R289): after its last command the job's record is journalled COMPLETED, and its signals are raised. [DESIGN CHOICE, log entry 55] -/
def execJobComplete (job : Nat) (s : State) : Host.Outcome State Fault Refusal :=
  .next (match s.job? job with
    | none => s
    | some j0 =>
      match j0.src with
      | .node .. => s
      | .ring n seq =>
        if j0.ended ∧ s.schedUp ∧ (j0.phase = .accepted ∨ j0.phase = .placed) then
          let s := s.judgeWrites j0 n seq
          let j := (s.job? job).getD j0
          let o := j.outcome
          let rec_ := j.recordBytes s.ns s.synced
          let s := s.updJob job fun j => { j with phase := .completed, record := rec_ }
          let s := if s.journalOk then
              s.updJournal fun q => { q with log := q.log.map fun r =>
                if r.ring = n ∧ r.seq = seq then { r with completed := some rec_, statuses := j.statusBytes } else r }
            else s
          let s := s.raiseAfter job o.1
          if j.cmds.isEmpty ∧ o.1 = St.CRC_MISMATCH then s.report 0x100 Kind.ENTRY_CRC j.stall (n + seq % 2 ^ 32 * 2 ^ 8) else s
        else s)

/-! ### Publication -/

/-- The job whose completion the ring publishes next. -/
def State.nextPublished (s : State) (n : Nat) : Option Job :=
  s.cmd.jobs.find? fun j => j.src == .ring n (s.published n)

/-- Write n bytes at a host reference in parts of at most MAX_DATA, all or none; none where the window refuses (R402, R403). [DESIGN CHOICE, log entry 59] -/
def State.hostWrite (s : State) (n ref : Nat) (b : List Byte) : Option State :=
  match (if refReserved ref = 0 then s.winWrite (refWin ref) (refOff ref) b.length else none) with
  | none => none
  | some x =>
    let parts := cutParts ((s.session? x).elim 256 (·.maxData)) (refOff ref) b.length
    if s.roomFor x parts.length then
      some (parts.foldl (fun s p => s.deviceRequest x 2 (refWin ref) p.1 p.2 ((b.drop (p.1 - refOff ref)).take p.2) (.completion n)) s)
    else none

/-- The status array that a record's publication still has to write: none of a job that has failed, by that refusal or before it, where its write is refused (R266, R271). [DESIGN CHOICE, log entry 53] -/
def State.arrayDue (s : State) (j : Job) : List Byte :=
  if j.statusPtr = 0 || (!succeeded j.outcome.1 && (s.writeRefused j.statusPtr j.statusBytes.length || !s.winOwned (refWin j.statusPtr))) then []
  else j.statusBytes

/-- COMPLETION_PUBLISH (R271, R289, R403): the status array and bytes 8 to 31 of the next record leave for the host; held where a window does not take them. [DESIGN CHOICE, log entry 53] -/
def execCompletionPublish (ring : RingId) (s : State) : Host.Outcome State Fault Refusal :=
  .next (
    let n := ring.val
    match s.nextPublished n with
    | none => s
    | some j =>
      if j.phase ≠ .completed ∨ (s.ring n).refusedHold ∨ s.rd64 (Reg.CMD_RING_COMP n) = 0 ∨ !s.schedUp then s
      else
        let ref := s.compRef n (s.published n)
        let due := s.arrayDue j
        let arr := if due.isEmpty then some s else s.hostWrite n j.statusPtr due
        match arr with
        | none => s
        | some s' =>
          if (s.winWrite (refWin ref) (refOff ref) 32).isNone then s
          else match s'.hostWrite n (ref + 8) (j.record.drop 8) with
            | none => s
            | some s' => s'.updJob j.id fun j => { j with phase := .publishing, pubStep := 0 })

/-- A replay ends once every record that it found is published (R293). [DESIGN CHOICE, log entry 68] -/
def State.endReplay (s : State) : State :=
  if s.bit Reg.CMD_STATUS 30 && s.cmd.replayLeft.isEmpty then
    (s.setBit Reg.CMD_STATUS 30 false).report 0x100 Kind.REPLAY_DONE 0 s.cmd.replayCount
  else s

/-- The writes of the ring's record under publication have all been acknowledged (R271, R289): bytes 0 to 7 follow, and then PUBLISHED advances. -/
def State.publishOn (s : State) (n : Nat) : State :=
  if s.sessions.any (fun x => x.reqs.any fun r => r.why == .completion n) then s
  else match s.nextPublished n with
    | none => s
    | some j =>
      if j.phase ≠ .publishing then s
      else if j.pubStep = 0 then
        match s.hostWrite n (s.compRef n (s.published n)) (j.record.take 8) with
        | some s' => s'.updJob j.id fun j => { j with pubStep := 1 }
        | none => s.abandonWrites n
      else
        let seq := s.published n
        let s := (s.wr64 (Reg.CMD_RING_PUB n) (seq + 1)).inc (Reg.CMD_RING_JOBS n) 1
        let s := s.updJournal fun q => { q with log := q.log.filter fun r => !(r.ring == n && r.seq == seq) }
        let s := s.updCmdPlane fun c => { c with jobs := c.jobs.filter fun x => x.id != j.id }
        let s := s.updCmdPlane fun c => { c with replayLeft := c.replayLeft.filter fun r => r != (n, seq) }
        (s.saveRing n).endReplay.fetchAll

/-- COMPLETION_WRITE_ACKED (R271, R289): the host has acknowledged the outstanding writes of the ring's record. -/
def execCompletionWriteAcked (ring : RingId) (s : State) : Host.Outcome State Fault Refusal :=
  .next (
    let n := ring.val
    if s.sessions.any (fun x => x.reqs.any fun r => r.why == .completion n) then (s.dropReqs fun r => r.why == .completion n).publishOn n else s)

/-! ### Barrow's responses (R399, R403, R405) -/

/-- An outstanding device request by session and SEQ. -/
def State.req? (s : State) (n seq : Nat) : Option Req := (s.session? n).bind fun x => x.reqs.find? (·.seq == seq)

/-- Take away one request of a session. -/
def State.dropReq (s : State) (n seq : Nat) : State := s.updSession n fun x => { x with reqs := x.reqs.filter fun r => r.seq != seq }

/-- BARROW_ACK (R399): a host answers a READ with its data, or a WRITE. -/
def execBarrowAck (session : BitVec 16) (ackSeq : Word) (body : List Byte) (s : State) : Host.Outcome State Fault Refusal :=
  .next (match s.req? session.toNat ackSeq.toNat with
    | none => s
    | some r =>
      match r.why with
      | .entry n => if body.length = 64 then ((s.dropReq session.toNat ackSeq.toNat).entryCame n body).fetchAll else s
      | .completion n => ((s.dropReq session.toNat ackSeq.toNat).publishOn n).fetchAll)

/-- BARROW_NACK (R275, R403, R405): a host refuses a device request with NACK WINDOW or NACK BAD_FRAME. -/
def execBarrowNack (session : BitVec 16) (ackSeq : Word) (body : List Byte) (s : State) : Host.Outcome State Fault Refusal :=
  .next (match s.req? session.toNat ackSeq.toNat with
    | none => s
    | some r =>
      if be body 0 1 ≠ 4 ∧ be body 0 1 ≠ 6 then s
      else
        let s := s.dropReq session.toNat ackSeq.toNat
        match r.why with
        | .entry n => (s.stopFetch n).fetchAll
        | .completion n => ((s.abandonWrites n).updRing n fun q => { q with refusedHold := true }).fetchAll)

/-! ### Register writes -/

/-- What a write of CMD_RING_CTRLn leaves (R275, R301): LOG2_SIZE and STALL keep their values while ENABLE is 1 and outside 4 to 16; ENABLE = 0 stops fetching; ENABLE = 1 clears HALTED and needs both references. -/
def State.afterRingCtrl (n : Nat) (v : Word) (old s : State) : State :=
  let c := Reg.CMD_RING_CTRL n
  let log := s.fld c 20 16
  let s := if old.bit c 31 ∨ log < 4 ∨ 16 < log then s.setFld c 20 16 (old.fld c 20 16) else s
  let s := if old.bit c 31 then s.setFld c 11 8 (old.fld c 11 8) else s
  if v.getLsbD 31 then
    if s.rd64 (Reg.CMD_RING_BASE n) = 0 ∨ s.rd64 (Reg.CMD_RING_COMP n) = 0 then s.setBit c 31 (old.bit c 31)
    else
      let halted := old.bit c 30
      let s := s.setBit c 30 false
      if halted ∧ s.schedUp ∧ s.ringOpen n then
        (if (s.ring n).doors.isEmpty then s.updRing n fun r => { r with doors := [{ session := 0, seq := 0, seqEnd := s.accepted n + 1 }] } else s).startFetch n
      else s
  else (s.stopFetch n).setBit c 31 false

/-- What a write of a ring's reference leaves: nothing changes while ENABLE is 1 (R301). -/
def State.afterRingRef (n reg : Nat) (old s : State) : State :=
  if old.bit (Reg.CMD_RING_CTRL n) 31 then s.wr reg (old.rd reg) else s

/-- What a write of CMD_RING_SEQn does (R301): ACCEPTED and PUBLISHED, only while the ring is disabled and empty. -/
def State.afterRingSeq (n : Nat) (old s : State) : State :=
  if old.bit (Reg.CMD_RING_CTRL n) 31 ∨ old.accepted n ≠ old.published n then s.wr64 (Reg.CMD_RING_SEQ n) (old.accepted n)
  else (s.wr64 (Reg.CMD_RING_PUB n) (s.accepted n)).saveRing n

end Sys2Proof.Machine
end

