-- ==== Sys2Proof/Machine/Pace.lean ====
section
/-!
DEFINITION. Pace meters and caps (R42 to R47), the watt cap (R501 to R504), rails (R506) and thermal protection (R508 to
R511): the commands PACE_WINDOW, POWER_SAMPLE, CAP_LOOP_PERIOD, THERMAL_SAMPLE, THERMAL_SHUTDOWN, SUPPLY_LOW, REG_FAULT.
-/
namespace Sys2Proof.Machine

/-- Change the power state. -/
def State.updPwr (s : State) (f : Power → Power) : State := { s with pwr := f s.pwr }

/-- Act only while the device runs: the security core is released and no shutdown stands. -/
def State.whenLive (s : State) (f : State → State) : State := if s.phase = .live then f s else s

/-! ### Pace -/

/-- The deadline hold applies to a cluster (R47): a deadline stall has work placed on, or carve-outs reserved on, one of its cores. -/
def State.deadlineHold (s : State) (c : Nat) : Bool :=
  s.cmd.jobs.any (fun j => j.phase = .placed && !j.ended && j.core / 8 == c && s.deadlineStall j.stall)
  || (s.sch.carves ++ s.sch.oldCarves).any (fun e => e.2.1 / 8 == c && s.deadlineStall e.1)

/-- CAP of a cluster (R45). -/
def State.cap (s : State) (c : Nat) : Nat := s.fld (Reg.PWR_PACE_CAP_C c) 11 0

/-- EFFECTIVE of a cluster (R47). -/
def State.effective (s : State) (c : Nat) : Nat := if s.deadlineHold c then max (s.cap c) 950 else s.cap c

/-- PWR_PACE_CAP_Cc as it reads (R45, R47). -/
def State.readPaceCap (s : State) (c : Nat) : Word :=
  BitVec.ofNat 32 (b2n (s.deadlineHold c && s.cap c < 950) * 2 ^ 31 + s.effective c * 2 ^ 16 + s.cap c)

/-- PWR_CLUSTER_Cc as it reads: CAPPED while the cluster is ON with a CAP below 1,500 (R494, R500). -/
def State.readCluster (s : State) (c : Nat) : Word :=
  let r := Reg.PWR_CLUSTER_C c
  if s.fld r 25 24 == 0 && s.cap c < 1500 then BitVec.ofNat 32 (putBits (s.rd r).toNat 25 24 1) else s.rd r

/-- The newest n elements of a list that grows at its end. -/
def keepLast {α : Type} (n : Nat) (l : List α) : List α := l.drop (l.length - n)

/-- PACE_WINDOW (R42 to R44): one complete window of a cluster that is ON or CAPPED; before 1,024 windows have come AVG is the mean of those that have. [DESIGN CHOICE, log entries 15, 105] -/
def execPaceWindow (cluster : ClusterId) (count : BitVec 12) (s : State) : Host.Outcome State Fault Refusal :=
  .next (s.whenLive fun s =>
    let c := cluster.val
    if !s.clusterUp c then s
    else
      let n := count.toNat
      let h := keepLast 1024 ((s.pwr.pace.getD c []) ++ [n])
      let low := if n < 950 then s.pwr.paceLow.getD c 0 + 1 else 0
      let avg := h.foldl (· + ·) 0 / h.length
      let r := Reg.PWR_PACE_C c
      let s := ((s.setBit r 31 true).setFld r 27 16 avg).setFld r 11 0 n
      let s := s.setFld (Reg.PWR_PACE_MIN_C c) 11 0 (min (s.fld (Reg.PWR_PACE_MIN_C c) 11 0) n)
      let s := s.updPwr fun p =>
        { p with pace := p.pace.set c h, paceLow := p.paceLow.set c low, paceLowAt := if low = 0 then p.paceLowAt.set c none else p.paceLowAt }
      let due : Bool := match s.pwr.paceLowAt.getD c none with
        | none => true
        | some t => decide (t + 1000000 ≤ s.refNs)
      if 16 ≤ low && due then
        (s.updPwr fun p => { p with paceLowAt := p.paceLowAt.set c (some s.refNs) }).report (0x104 + c) Kind.PACE_LOW 0 (c + n * 2 ^ 16)
      else s)

/-- A write of CLEAR in PWR_PACE_MIN_Cc (R43). -/
def State.afterPaceMin (c : Nat) (v : Word) (s : State) : State :=
  if v.getLsbD 31 then s.setFld (Reg.PWR_PACE_MIN_C c) 11 0 0xFFF else s

/-! ### The watt cap -/

/-- POWER_SAMPLE (R501). [DESIGN CHOICE, log entry 97] -/
def execPowerSample (deciwatts : BitVec 12) (s : State) : Host.Outcome State Fault Refusal :=
  .next (s.whenLive fun s =>
    let l := keepLast 10 (s.pwr.samples ++ [deciwatts.toNat])
    let s := s.updPwr fun p => { p with samples := l }
    (s.setFld Reg.PWR_POWER 11 0 deciwatts.toNat).setFld Reg.PWR_POWER 27 16 (l.foldl (· + ·) 0 / l.length))

/-- A number held between two bounds. [DESIGN CHOICE, log entry 97] -/
def clampNat (n lo hi : Nat) : Nat := min (max n lo) hi

/-- The next watt-derived limit from c, the mean power p and the cap in watts (R502). [DESIGN CHOICE, log entry 97] -/
def nextLimit (trip high : Bool) (c p watts : Nat) : Nat :=
  if trip then 95
  else if high then max 95 (c * 9 / 10)
  else clampNat (clampNat (c * (watts * 10) / max p 1) (c * 9 / 10) (c * 11 / 10)) 95 1500

/-- The power core's CAP and the cap that escalation holds combine to the lower (R112). -/
def State.underEscCap (s : State) (c : Nat) : State :=
  s.setFld (Reg.PWR_PACE_CAP_C c) 11 0 (min (s.cap c) (s.pwr.escCap.getD c 1500))

/-- The power core writes every cluster's CAP that is not idle (R502). -/
def State.writeCaps (s : State) (c : Nat) : State :=
  (List.range 4).foldl (fun s k =>
    if s.clusterUp k then s.setFld (Reg.PWR_PACE_CAP_C k) 11 0 (min c (s.pwr.escCap.getD k 1500)) else s) s

/-- CAP_LOOP_PERIOD (R502, R503). -/
def execCapLoopPeriod (s : State) : Host.Outcome State Fault Refusal :=
  .next (s.whenLive fun s =>
    let mean := s.fld Reg.PWR_POWER 27 16
    let watts := s.fld Reg.PWR_CAP 6 0
    let c := nextLimit s.pwr.trip s.pwr.high s.pwr.limit mean watts
    let above := if c = 95 ∧ watts * 10 + 20 < mean then s.pwr.above + 1 else 0
    let met := if mean ≤ watts * 10 then s.pwr.met + 1 else 0
    let fire := above == 10 && s.pwr.unmetArmed
    let armed := if fire then false else s.pwr.unmetArmed || 100 ≤ met
    let s := (s.updPwr fun p => { p with limit := c, above := above, met := met, unmetArmed := armed }).writeCaps c
    if fire then s.report 0x102 Kind.CAP_UNMET 0 (mean + watts * 2 ^ 16) else s)

/-! ### Thermal protection -/

/-- The hottest of some sensors: (sensor, temperature), the lowest sensor on a tie. -/
def hottestOf : List (Nat × Int) → Nat × Int
  | [] => (0, -128)
  | [x] => x
  | x :: t => let y := hottestOf t; if x.2 < y.2 then y else x

/-- The register of a group of sensors: clusters 0 to 3, then the die (R511). -/
def tempReg (k : Nat) : Nat := if k < 4 then Reg.PWR_TEMP_C k else Reg.PWR_TEMP_DIE

/-- Show a group's hottest sensor in its register: NOW and PEAK (R511). -/
def State.showTemp (s : State) (k : Nat) (t : Int) : State :=
  let p := match s.pwr.peaks.getD k none with
    | none => t
    | some x => max x t
  let s := s.updPwr fun w => { w with temps := w.temps.set k t, peaks := w.peaks.set k (some p) }
  (s.setFld (tempReg k) 7 0 (unsigned 8 t)).setFld (tempReg k) 15 8 (unsigned 8 p)

/-- A write of CLEAR in a temperature register sets PEAK to NOW (R511). -/
def State.afterTempClear (k : Nat) (v : Word) (s : State) : State :=
  if v.getLsbD 31 then
    let t := s.pwr.temps.getD k 0
    (s.updPwr fun w => { w with peaks := w.peaks.set k (some t) }).setFld (tempReg k) 15 8 (unsigned 8 t)
  else s

/-- Since when a condition has held: kept while it holds, started now where it begins. -/
def sinceWhen (now : Nat) (b : Bool) (o : Option Nat) : Option Nat :=
  if b then (match o with | some t => some t | none => some now) else none

/-- A condition that began at a time has lasted n ns. -/
def lasted (now n : Nat) (o : Option Nat) : Bool :=
  match o with
  | some t => t + n ≤ now
  | none => false

/-- THERMAL_SAMPLE (R508 to R510): the 20 sensors, 4c to 4c + 3 of cluster c, 16 to 19 at die level. -/
def execThermalSample (temps : List Int) (s : State) : Host.Outcome State Fault Refusal :=
  .next (s.whenLive fun s =>
    let v := (List.range 20).map fun i => (i, temps.getD i 0)
    let group := fun k => hottestOf ((v.drop (4 * k)).take 4)
    let top := hottestOf v
    let trip := (s.fld Reg.PWR_THERM 23 16 : Int)
    let high := (s.fld Reg.PWR_THERM 7 0 : Int)
    let s := (List.range 5).foldl (fun s k => s.showTemp k (group k).2) s
    let addr := top.1 + unsigned 8 top.2 * 2 ^ 8
    let newHigh := high ≤ top.2 && !s.pwr.high
    let newTrip := trip ≤ top.2 && !s.pwr.trip
    let ch := sinceWhen s.refNs (decide (top.2 < high - 5)) s.pwr.coolHigh
    let ct := sinceWhen s.refNs (decide (top.2 < trip - 5)) s.pwr.coolTrip
    let hot := v.map fun x => sinceWhen s.refNs (decide (trip ≤ x.2)) (s.pwr.hotSince.getD x.1 none)
    let s := s.updPwr fun p =>
      { p with high := (p.high || newHigh) && !lasted s.refNs 100000000 ch, trip := (p.trip || newTrip) && !lasted s.refNs 100000000 ct, coolHigh := ch, coolTrip := ct, hotSince := hot, scorched := p.scorched || decide (trip + 10 ≤ top.2), hottest := (top.1, unsigned 8 top.2) }
    let s := if newHigh then s.report 0x102 Kind.TEMP_HIGH 0 addr else s
    if newTrip then ((s.updPwr fun p => { p with limit := 95 }).writeCaps 95).report 0x102 Kind.TEMP_TRIP 0 addr else s)

/-- THERMAL_SHUTDOWN (R510): a sensor has stayed at or above TRIP_C for 10 ms, or one has reached TRIP_C + 10. -/
def execThermalShutdown (s : State) : Host.Outcome State Fault Refusal :=
  .next (s.whenLive fun s =>
    if s.pwr.scorched || s.pwr.hotSince.any (lasted s.refNs 10000000) then
      { s.report 0x102 Kind.TEMP_TRIP 0 (s.pwr.hottest.1 + s.pwr.hottest.2 * 2 ^ 8 + 2 ^ 38) with phase := .shutdown }
    else s)

/-- SUPPLY_LOW (R506, R546): VDD_CORE has stayed below 0.69 V for 10 µs; below 0.66 V nothing is guaranteed. [DESIGN CHOICE, log entries 14, 101] -/
def execSupplyLow (mv : Nat) (s : State) : Host.Outcome State Fault Refusal :=
  if mv < 660 then .fault .belowSurvival
  else .next (s.whenLive fun s => if mv < 690 then s.report 0x102 Kind.SUPPLY_LOW 0 (mv * 2 ^ 16) else s)

/-- REG_FAULT (R506): a cluster rail has stayed more than 15 mV from its target for 100 µs. -/
def execRegFault (cluster : ClusterId) (mv : BitVec 12) (s : State) : Host.Outcome State Fault Refusal :=
  .next (s.whenLive fun s =>
    let r := Reg.PWR_REG_C cluster.val
    ((s.setBit r 31 false).setFld r 11 0 mv.toNat).report 0x102 Kind.REG_FAULT 0 (cluster.val + mv.toNat * 2 ^ 16))

end Sys2Proof.Machine
end

