-- ==== Sys2Proof/Machine/JobRun.lean ====
section
/-!
DEFINITION. From an accepted job to its last command: rank and units (R281, R315, R316), placement (R276, R280, R314, R319),
the start of a command with its checks and provisional selvages (R206, R280, R281, R421, R424), its end with its selvages and
charge (R285, R317, R421), deadlines (R285), FENCE (R282).
-/
namespace Sys2Proof.Machine

/-! ### Rank -/

/-- The graph of a node's job. -/
def Job.graph? (j : Job) : Option Nat := match j.src with | .node g _ _ => some g | .ring .. => none

/-- What orders two jobs of one rank (R315): deadline, then graph and node, or stall, ring and SEQ. [DESIGN CHOICE, log entry 57] -/
def State.order (s : State) (j : Job) : List Nat :=
  let dl := j.deadline.getD 0
  match j.src with
  | .node g _ k => if s.rank j = 1 then [dl, g, k] else [dl, j.stall, 64 + g, k]
  | .ring n q => [dl, j.stall, n, q]

/-- Lexicographic order. -/
def lexLt : List Nat → List Nat → Bool
  | a :: x, b :: y => a < b || (a == b && lexLt x y)
  | [], _ :: _ => true
  | _, [] => false

/-- Job a goes before job b on a core. [DESIGN CHOICE, log entry 57] -/
def State.before (s : State) (a b : Job) : Bool := s.rank a < s.rank b || (s.rank a == s.rank b && lexLt (s.order a) (s.order b))

/-! ### Units -/

/-- The units that feeder work on some layers holds: the engine for KIND 0, the tidy units that the other kinds name (R137, R151). -/
def layerNeed (ls : List Layer) : List Nat :=
  let tidy := ls.filter fun l => l.kind != 0
  [b2n (ls.any fun l => l.kind == 0), 1, if tidy.any Layer.both then 2 else b2n !tidy.isEmpty, 0]

/-- The units of its core that a command runs on (R279): engine, feeder, tidy units, porters. -/
def State.unitNeed (s : State) (g : Nat) (d : List Byte) : List Nat :=
  match opcodeOf d with
  | 0x01 => [1, 0, 0, 0]
  | 0x02 => layerNeed [convLayer d]
  | 0x03 => layerNeed (fusedLayers d (s.fusedView g d))
  | 0x04 => [0, 0, if (tidyD d).both then 2 else 1, 0]
  | 0x05 => [1, 0, 2, 0]
  | 0x06 => [0, 0, if (decodeD d).both then 2 else 1, 0]
  | 0x07 => [0, 0, 0, 1]
  | 0x08 => [0, 0, 0, 1]
  | 0x09 => [0, 0, 0, 1]
  | 0x0A => [0, 0, 0, 1]
  | _ => [0, 0, 0, 0]

/-- What a core has of each (R20). -/
def unitCount : List Nat := [1, 1, 2, 2]

/-- A command holds its units. -/
def Cmd.holds (c : Cmd) : Bool := c.stage = .started || c.stage = .running

/-- The jobs placed on a core that are not pre-empted. -/
def State.jobsOn (s : State) (g : Nat) : List Job := s.cmd.jobs.filter fun j => j.phase = .placed && j.core == g && !j.preempted

/-- The units of a core in use. -/
def State.unitsUsed (s : State) (g : Nat) : List Nat :=
  ((s.jobsOn g).flatMap fun j => (j.cmds.filter Cmd.holds).map fun c => s.unitNeed g c.desc).foldl (fun a b => List.zipWith (· + ·) a b) [0, 0, 0, 0]

/-- Units enough for a need beside those in use. -/
def unitsFit (used need : List Nat) : Bool := ((used.zip need).zip unitCount).all fun x => x.1.1 + x.1.2 ≤ x.2

/-- A DECRYPT. -/
def isDecrypt (d : List Byte) : Bool := opcodeOf d == 0x0A && (moveD d).decrypt

/-- Which of its core's two tidy units (2) or porters (3) a command holds: both, or its own. -/
def State.seats (s : State) (g kind : Nat) (c : Cmd) : List Bool :=
  match (s.unitNeed g c.desc).getD kind 0 with
  | 0 => []
  | 1 => [c.second]
  | _ => [false, true]

/-- The tidy units or porters of a core in use. -/
def State.seated (s : State) (g kind : Nat) : List Bool :=
  (s.jobsOn g).flatMap fun j => (j.cmds.filter Cmd.holds).flatMap (s.seats g kind)

/-- The porters that keep the state of a DECRYPT which a pre-emption stopped, from other DECRYPTs (R257). -/
def State.keptPorters (s : State) (g : Nat) : List Bool :=
  (s.cmd.jobs.filter fun j => j.phase = .placed && j.core == g && j.preempted).flatMap fun j =>
    (j.cmds.filter fun c => c.holds && isDecrypt c.desc).map (·.second)

/-- The unit of two that a command of one takes: the first unless that is in use, or keeps another DECRYPT's state (R257). [DESIGN CHOICE, log entry 107] -/
def takesSecond (d : List Byte) (tidy porters kept : List Bool) : Bool :=
  if opcodeOf d = 0x0A then porters.contains false || (isDecrypt d && kept.contains false) else if opcodeOf d < 0x07 then tidy.contains false else porters.contains false

/-- A porter is free for a DECRYPT: not in use, and without the state of another. -/
def State.decryptOpen (s : State) (g : Nat) : Bool :=
  [false, true].any fun b => !(s.seated g 3).contains b && !(s.keptPorters g).contains b

/-- The unit of two that a command takes as it starts. [DESIGN CHOICE, log entry 107] -/
def State.seatFor (s : State) (g : Nat) (d : List Byte) : Bool := takesSecond d (s.seated g 2) (s.seated g 3) (s.keptPorters g)

/-- The units of two that the commands of a job take again when it goes on; a DECRYPT goes on in its own porter (R257). -/
def State.reseat (s : State) (g : Nat) (tidy porters : List Bool) : List Cmd → List Cmd
  | [] => []
  | c :: l =>
    if !c.holds then c :: s.reseat g tidy porters l
    else
      let c := if isDecrypt c.desc then c else { c with second := takesSecond c.desc tidy porters [] }
      c :: s.reseat g (tidy ++ s.seats g 2 c) (porters ++ s.seats g 3 c) l

/-- The porters that the DECRYPTs of a job keep. -/
def Job.decryptSeats (j : Job) : List Bool := (j.cmds.filter fun c => c.holds && isDecrypt c.desc).map (·.second)

/-- A command's dependencies, and the FENCEs before it that wait for what is prior, have completed (R281). -/
def Job.depsMet (j : Job) (i : Nat) (d : List Byte) : Bool :=
  (depsOf d).all (fun k => (j.cmd? k).any fun c => c.stage = .done && succeeded c.status)
  && (j.cmds.take i).all fun c => !(opcodeOf c.desc == 0x10 && bitOf (le c.desc 16 1) 0) || c.stage = .done

/-- What an instance of graph g is made of: its own record where the graph has been disabled since, else the graph. -/
def State.instNodes (s : State) (g : Nat) (i : Inst) : List Node := match i.own with | some o => o.nodes | none => (s.graph g).nodes

/-- Every command of an instance but its PUBLISHes has completed with a success (R36, R309). [DESIGN CHOICE, log entry 56] -/
def State.instanceClean (s : State) (g inst : Nat) : Bool :=
  let js := s.cmd.jobs.filter fun j => match j.src with | .node h i _ => h == g && i == inst | .ring .. => false
  some js.length == (((s.graph g).insts.find? (·.id == inst)).map fun i => (s.instNodes g i).length) && js.all fun j => !j.cmds.isEmpty && j.cmds.all fun c => opcodeOf c.desc == 0x13 || (c.stage = .done && succeeded c.status)

/-- The job has started a command. -/
def Job.startedAny (j : Job) : Bool := j.cmds.any fun c => c.began || c.stage ≠ .idle

/-- The job has started no command that uses a unit. -/
def Job.unserved (j : Job) : Bool := j.cmds.all fun c => !usesUnit c.desc || (!c.began && c.stage = .idle)

/-- Every lower SEQ of the job's ring has started (R315). [DESIGN CHOICE, log entry 57] -/
def State.seqTurn (s : State) (j : Job) : Bool :=
  j.startedAny || match j.src with
    | .node .. => true
    | .ring n q => !s.cmd.jobs.any fun k => match k.src with
      | .ring m p => m == n && p < q && (k.phase = .accepted || k.phase = .placed) && !k.ended && !k.startedAny
      | .node .. => false

/-- What must have happened in the job, its ring and its instance before a command may start (R281, R309, R315). [DESIGN CHOICE, log entry 56] -/
def State.mayStart (s : State) (j : Job) (i : Nat) (c : Cmd) : Bool :=
  c.stage = .idle && j.depsMet i c.desc && s.seqTurn j
  && match j.src with
    | .node g inst _ => opcodeOf c.desc != 0x13 || s.instanceClean g inst
    | .ring .. => true

/-- A command that waits for its contexts could have all of them now (R206). -/
def State.grantable (s : State) (j : Job) (i : Nat) (c : Cmd) : Bool :=
  c.stage = .ctxWait && s.canHold j.id i (s.cmdInfo j.core c.desc).excl (s.cmdInfo j.core c.desc).ctxs

/-- The job has a command that could take a unit of its core now, or holds one. -/
def State.eligible (s : State) (j : Job) : Bool :=
  j.cmds.zipIdx.any fun p => usesUnit p.1.desc && (p.1.holds || s.mayStart j p.2 p.1 || s.grantable j p.2 p.1)

/-- The units that a pre-empted job takes back when it resumes. -/
def State.resumeNeed (s : State) (j : Job) : List Nat :=
  ((j.cmds.filter Cmd.holds).map fun c => s.unitNeed j.core c.desc).foldl (fun a b => List.zipWith (· + ·) a b) [0, 0, 0, 0]

/-- A command that waits to start, or a pre-empted job that waits to resume, would lose a unit to the need given. -/
def State.contends (s : State) (j : Job) (used need : List Nat) : Bool :=
  let loses := fun (n : List Nat) => unitsFit used n && !unitsFit (List.zipWith (· + ·) used need) n
  if j.preempted then loses (s.resumeNeed j)
  else j.cmds.zipIdx.any fun p => usesUnit p.1.desc && (s.mayStart j p.2 p.1 || s.grantable j p.2 p.1) && loses (s.unitNeed j.core p.1.desc)

/-! ### Slack (R51, R324) -/

/-- The deadline work placed on a core or homed there and not yet placed: absolute deadlines in ns, remaining budgets in bit-steps. -/
def State.deadlineLoad (s : State) (g : Nat) : List (Nat × Rat) :=
  (s.cmd.jobs.filterMap fun j =>
    if j.phase = .placed ∧ j.core = g ∧ s.rank j ≤ 2 ∧ !j.ended then
      j.deadline.map fun d => (d, sumRat (j.cmds.map fun c => if c.stage = .done then 0 else (s.cmdInfo g c.desc).budget))
    else none)
  ++ s.sch.tasks.flatMap fun t =>
    if t.core = g then
      (s.graph t.graph).insts.filterMap fun i =>
        if i.placed.contains t.node || i.missed || i.missedNodes.contains t.node then none
        else (s.instNodes t.graph i)[t.node]?.map fun x => (i.fired + x.dlUs * 1000, t.c)
    else []

/-- All of a core's remaining deadline work still fits before its deadlines at floor pace after some other bit-steps of work there (R51). -/
def State.deadlineFits (s : State) (g : Nat) (steps : Rat) : Bool :=
  let l := s.deadlineLoad g
  l.all fun x => decide ((s.refNs : Rat) + (steps + sumRat (l.map fun y => if y.1 ≤ x.1 then y.2 else 0)) / 950 * 1000 ≤ (x.1 : Rat))

/-! ### Best-effort slices (R316, R320) -/

/-- The best-effort stalls with work on a core. -/
def State.sliceStalls (s : State) (g : Nat) : List Nat :=
  (List.range 16).filter fun n => s.cmd.jobs.any fun j => j.phase = .placed && j.core == g && j.stall == n && s.rank j == 4 && (j.preempted || s.eligible j)

/-- V of a stall. -/
def State.virt (s : State) (n : Nat) : Rat := s.sch.virt.getD n 0

/-- The stall of least virtual time, the lowest number winning ties. [DESIGN CHOICE, log entry 88] -/
def State.leastVirt (s : State) : List Nat → Option Nat
  | [] => none
  | n :: t => match s.leastVirt t with
    | none => some n
    | some m => if s.virt m < s.virt n then some m else some n

/-- A command that holds its units stands before a run that it may not start (R320). -/
def State.barredRun (s : State) (j : Job) (c : Cmd) : Bool := opcodeOf c.desc == 2 && c.eng.runDue && s.barred j c.desc

/-- All the work that a stall could start or go on with on a core is barred to it. -/
def State.allBarred (s : State) (g n : Nat) : Bool :=
  !(s.cmd.jobs.any fun j => j.phase = .placed && j.core == g && j.stall == n && s.rank j == 4
    && j.cmds.zipIdx.any fun p => usesUnit p.1.desc
      && ((p.1.holds && !s.barredRun j p.1) || ((s.mayStart j p.2 p.1 || s.grantable j p.2 p.1) && !j.preempted && !s.barred j p.1.desc)
        || (j.preempted && !j.cmds.any Cmd.holds)))

/-- Take min(DEBT, half a slice) off a stall's debt (R320): how much. -/
def State.repay (s : State) (n : Nat) : Nat × State :=
  let d := min (s.debt n) (s.fld Reg.SCH_BE_SLICE 17 0 / 2)
  (d, s.setFld (Reg.SCH_STALL_DEBT n) 23 0 (s.debt n - d))

/-- Grant the next slice of a core among some stalls (R316, R320); a stall that can start nothing repays debt and is passed over. [DESIGN CHOICE, log entry 88] -/
def State.grantAmong (g : Nat) : Nat → List Nat → State → State
  | 0, _, s => s
  | fuel + 1, l, s =>
    match s.leastVirt l with
    | none => s
    | some n =>
      let r := s.repay n
      if s.allBarred g n then
        let s : State := { r.2 with sch := { r.2.sch with virt := updAt (fun v => v + (r.1 : Rat) / (s.weight n : Rat)) n r.2.sch.virt } }
        State.grantAmong g fuel (l.filter (· != n)) s
      else { r.2 with sch := { r.2.sch with slice := r.2.sch.slice.set g (some (n, s.fld Reg.SCH_BE_SLICE 17 0 - r.1)) } }

/-- Grant a slice on a core that has none. -/
def State.grantSlice (s : State) (g : Nat) : State :=
  if (s.sch.slice.getD g none).isSome then s else State.grantAmong g 16 (s.sliceStalls g) s

/-- A stall becomes active (R316): its virtual time is at least the least of the active ones. -/
def State.activate (s : State) (n : Nat) : State :=
  if s.sch.active.contains n then s
  else
    let v := match s.leastVirt s.sch.active with
      | some m => max (s.virt n) (s.virt m)
      | none => s.virt n
    { s with sch := { s.sch with active := s.sch.active ++ [n], virt := s.sch.virt.set n v } }

/-- Stalls without best-effort work are active no longer; a slice whose stall has none left on the core ends. -/
def State.restStalls (s : State) : State :=
  { s with sch := { s.sch with
    active := s.sch.active.filter fun n => s.cmd.jobs.any fun j => j.phase = .placed && j.stall == n && s.rank j == 4 && !j.ended,
    slice := s.sch.slice.mapIdx fun g x => x.filter fun y => (s.sliceStalls g).contains y.1 } }

/-! ### Placement (R276, R280, R314, R319) -/

/-- Commands known only by number: each with a final status. -/
def fixedCmds (n status : Nat) (late : Bool) : List Cmd := List.replicate n { desc := [], stage := .done, status := status, late := late }

/-- The list's read has failed (R276): the job ends with that status, no command deciding it. -/
def State.listFailed (s : State) (id status : Nat) : State :=
  s.updJob id fun j => { j with early := some (status, 0xFFFF), cmds := fixedCmds j.nCmds St.ABANDONED false }

/-- The bytes of a command list of n commands, walked by their SIZE bits (R276). -/
def listBytes : Nat → (Nat → Byte) → Nat → Nat
  | 0, _, o => o
  | n + 1, f, o => listBytes n f (o + if (f (o + 1)).getLsbD 4 then 128 else 64)

/-- A list's selvage and payload as read: 0 where they pass, 1 where the selvage is wrong, 2 where the payload CRC is (R276). -/
def listSelvage (stall : Nat) (list sel : List Byte) : Nat :=
  let p := provOf sel
  if !selvageCrcOk sel || bits (le sel 13 1) 7 4 != 1 || le sel 20 4 != list.length || p.hasTime || p.flags != 0 || bits (le sel 13 1) 3 0 != stall then 1
  else if le sel 24 4 != (crc32c list).toNat then 2
  else 0

/-- Report a list's selvage failure (R276). -/
def State.listReport (s : State) (stall what selAddr base : Nat) : State :=
  s.report 0x100 (if what = 1 then Kind.SELVAGE_CRC else Kind.PAYLOAD_CRC) stall (if what = 1 then selAddr else base)

/-- Read a command list from device memory with the job's stall, and check it (R276). -/
def readList (stall n base : Nat) : Run (List (List Byte)) := do
  let s ← get
  let t := s.tagOf stall 0x100
  let len := listBytes n (fun o => s.byte (base + o)) 0
  let list ← readUnit t base len
  let sel ← readUnit t (base + len) 32
  let w := listSelvage stall list sel
  if w ≠ 0 then do
    change fun s => s.listReport stall w (base + len) base
    throw St.CRC_MISMATCH
  pure ((cutList n list).getD [])

/-- Read a command list from host memory: the window's READs, and what the host answered (R276, R403); none while the window is not bound. [DESIGN CHOICE, log entries 59, 103] -/
def State.readHostList (s : State) (j : Job) (data : List Byte) : Option (Except Nat (List (List Byte)) × State) :=
  let w := refWin j.list
  let refused (s : State) : Option (Except Nat (List (List Byte)) × State) := some (.error St.FIREWALL, s.reportRefusal j.stall (hostAddrField j.list))
  if w = 0 then refused s
  else match s.winSession w with
    | none => none
    | some x =>
      let len := listBytes j.nCmds (fun o => data.getD o 0) 0
      let off := refOff j.list
      match s.winRead w off (len + 32) with
      | none => refused s
      | some _ =>
        let s := (cutParts ((s.session? x).elim 256 (·.maxData)) off (len + 32)).foldl (fun s p => s.readNow x w p.1 p.2) s
        if data.length < len + 32 then refused s
        else
          let list := data.take len
          let what := listSelvage j.stall list (slice data len 32)
          if what ≠ 0 then some (.error St.CRC_MISMATCH, s.listReport j.stall what (hostAddrField (j.list + len)) (hostAddrField j.list))
          else some (.ok ((cutList j.nCmds list).getD []), s)

/-- A placement check fails (R280): the failing command takes the status, every other command is abandoned. A FIREWALL of a stream context that is not the stall's is recorded (R16, R353, R354). [DESIGN CHOICE, log entry 103] -/
def State.rejectJob (s : State) (id i status : Nat) : State :=
  let s := match s.job? id with
    | some j => if status = St.FIREWALL then s.reportRefusal j.stall (0x3000000000 + Reg.ING_STR_CTRL (le ((j.cmd? i).elim [] (·.desc)) 16 1 % 128)) else s
    | none => s
  s.updJob id fun j => { j with cmds := j.cmds.mapIdx fun k c => { c with stage := .done, status := if k = i then status else St.ABANDONED } }

/-- The first command whose descriptor checks fail on core g, with its status: R280, and R319's segments. -/
def State.firstBad (s : State) (g : Nat) (j : Job) : Option (Nat × Nat) :=
  j.cmds.zipIdx.findSome? fun p =>
    let st := s.checkCmd j.graph? j.stall p.2 p.1.desc
    if st ≠ 0 then some (p.2, st)
    else if s.allow j.stall < (s.cmdInfo g p.1.desc).segment then some (p.2, St.OUT_OF_LIMIT)
    else none

/-- Place a job whose commands are known (R280, R314): on a fixed core, or on the best candidate. [DEDUCED, log entry 48; DESIGN CHOICE, log entry 51] -/
def State.placeKnown (s : State) (id : Nat) (home : Option Nat) (depOuts : List (Nat × Nat)) : State :=
  match s.job? id with
  | none => s
  | some j =>
    let ds := j.cmds.map (·.desc)
    let cs := s.candidates j.stall j.coreMask ds
    if cs.isEmpty then s.rejectJob id (s.planWidthCmd j.stall j.coreMask ds) St.PLAN_WIDTH
    else
      let core := match home with
        | some g => if s.openCore g then some g else none
        | none => s.choose (cs.filter s.openCore) ds depOuts
      match core with
      | none => s
      | some g =>
        match s.firstBad g j with
        | some (i, st) => s.rejectJob id i st
        | none =>
          let s := s.updJob id fun j => { j with phase := .placed, core := g }
          if s.rank j = 4 then s.activate j.stall else s

/-- On its ring a lower SEQ still waits to be placed (R315). -/
def State.ringTurn (s : State) (j : Job) : Bool :=
  match j.src with
  | .node .. => true
  | .ring n q => !s.cmd.jobs.any fun k => match k.src with | .ring m p => m == n && p < q && k.phase = .accepted && !k.ended | .node .. => false

/-- Completed records of a ring that are held on-die (R403). -/
def State.heldRecords (s : State) (n : Nat) : Nat := (s.cmd.jobs.filter fun j => j.ring? == some n && (j.phase = .completed || j.phase = .publishing)).length

/-- A ring job may be placed now: its stall is enabled, its turn has come, the scheduler core runs (R304, R315, R296, R403). -/
def State.placeable (s : State) (j : Job) : Bool :=
  s.schedUp && j.phase = .accepted && !j.ended && j.early.isNone && s.stallEnabled j.stall && s.ringTurn j
  && match j.ring? with
    | some n => s.journalOk || s.heldRecords n < 1024
    | none => false

/-- JOB_PLACE (R276, R280, R314): the list is read once, the core chosen, every descriptor check run. -/
def execJobPlace (job : Nat) (data : List Byte) (s : State) : Host.Outcome State Fault Refusal :=
  .next (match s.job? job with
    | none => s
    | some j =>
      if !s.placeable j then s
      else if !j.cmds.isEmpty then s.placeKnown job none []
      else
        let r : Option (Except Nat (List (List Byte)) × State) :=
          if j.listDev then some (runOn (readList j.stall j.nCmds j.list) s) else s.readHostList j data
        match r with
        | none => s
        | some (.error st, s) => s.listFailed job st
        | some (.ok ds, s) => (s.updJob job fun j => { j with cmds := ds.map fun d => { desc := d } }).placeKnown job none [])

/-! ### The start of a command -/

/-- The unit that reads and writes a command's buffers: of its core, or its port or the image pipeline. [DESIGN CHOICE, log entry 91] -/
def Job.tagFor (j : Job) (s : State) (c : Cmd) (u : Nat) : Tag :=
  match opcodeOf c.desc with
  | 0x13 => s.tagOf j.stall (0x140 + (pubD c.desc).port)
  | 0x14 => s.tagOf j.stall 0x120
  | 0x15 => s.tagOf j.stall 0x100
  | _ => j.tag s (if u = 2 ∨ u = 4 then u + b2n c.second else u)

/-- The start checks that read more than the descriptor (R280, R424): a command's own tables, its selvages in descriptor order, its contexts. They give the propagated part of its outputs' selvages. [DEDUCED, log entry 48] -/
def startChecks (j : Job) (c : Cmd) : Run Prov := do
  let s ← get
  let d := c.desc
  let port := j.portTag s c
  let g := j.core
  let info := s.cmdInfo g d
  let refused : Nat :=
    match opcodeOf d with
    | 0x01 => if s.width g < info.width then St.PLAN_WIDTH else 0
    | 0x02 => if s.width g < info.width then St.PLAN_WIDTH else 0
    | 0x03 => checkFusedStart (s.width g) d (s.fusedView g d)
    | 0x04 =>
      let t := tidyD d
      checkTidyStart d (s.peek (boltAddr g t.chain) (t.n * 16)) (s.peek (boltAddr g t.tensors) ((t.nIn + t.nOut) * 32))
    | 0x05 => checkAttnStart (s.ctx (attnD d).ctx).latentW d
    | _ => 0
  if refused ≠ 0 then throw refused
  let ins ← checkInputs (j.tagFor s c) (flagRefuseOf d) 0 info.ins
  match opcodeOf d with
  | 0x05 => do
    let p ← startAttn (j.tag s 2) g d
    pure (provOfInputs (ins ++ [p]) 0)
  | 0x06 => do
    let p ← startDecode (j.tag s (2 + b2n c.second)) g d
    pure (provOfInputs (ins ++ [p]) 0)
  | 0x07 => do startKvScatter port g d; pure (provOfInputs ins 0)
  | 0x08 => do startCtxCreate port d; pure {}
  | 0x09 => do startCtxReset port d; pure {}
  | 0x0A => pure (if (moveD d).selvage = 1 then provOfInputs ins 0 else {})
  | _ => pure (provOfInputs ins 0)

/-- The outputs whose selvages open at the start and close at the end of a command: STATS_READ opens its own when its record comes, and a MOVE to another device sends its own. -/
def State.framedOuts (s : State) (g : Nat) (d : List Byte) : List Buf :=
  if opcodeOf d = 0x14 then []
  else if opcodeOf d = 0x0A then (match regionOf (moveD d).dst with | .remote _ _ => [] | _ => (s.cmdInfo g d).outs)
  else (s.cmdInfo g d).outs

/-- The write records of a SENSOR_WRITE, read and judged when it starts (R354); no bytes for another command. -/
def readRecords (j : Job) (d : List Byte) : Run (List Byte) := do
  let s ← get
  let x := sensD d
  if opcodeOf d ≠ 0x15 ∨ x.n = 0 then pure []
  else do
    let b ← readMem (s.tagOf j.stall 0x100) (boltAddr j.core x.off) (8 * x.n)
    if (List.range x.n).any (recBad b) then throw St.BAD_FORMAT
    pure b

/-- The part of a start that follows the grant of contexts: checks, provisional selvages, and zeros where the layout leaves gaps. -/
def beginBody (id i : Nat) (j : Job) (c : Cmd) : Run Unit := do
  let p ← startChecks j c
  let recs ← readRecords j c.desc
  let s ← get
  eachDo (fun b => do
    openOutput (j.tagFor s c b.unit) b
    zeroGaps (j.tagFor s c b.unit) b) (s.framedOuts j.core c.desc)
  change fun s => s.updCmd id i fun c => { c with stage := .started, prov := p, held := recs }

/-- A command starts (R280, R206): it takes its contexts at once or waits for them; its checks run; a failed check ends it. -/
def State.beginCmd (s : State) (id i : Nat) : State :=
  match s.job? id with
  | none => s
  | some j =>
    match j.cmd? i with
    | none => s
    | some c =>
      let info := s.cmdInfo j.core c.desc
      if !info.ctxs.isEmpty ∧ !s.canHold id i info.excl info.ctxs then s.updCmd id i fun c => { c with stage := .ctxWait }
      else
        let s := if info.ctxs.isEmpty then s else s.hold id i info.excl info.ctxs
        let seat := s.seatFor j.core c.desc
        let s := s.updCmd id i fun c => { c with began := true, stage := .started, budget := info.budget.ceil.toNat, second := seat }
        match runOn (beginBody id i j { c with second := seat }) s with
        | (.ok _, s') => s'
        | (.error st, s') => s'.finishCmd id i st

/-- An extent of LPDDR5X meets a region whose initialisation runs (R248). [DESIGN CHOICE, log entry 38] -/
def State.meetsInit (s : State) (x : Nat × Nat) : Bool :=
  x.1 < 0x1000000000 && (List.range 64).any fun n =>
    s.bit (Reg.SAF_FWR_CTRL n) 0 && s.bit (Reg.SAF_FWR_CTRL n) 8
    && overlap x.1 x.2 (s.fld (Reg.SAF_FWR_BASE n) 15 0 * 2 ^ 20) (s.fwSize n * 2 ^ 20)

/-- An extent of the command lies in an LPDDR5X region whose initialisation runs: its accesses wait (R248). [DESIGN CHOICE, log entry 38] -/
def State.waitsInit (s : State) (g : Nat) (d : List Byte) : Bool := (s.cmdExtents g d).any s.meetsInit

/-! ### What a spill would have to save (R322) -/

/-- The part of one extent inside another. -/
def meet (x y : Nat × Nat) : Option (Nat × Nat) :=
  let lo := max x.1 y.1
  let hi := min (x.1 + x.2) (y.1 + y.2)
  if lo < hi then some (lo, hi - lo) else none

/-- The live extents of a pre-empted job: what its commands have written so far. [DESIGN CHOICE, log entry 89] -/
def State.liveExtents (s : State) (v : Job) : List (Nat × Nat) :=
  (v.cmds.filter (·.began)).flatMap fun c =>
    let i := s.cmdInfo v.core c.desc
    (i.outs ++ i.areas).map (fun b => (b.base, roundUp b.extent 64 + 32))
      ++ (if opcodeOf c.desc = 0x0A then [((moveD c.desc).dst, (moveD c.desc).dstExtent)] else [])
      ++ (if i.excl then i.ctxs.map fun n => let r := s.ctx n; (r.base, regionBytes r.latentW r.e r.maxLen) else [])

/-- The live bytes of a job that another job's extents outside its own carve-out overlap, not yet spilled. [DESIGN CHOICE, log entry 89] -/
def State.spillOf (s : State) (j v : Job) : List (Nat × Nat) :=
  let mine := (j.cmds.flatMap fun c => s.cmdExtents j.core c.desc).flatMap (s.outside j.core j.stall)
  ((s.liveExtents v).filter fun x => spillable j.core x.1).flatMap (fun x => mine.filterMap (meet x))
    |>.filter fun x => !v.spilled.any fun y => y.1 ≤ x.1 && x.1 + x.2 ≤ y.1 + y.2.1

/-- The pre-empted best-effort jobs of its core that a job of rank 1 or 2 would overwrite, with the bytes to save. -/
def State.spillDue (s : State) (j : Job) : List (Nat × List (Nat × Nat)) :=
  if 2 < s.rank j then []
  else s.cmd.jobs.filterMap fun v =>
    if v.phase = .placed ∧ v.core = j.core ∧ v.preempted ∧ s.rank v = 4 then
      let l := (s.spillOf j v).eraseDups
      if l.isEmpty then none else some (v.id, l)
    else none

/-- The core and the ranks of R315 let the job's command start now. [DESIGN CHOICE, log entry 106] -/
def State.unitsOpen (s : State) (j : Job) (d : List Byte) : Bool :=
  if !usesUnit d then true
  else
    let g := j.core
    let used := s.unitsUsed g
    let need := s.unitNeed g d
    let others := s.cmd.jobs.filter fun k => k.phase = .placed && k.core == g && k.id != j.id
    s.sound g && s.clusterUp (g / 8) && !(s.core g).testing && (s.core g).pendMap.isNone
    && ((s.sch.preempt.getD g none).all fun p => p.victim != j.id && !p.spilling)
    && (s.spillDue j).isEmpty
    && unitsFit used need && !s.barred j d
    && (!isDecrypt d || s.decryptOpen g)
    && others.all (fun k => !(s.rank k < s.rank j && (k.preempted || s.eligible k)) && !(s.rank k == s.rank j && s.rank j < 4 && s.before k j && s.contends k used need))
    && (s.rank j != 4 || ((s.sch.slice.getD g none).any (fun x => x.1 == j.stall) && s.deadlineFits g (s.cmdInfo g d).budget))

/-- How far a ring is from its turn among its stall's on a core (R315): 0 follows the ring served last. -/
def State.ringWait (s : State) (g stall n : Nat) : Nat := (n + 63 - (s.core g).served.getD stall 63) % 64

/-- A rank 4 job of another ring of the stall waits for the core's units: it could take them now. -/
def State.wantsTurn (s : State) (k : Job) : Bool :=
  s.rank k == 4 && k.unserved
  && k.cmds.zipIdx.any fun p => usesUnit p.1.desc && s.mayStart k p.2 p.1 && s.unitsOpen k p.1.desc && !s.waitsInit k.core p.1.desc

/-- The rings of one best-effort stall are served in rotation (R315): no ring nearer its turn waits with a job that could start on the core. -/
def State.ringNext (s : State) (j : Job) : Bool :=
  match j.ring? with
  | none => true
  | some n =>
    s.rank j != 4 || !j.unserved || (s.jobsOn j.core).all fun k =>
      match k.ring? with
      | none => true
      | some m => !(k.stall == j.stall && m != n && s.ringWait j.core j.stall m < s.ringWait j.core j.stall n && s.wantsTurn k)

/-- The core and the order of R315 let the job's command start now. -/
def State.mayUse (s : State) (j : Job) (d : List Byte) : Bool := s.unitsOpen j d && (!usesUnit d || s.ringNext j)

/-- A job's first command on a core's units: its ring has had its turn there (R315). -/
def State.takeTurn (s : State) (j : Job) (d : List Byte) : State :=
  match j.ring? with
  | none => s
  | some n => if s.rank j == 4 && j.unserved && usesUnit d then s.updCore j.core fun c => { c with served := c.served.set j.stall n } else s

/-- COMMAND_START (R281): dependencies, fences, units and rank let the command start; its checks begin (R280, R424). -/
def execCommandStart (job idx : Nat) (errs : List (BitVec 40 × Bool)) (links : List (Fin 16 × Bool)) (s : State) : Host.Outcome State Fault Refusal :=
  .next (match s.job? job with
    | none => s
    | some j =>
      match j.cmd? idx with
      | none => s
      | some c =>
        let s := if s.rank j = 4 then s.grantSlice j.core else s
        if s.schedUp ∧ j.phase = .placed ∧ !j.preempted ∧ s.mayStart j idx c ∧ s.mayUse j c.desc ∧ !s.waitsInit j.core c.desc then
          let s := s.addErrors errs
          let s : State := { s with links := s.links ++ links.map fun l => (l.1.val, l.2) }
          (s.takeTurn j c.desc).beginCmd job idx
        else s)

/-- CONTEXT_GRANT (R206): a command that waited for its contexts gets all of them, and its checks begin, where it could start now (R109, R315, R320, R321). -/
def execContextGrant (job idx : Nat) (s : State) : Host.Outcome State Fault Refusal :=
  .next (match s.job? job with
    | none => s
    | some j =>
      match j.cmd? idx with
      | none => s
      | some c =>
        let s := if s.rank j = 4 then s.grantSlice j.core else s
        if s.schedUp ∧ j.phase = .placed ∧ !j.preempted ∧ c.stage = .ctxWait ∧ s.mayUse j c.desc ∧ !s.waitsInit j.core c.desc then
          (s.takeTurn j c.desc).beginCmd job idx
        else s)

/-! ### The end of a command -/

/-- Commands of a job that have not started take a final status; only those a condition names. -/
def Job.endUnstarted (j : Job) (status : Nat) (late : Bool) : Job :=
  { j with cmds := j.cmds.map fun c => if !c.began ∧ (c.stage = .idle ∨ c.stage = .ctxWait) then { c with stage := .done, status := status, late := late } else c }

/-- The valid selvages of a command that succeeded (R421, R422). -/
def closeBody (j : Job) (c : Cmd) : Run Unit := do
  let s ← get
  let p : Prov := { c.prov with flags := c.prov.flags ||| c.own }
  eachDo (fun b => closeOutput (j.tagFor s c b.unit) b p) (s.framedOuts j.core c.desc)

/-- Charge an ended command to its stall (R317): its budget less what trimming saved. [DESIGN CHOICE, log entry 49] -/
def State.chargeCmd (s : State) (j : Job) (c : Cmd) : State :=
  if c.began then s.charge j.stall (c.budget - c.saved) else s

/-- A node's job that has ended raises its AFTER_JOB signals (R283): it has no journal record, so they are raised where one would be written. [DESIGN CHOICE, log entry 55] -/
def State.nodeSignals (s : State) (id : Nat) : State :=
  match s.job? id with
  | some j => if j.graph?.isSome && j.ended then s.raiseAfter id j.outcome.1 else s
  | none => s

/-- COMMAND_END (R285, R317, R421): the selvages are closed if it succeeded, contexts given up, the stall charged; a failure stops the rest of the job. -/
def execCommandEnd (job idx : Nat) (s : State) : Host.Outcome State Fault Refusal :=
  .next (match s.job? job with
    | none => s
    | some j =>
      match j.cmd? idx with
      | none => s
      | some c =>
        if c.stage ≠ .ending ∨ !j.runs (opcodeOf c.desc) ∨ (usesUnit c.desc && !s.controlUp j.core) then s
        else
          let r := if succeeded c.status then runOn (closeBody j c) s else (.ok (), s)
          let status := match r.1 with | .ok _ => c.status | .error st => st
          let s := (r.2.unhold job idx).chargeCmd j c
          let s := s.updCmd job idx fun c => { c with stage := .done, status := status, late := j.deadlinePassed }
          let s := if succeeded status ∨ status = St.VERSION_MISMATCH then s else s.updJob job fun j => j.endUnstarted St.ABANDONED j.deadlinePassed
          let s := if s.sound j.core then s else match s.job? job with | some j => s.moveAway j | none => s
          let s := s.nodeSignals job
          s.restStalls)

/-! ### Deadlines (R285) -/

/-- A started command that waits and holds no unit (R285). -/
def Cmd.waits (c : Cmd) : Bool :=
  c.holds && (match opcodeOf c.desc with
    | 0x10 => true
    | 0x12 => true
    | 0x14 => true
    | 0x15 => true
    | 0x13 => c.progress == 0
    | _ => false)

/-- The deadline passes (R285): commands that have not started end with DEADLINE_MISSED, and so do those that wait and hold no unit. -/
def Job.passDeadline (j : Job) : Job :=
  let j := { j with deadlinePassed := true }
  if j.cmds.isEmpty then (if j.early.isSome then j else { j with cmds := fixedCmds j.nCmds St.DEADLINE_MISSED true })
  else
    let j := j.endUnstarted St.DEADLINE_MISSED true
    { j with cmds := j.cmds.map fun c => if c.waits then { c with stage := .done, status := St.DEADLINE_MISSED, late := true } else c }

/-- A job passes its deadline: what started and waits is charged as its end (R317). -/
def State.missJob (s : State) (j : Job) : State :=
  (j.cmds.foldl (fun (s : State) c => if c.waits then s.chargeCmd j c else s) s).updJob j.id Job.passDeadline

/-- The Address field of DEADLINE_MISSED for a job (R325). -/
def Job.missAddr (j : Job) : Nat :=
  match j.src with
  | .ring n q => n * 2 ^ 32 + q % 2 ^ 32
  | .node g _ k => 2 ^ 39 + g * 2 ^ 32 + k

/-- JOB_DEADLINE_PASSED (R285, R325): a deadline ring job passes its deadline incomplete. -/
def execJobDeadlinePassed (job : Nat) (s : State) : Host.Outcome State Fault Refusal :=
  .next (match s.job? job with
    | none => s
    | some j =>
      match j.deadline, j.ring? with
      | some d, some _ =>
        if d ≤ s.refNs ∧ !j.deadlinePassed ∧ (j.phase = .accepted ∨ j.phase = .placed) then
          ((s.missJob j).report 0x100 Kind.DEADLINE_MISSED j.stall j.missAddr).restStalls
        else s
      | _, _ => s)

/-! ### FENCE (R282) -/

/-- The condition of a FENCE holds. -/
def State.fenceMet (s : State) (j : Job) (i : Nat) (d : List Byte) : Bool :=
  (!bitOf (le d 16 1) 0 || (j.cmds.take i).all (·.stage = .done)) && (!bitOf (le d 16 1) 1 || le d 24 8 ≤ s.rd64 (Reg.CMD_SIG (le d 17 1)))

/-- A FENCE completes where its condition holds; else it waits, holding no unit. -/
def fenceBody (id i : Nat) (j : Job) (c : Cmd) : Run Unit :=
  change fun s => if s.fenceMet j i c.desc then s.finishCmd id i St.OK else s.updCmd id i fun c => { c with stage := .running }

/-- FENCE (R282). -/
def execFence (job idx : Nat) (s : State) : Host.Outcome State Fault Refusal :=
  .next (runPart s job idx 0x10 .started (fenceBody job idx))

/-- FENCE_CONDITION_MET (R282): a waiting FENCE finds its condition true. -/
def execFenceConditionMet (job idx : Nat) (s : State) : Host.Outcome State Fault Refusal :=
  .next (runPart s job idx 0x10 .running (fenceBody job idx))

end Sys2Proof.Machine
end

