-- ==== Sys2Proof/Machine/Sched.lean ====
section
/-!
DEFINITION. The scheduler core (R302 to R328): stalls and their carve-outs, standing graphs with their triggers, instances and
deadlines, pre-emption, spilling, best-effort slices, and self-test slices in slack.
-/
namespace Sys2Proof.Machine

/-- Change the scheduler's state. -/
def State.updSched (s : State) (f : Sched → Sched) : State := { s with sch := f s.sch }

/-! ### Stalls (R304, R305) -/

/-- The highest free range of n units below top and not below bottom, apart from the enabled entries of a table (R305): its first unit. -/
def State.freeRange (s : State) (off cnt n bottom : Nat) : Nat → Option Nat
  | 0 => if n ≤ 0 then some 0 else none
  | top + 1 =>
    if top + 1 < bottom + n then none
    else
      let base := top + 1 - n
      if (List.range cnt).all fun k => !s.bit (off + 4 * k) 31 || s.fld (off + 4 * k) 21 12 < base || top < s.fld (off + 4 * k) 9 0 then some base
      else s.freeRange off cnt n bottom top

/-- The first disabled entry of a carve-out table. [DESIGN CHOICE, log entry 58] -/
def State.freeEntry (s : State) (off cnt : Nat) : Option Nat := (List.range cnt).find? fun k => !s.bit (off + 4 * k) 31

/-- Give a stall one entry of a core's bolt or skein for n units (R305); none where it does not fit. -/
def State.giveEntry (s : State) (stall g : Nat) (skein : Bool) (n : Nat) : Option State :=
  if n = 0 then some s
  else
    let off := if skein then Reg.SK_CARVE g 0 else Reg.BT_CARVE g 0
    let cnt := if skein then 4 else 8
    match s.freeEntry off cnt, s.freeRange off cnt n (if skein then 128 else 0) (if skein then 192 else 1024) with
    | some k, some base =>
      let s := s.wr (off + 4 * k) (BitVec.ofNat 32 (2 ^ 31 + stall * 2 ^ 24 + (base + n - 1) * 2 ^ 12 + base))
      some (s.updSched fun c => { c with carves := c.carves ++ [(stall, g, skein, k)] })
    | _, _ => none

/-- Disable the entries that a stall had before it was disabled; their ranges become free (R305). -/
def State.dropEntries (s : State) (stall : Nat) : State :=
  let mine := s.sch.oldCarves.filter fun c => c.1 == stall
  let s := mine.foldl (fun (s : State) c => s.setBit (if c.2.2.1 then Reg.SK_CARVE c.2.1 c.2.2.2 else Reg.BT_CARVE c.2.1 c.2.2.2) 31 false) s
  s.updSched fun c => { c with oldCarves := c.oldCarves.filter fun x => x.1 != stall, releasing := c.releasing.filter (· != stall) }

/-- A disabled stall's entries wait for its placed work to finish (R305). -/
def State.retireEntries (s : State) (stall : Nat) : State :=
  s.updSched fun c =>
    { c with oldCarves := c.oldCarves ++ c.carves.filter (fun x => x.1 == stall), carves := c.carves.filter (fun x => x.1 != stall), releasing := c.releasing.filter (· != stall) ++ [stall] }

/-- Give a stall its entries on every core of its CORES (R304, R305). -/
def State.giveAll (s : State) (stall : Nat) : Option State :=
  let bolt := s.fld (Reg.SCH_STALL_CARVE stall) 10 0
  let skein := s.fld (Reg.SCH_STALL_CARVE stall) 22 16
  (List.range 32).foldl (fun (o : Option State) g =>
    o.bind fun s =>
      if s.bit (Reg.SCH_STALL_CORES stall) g then (s.giveEntry stall g false bolt).bind fun s => s.giveEntry stall g true skein
      else some s) (some s)

/-- Number of cores in a stall's CORES. -/
def State.coreCount (s : State) (stall : Nat) : Nat := ((List.range 32).filter fun g => s.bit (Reg.SCH_STALL_CORES stall) g).length

/-- The spill area of a stall lies in enabled firewall regions that let it read and write (R304). -/
def State.spillOk (s : State) (stall : Nat) : Bool :=
  let base := s.rd64 (Reg.SCH_STALL_SPILL stall)
  let n := s.fld (Reg.SCH_STALL_SPILL_MIB stall) 15 0 * 2 ^ 20
  base % 65536 == 0 && base + n ≤ s.ddrBytes
  && (List.range (ceilDiv (base + n) (2 ^ 20) - base / 2 ^ 20)).all fun k =>
    let a := (base / 2 ^ 20 + k) * 2 ^ 20
    (s.fwRegion (a / 2 ^ 20)).isSome && s.ddrAllowed stall .read a && s.ddrAllowed stall .write a

/-- Work of a stall is placed and not finished. -/
def State.placedWork (s : State) (n : Nat) : Bool := s.cmd.jobs.any fun j => j.stall == n && j.phase = .placed && !j.ended

/-- The checks of R304 in order: 0 where the stall is admitted, with the state that holds its carve-outs. Entries from before that its placed work still holds stay beside the new ones. [DESIGN CHOICE, log entry 106] -/
def State.admitStall (s : State) (n : Nat) : Nat × State :=
  let w := s.fld (Reg.SCH_STALL_CTRL n) 9 0
  let be := !s.bit (Reg.SCH_STALL_CTRL n) 30
  if w = 0 ∨ 1000 < w ∨ 237500 < s.allow n then (1, s)
  else match (if s.placedWork n then s else s.dropEntries n).giveAll n with
    | none => (2, s)
    | some s' =>
      if be && decide (s.fld (Reg.SCH_STALL_SPILL_MIB n) 15 0 < ceilDiv (17 * s.coreCount n) 4) then (3, s)
      else if be && !s.spillOk n then (4, s)
      else (0, s')

/-- What a write of SCH_STALL_CTRL_Sn leaves, its RESET apart (R304, R327): stall 0 keeps its values, CLASS is kept while ENABLE is 1, ENABLE = 1 admits, ENABLE = 0 lets placed work finish. -/
def State.afterStallCtrl (n : Nat) (old s : State) : State :=
  let r := Reg.SCH_STALL_CTRL n
  if n = 0 then s.wr r (old.rd r)
  else if old.bit r 31 then
    let s := s.setBit r 30 (old.bit r 30)
    if s.bit r 31 then s else s.retireEntries n
  else if s.bit r 31 then
    let a := s.admitStall n
    (a.2.setBit r 31 (a.1 == 0)).setFld (Reg.SCH_STALL_STATUS n) 3 0 a.1
  else s

/-- What a write of a stall's other registers leaves: ignored for stall 0 and while ENABLE is 1 (R303, R304); the spill base has no bits above 39 (R327). -/
def State.afterStallReg (n off : Nat) (old s : State) : State :=
  if n = 0 || old.bit (Reg.SCH_STALL_CTRL n) 31 then s.wr off (old.rd off)
  else if off = Reg.SCH_STALL_SPILL n + 4 then s.setFld off 31 8 0 else s

/-- STALL_CARVE_RELEASE (R305): the entries of a disabled stall are disabled once its placed work has finished. -/
def execStallCarveRelease (stall : StallId) (s : State) : Host.Outcome State Fault Refusal :=
  .next (if s.sch.releasing.contains stall.val && !s.placedWork stall.val then s.dropEntries stall.val else s)

/-- Whether any deadline graph is enabled (R326). -/
def State.deadlineGraph (s : State) : Bool :=
  (List.range 64).any fun n => s.bit (Reg.SCH_GRAPH_CTRL n) 31 && s.deadlineStall (s.graphStall n)

/-- What a write of SCH_BE_SLICE or SCH_TEST_SLICE leaves (R326): values out of range leave the field, and the test slice stands while a deadline graph is enabled. -/
def State.afterSlice (off lo : Nat) (old s : State) : State :=
  let v := s.fld off 17 0
  if v < lo ∨ 237500 < v ∨ (off = Reg.SCH_TEST_SLICE ∧ old.deadlineGraph) then s.wr off (old.rd off) else s

/-! ### Loading a graph (R307, R310) -/

/-- A node record (R307). -/
def nodeOf (b : List Byte) (cmds : List (List Byte)) : Node :=
  { list := le b 0 8, nCmds := le b 8 2, deps := (List.range (bits (le b 10 1) 2 0)).map fun k => le b (16 + k) 1,
    coreMask := le b 12 4, dlUs := le b 20 4, cmds := cmds }

/-- A node record is well formed (R310, check 3); its list lies in LPDDR5X or a bolt (R34). -/
def nodeOk (k : Nat) (b : List Byte) : Bool :=
  let n := bits (le b 10 1) 2 0
  le b 0 8 % 64 == 0 && le b 0 8 < 2 ^ 40 && (match regionOf (le b 0 8) with | .ddr => true | .bolt _ _ => true | _ => false) && 1 ≤ le b 8 2 && le b 8 2 ≤ 1024 && n ≤ 4 && le b 10 1 < 8 && le b 11 1 == 0
  && (List.range 4).all (fun i => if i < n then le b (16 + i) 1 < k else le b (16 + i) 1 == 0)
  && zeroBytes b 24 31

/-- Read the node table of a graph (R307), checked as a command list is (R276): its records. -/
def readNodes (stall base n : Nat) : Run (List (List Byte)) := do
  let s ← get
  let t := s.tagOf stall 0x100
  let ext := roundUp (n * 32) 64
  let tab ← readUnit t base ext
  let sel ← readUnit t (base + ext) 32
  let w := listSelvage stall tab sel
  if w ≠ 0 then do
    change fun s => s.listReport stall w (base + ext) base
    throw St.CRC_MISMATCH
  pure ((List.range n).map fun k => slice tab (32 * k) 32)

/-- Read the lists of some node records in order. -/
def readLists (stall : Nat) : List (List Byte) → Run (List Node)
  | [] => pure []
  | b :: t => do
    let ds ← readList stall (le b 8 2) (le b 0 8)
    let r ← readLists stall t
    pure (nodeOf b ds :: r)

/-- The checks 4 to 6 of R310 on a loaded graph. -/
def State.nodeErr (s : State) (n stall : Nat) (nodes : List Node) : Nat :=
  if nodes.any fun x => x.cmds.zipIdx.any fun c => s.checkCmd (some n) stall c.2 c.1 ≠ 0 then 4
  else if nodes.any fun x => (s.maskCores stall x.coreMask).all fun g => (s.core g).disabled || !s.wideEnough g stall x.cmds then 5
  else
    let per := (s.rd (Reg.SCH_GRAPH_PERIOD n)).toNat
    let dl := (s.rd (Reg.SCH_GRAPH_DEADLINE n)).toNat
    if s.deadlineStall stall && (per == 0 || dl == 0 || decide (per < dl) || nodes.any fun x =>
        decide (dl < x.dlUs) || x.deps.any fun d => x.dlUs ≤ (nodes[d]?).elim 0 (·.dlUs)) then 6
    else 0

/-- Load a graph (R310): the error of the first check that fails, in their order, else its nodes and the tasks that admission gives it. That the owner "has not set" the stall is read as: no host owns the device. [DESIGN CHOICE, log entry 106] -/
def State.loadGraph (s : State) (n : Nat) : Nat × List Node × Option (List Task) × State :=
  let r := Reg.SCH_GRAPH_CTRL n
  let stall := s.graphStall n
  let cnt := s.fld r 6 0
  let trig := (s.trigStreams n).length
  let a := s.rd64 (Reg.SCH_GRAPH_TABLE n)
  if !s.stallEnabled stall ∨ s.bar.owner.isNone then (1, [], none, s)
  else if a % 64 ≠ 0 ∨ 2 ^ 40 ≤ a then (2, [], none, s)
  else match runOn (readNodes stall a cnt) s with
    | (.error _, s) => (2, [], none, s)
    | (.ok recs, s) =>
      if cnt = 0 || 64 < cnt || trig == 0 || 16 < trig || !(recs.zipIdx.all fun p => nodeOk p.2 p.1) then (3, [], none, s)
      else match runOn (readLists stall recs) s with
        | (.error _, s) => (2, [], none, s)
        | (.ok nodes, s) =>
          let e := s.nodeErr n stall nodes
          if e ≠ 0 then (e, [], none, s)
          else if s.deadlineStall stall then
            match s.admitGraph n stall (s.rd (Reg.SCH_GRAPH_PERIOD n)).toNat nodes with
            | none => (7, [], none, s)
            | some ts => (0, nodes, some ts, s)
          else (0, nodes, none, s)

/-- A disabled graph without instances loses its admission. -/
def State.retireGraph (s : State) (n : Nat) : State :=
  if !s.bit (Reg.SCH_GRAPH_CTRL n) 31 && (s.graph n).insts.isEmpty then
    (s.setBit (Reg.SCH_GRAPH_CTRL n) 30 false).updSched fun c => { c with tasks := c.tasks.filter fun t => t.graph != n }
  else s

/-- The instances in flight of a graph that is disabled go on with what the graph is now (R310). -/
def State.freezeInsts (s : State) (n : Nat) : State :=
  let homes := (s.sch.tasks.filter fun t => t.graph == n).map fun t => (t.node, t.core)
  s.updGraph n fun g => { g with insts := g.insts.map fun i =>
    { i with own := some (i.own.getD { nodes := g.nodes, stall := s.graphStall n, dlUs := (s.rd (Reg.SCH_GRAPH_DEADLINE n)).toNat, homes := homes }) } }

/-- The stall of an instance. -/
def State.instStall (s : State) (g : Nat) (i : Inst) : Nat := i.own.elim (s.graphStall g) (·.stall)

/-- DEADLINE_US of an instance. -/
def State.instDl (s : State) (g : Nat) (i : Inst) : Nat := i.own.elim (s.rd (Reg.SCH_GRAPH_DEADLINE g)).toNat (·.dlUs)

/-- The home core of a node of an instance, where it is admitted. -/
def State.instHome (s : State) (g : Nat) (i : Inst) (node : Nat) : Option Nat :=
  match i.own with
  | some o => (o.homes.find? (·.1 == node)).map (·.2)
  | none => (s.sch.tasks.find? fun t => t.graph == g && t.node == node).map (·.core)

/-- What a write of SCH_GRAPH_CTRLn leaves (R310, R328): ENABLE = 1 loads the graph, ENABLE = 0 drops the pending instance and the held firing; other fields stand while ENABLE is 1. -/
def State.afterGraphCtrl (n : Nat) (old s : State) : State :=
  let r := Reg.SCH_GRAPH_CTRL n
  if old.bit r 31 then
    let en := s.bit r 31
    let s := (s.wr r (old.rd r)).setBit r 31 en
    if en then s else ((s.freezeInsts n).updGraph n fun g => { g with pend := none, heldFire := none, closed := [] }).retireGraph n
  else if s.bit r 31 then
      let s := s.setBit r 31 false
      let l := (s.updSched fun c => { c with tasks := c.tasks.filter fun t => t.graph != n }).loadGraph n
      let s := l.2.2.2.setFld r 27 24 l.1
      if l.1 ≠ 0 then s
      else
        let s := (s.setBit r 31 true).setBit r 30 l.2.2.1.isSome
        let s := match l.2.2.1 with | some ts => s.updSched fun c => { c with tasks := ts } | none => s
        s.updGraph n fun g => { nodes := l.2.1, insts := g.insts, nextInst := g.nextInst }
  else s

/-- What a write of another register of a graph leaves: ignored while ENABLE is 1 (R310). -/
def State.afterGraphReg (n off : Nat) (old s : State) : State := if old.bit (Reg.SCH_GRAPH_CTRL n) 31 then s.wr off (old.rd off) else s

/-! ### Triggers and instances (R34, R35, R308, R309) -/

/-- Instances in flight allowed (R328). -/
def State.instLimit (s : State) (n : Nat) : Nat := s.fld (Reg.SCH_GRAPH_CTRL n) 17 16 + 1

/-- Start an instance that fired at time t with some frames (R309). -/
def State.startInstance (s : State) (n t : Nat) (frames : List (Nat × Nat × Nat)) : State :=
  (s.updGraph n fun g => { g with insts := g.insts ++ [{ id := g.nextInst, fired := t, frames := frames }], nextInst := g.nextInst + 1 }).inc (Reg.SCH_GRAPH_FIRED n) 1

/-- The graph fires now (R35, R308): an instance starts, or it becomes the pending instance and replaces one that has not started. [DESIGN CHOICE, log entry 87] -/
def State.fire (s : State) (n : Nat) (frames : List (Nat × Nat × Nat)) : State :=
  let now := s.refNs
  let s := s.updGraph n fun g => { g with lastFire := some now, heldFire := none }
  if (s.graph n).pend.isNone ∧ (s.graph n).insts.length < s.instLimit n then s.startInstance n now frames
  else
    let s := if (s.graph n).pend.isSome then (s.inc (Reg.SCH_GRAPH_SKIPPED n) 1).report 0x100 Kind.TRIGGER_SKIPPED (s.graphStall n) n else s
    s.updGraph n fun g => { g with pend := some (now, frames) }

/-- Every stream of the set has closed a frame (R308): the graph fires, or the firing is held until PERIOD_US after the one before. [DESIGN CHOICE, log entry 87] -/
def State.triggered (s : State) (n : Nat) (frames : List (Nat × Nat × Nat)) : State :=
  let s := s.updGraph n fun g => { g with closed := [] }
  match (s.graph n).lastFire with
  | none => s.fire n frames
  | some t =>
    let due := t + (s.rd (Reg.SCH_GRAPH_PERIOD n)).toNat * 1000
    if due ≤ s.refNs then s.fire n frames else s.updGraph n fun g => { g with heldFire := some (due, frames) }

/-- One graph sees that a stream has closed a frame. [DESIGN CHOICE, log entry 87] -/
def State.graphSees (s : State) (n stream frame capture : Nat) : State :=
  let set := s.trigStreams n
  if s.bit (Reg.SCH_GRAPH_CTRL n) 31 && set.contains stream then
    let s := s.updGraph n fun g => { g with closed := g.closed.filter (fun c => c.1 != stream) ++ [(stream, frame, capture)] }
    let cl := (s.graph n).closed
    if set.all fun k => cl.any fun c => c.1 == k then s.triggered n cl else s
  else s

/-- A stream has closed a frame (R308, R334): every enabled graph whose trigger set holds it sees it. -/
def State.frameClosed (s : State) (stream frame capture : Nat) : State :=
  (List.range 64).foldl (fun s n => s.graphSees n stream frame capture) s

/-- GRAPH_TRIGGER_HOLD_END (R308): a held firing is released once PERIOD_US has passed. -/
def execGraphTriggerHoldEnd (graph : GraphId) (s : State) : Host.Outcome State Fault Refusal :=
  .next (match (s.graph graph.val).heldFire with
    | some (due, frames) => if s.schedUp ∧ due ≤ s.refNs then s.fire graph.val frames else s
    | none => s)

/-- PENDING_INSTANCE_START (R35): the pending instance starts when an instance in flight has ended. [DESIGN CHOICE, log entry 10] -/
def execPendingInstanceStart (graph : GraphId) (s : State) : Host.Outcome State Fault Refusal :=
  .next (
    let n := graph.val
    match (s.graph n).pend with
    | some (t, frames) =>
      if s.schedUp ∧ (s.graph n).insts.length < s.instLimit n then (s.updGraph n fun g => { g with pend := none }).startInstance n t frames else s
    | none => s)

/-- An instance of a graph by its number. -/
def State.inst? (s : State) (g inst : Nat) : Option Inst := (s.graph g).insts.find? (·.id == inst)

/-- Change an instance. -/
def State.updInst (s : State) (g inst : Nat) (f : Inst → Inst) : State :=
  s.updGraph g fun x => { x with insts := x.insts.map fun i => if i.id == inst then f i else i }

/-- The job of a node of an instance. -/
def State.nodeJob (s : State) (g inst k : Nat) : Option Job :=
  s.cmd.jobs.find? fun j => match j.src with | .node h i m => h == g && i == inst && m == k | .ring .. => false

/-- The job has ended with a success. -/
def Job.passed (j : Job) : Bool := j.ended && succeeded j.outcome.1

/-- Where a node's job ran, and the bytes of the bolt output extents of its commands (R314). -/
def State.boltOuts (s : State) (j : Job) : List (Nat × Nat) :=
  let outs := j.cmds.flatMap fun c =>
    let i := s.cmdInfo j.core c.desc
    i.outs.map (fun b => (b.base, b.extent)) ++ if opcodeOf c.desc = 0x0A ∧ i.outs.isEmpty then [((moveD c.desc).dst, (moveD c.desc).dstExtent)] else []
  [(j.core, sumNat ((outs.filter fun x => match regionOf x.1 with | .bolt _ _ => true | _ => false).map (·.2)))]

/-- A node of an instance becomes a job (R307, R309): its deadline counts from the firing. -/
def State.makeNodeJob (s : State) (g : Nat) (i : Inst) (k : Nat) (n : Node) : State :=
  let stall := s.instStall g i
  let dl := if s.deadlineStall stall then some (i.fired + n.dlUs * 1000) else none
  let j : Job := { id := s.cmd.nextJob, src := .node g i.id k, stall := stall, coreMask := n.coreMask, list := n.list, nCmds := n.nCmds, deadline := dl,
                   epoch := s.epoch, cmds := n.cmds.map fun d => { desc := d } }
  let s := s.updCmdPlane fun c => { c with jobs := c.jobs ++ [j], nextJob := c.nextJob + 1 }
  s.updInst g i.id fun i => { i with placed := i.placed ++ [k] }

/-- NODE_ELIGIBLE (R309, R314): a node whose dependencies have completed with success becomes a job and is placed, on its home core where it is admitted; a job that was taken off its core is placed again. -/
def execNodeEligible (graph : GraphId) (inst node : Nat) (s : State) : Host.Outcome State Fault Refusal :=
  .next (
    let g := graph.val
    match s.inst? g inst, (s.inst? g inst).bind fun i => (s.instNodes g i)[node]? with
    | some i, some n =>
      let deps := n.deps.map fun d => s.nodeJob g inst d
      if !s.schedUp || !s.stallEnabled (s.instStall g i) || i.missed || i.missedNodes.contains node || !(deps.all fun o => o.any Job.passed) then s
      else
        let s := if i.placed.contains node then s else s.makeNodeJob g i node n
        match s.nodeJob g inst node with
        | some j =>
          if j.phase = .accepted ∧ !j.ended then
            s.placeKnown j.id (s.instHome g i node) (deps.flatMap fun o => o.elim [] s.boltOuts)
          else s
        | none => s
    | _, _ => s)

/-- The nodes of an instance that will never run: a dependency failed, will never run, or their deadline passed before they became eligible. -/
def State.deadNodes (s : State) (g : Nat) (i : Inst) : List Nat :=
  (s.instNodes g i).zipIdx.foldl (fun dead p =>
    if i.placed.contains p.2 then dead
    else if i.missed || i.missedNodes.contains p.2 || p.1.deps.any (fun d => dead.contains d || (s.nodeJob g i.id d).any fun j => j.ended && !j.passed) then dead ++ [p.2]
    else dead) []

/-- The commands of an instance's nodes in node order and then command order (R309), those of a node that never ran with the status that stopped it. -/
def State.instCmds (s : State) (g : Nat) (i : Inst) : List Cmd :=
  (s.instNodes g i).zipIdx.flatMap fun p =>
    match s.nodeJob g i.id p.2 with
    | some j => j.cmds
    | none =>
      let late := i.missed || i.missedNodes.contains p.2
      fixedCmds p.1.nCmds (if late then St.DEADLINE_MISSED else St.ABANDONED) late

/-- Every node of an instance has ended or will never run. -/
def State.instEnded (s : State) (g : Nat) (i : Inst) : Bool :=
  (List.range (s.instNodes g i).length).all fun k => (s.deadNodes g i).contains k || (s.nodeJob g i.id k).any Job.ended

/-- An instance can no longer be clean (R309): a node will never run, or a command but a PUBLISH has failed. -/
def State.instFailed (s : State) (g : Nat) (i : Inst) : Bool :=
  !(s.deadNodes g i).isEmpty || (List.range (s.instNodes g i).length).any fun k =>
    (s.nodeJob g i.id k).any fun j => j.cmds.any fun c => opcodeOf c.desc != 0x13 && c.stage = .done && !succeeded c.status

/-- The PUBLISHes of an instance that can no longer be clean never start (R36, R309): they end ABANDONED once their job has no other command to run (R285). -/
def State.settleInst (s : State) (g : Nat) (i : Inst) : State :=
  if !s.instFailed g i then s
  else (List.range (s.instNodes g i).length).foldl (fun (s : State) k =>
    match s.nodeJob g i.id k with
    | some j =>
      if j.phase = .placed ∧ j.cmds.zipIdx.all fun p => p.1.stage = .done || (p.1.stage = .idle && !s.mayStart j p.2 p.1) then
        (s.updJob j.id fun j => j.endUnstarted St.ABANDONED j.deadlinePassed).nodeSignals j.id
      else s
    | none => s) s

/-- Remove an instance with its jobs; its holds end with it (R335). -/
def State.dropInst (s : State) (g inst : Nat) : State :=
  let s := s.updCmdPlane fun c => { c with jobs := c.jobs.filter fun j => match j.src with | .node h i _ => !(h == g && i == inst) | .ring .. => true }
  (s.updGraph g fun x => { x with insts := x.insts.filter fun i => i.id != inst }).restStalls

/-- INSTANCE_END (R286, R309): every node has ended or cannot run; the outcome is decided and counted, and the instance is gone. [DESIGN CHOICE, log entry 55] -/
def execInstanceEnd (graph : GraphId) (inst : Nat) (s : State) : Host.Outcome State Fault Refusal :=
  .next (
    let g := graph.val
    match s.inst? g inst with
    | none => s
    | some i =>
      let s := if s.schedUp then s.settleInst g i else s
      if !s.schedUp || !s.instEnded g i then s
      else
        let o := (decideStatus (i.missed || !i.missedNodes.isEmpty) (s.instCmds g i)).1
        let s := if 0x20 ≤ o ∧ o < 0x40 then s.inc (Reg.SCH_GRAPH_FAILED g) 1 else s
        (s.dropInst g inst).retireGraph g)

/-- Note the first deadline that an instance misses (R328). -/
def State.countMiss (s : State) (g : Nat) (i : Inst) : State :=
  if i.missed || !i.missedNodes.isEmpty then s else s.inc (Reg.SCH_GRAPH_MISSED g) 1

/-- Address of a graph's DEADLINE_MISSED (R325). -/
def missNode (g k : Nat) : Nat := 2 ^ 39 + g * 2 ^ 32 + k

/-- A node passes its deadline incomplete: reported, and its unstarted commands end (R285, R325). -/
def State.missNode (s : State) (g : Nat) (i : Inst) (k : Nat) : State :=
  let s := (s.countMiss g i).report 0x100 Kind.DEADLINE_MISSED (s.instStall g i) (Machine.missNode g k)
  let s := s.updInst g i.id fun i => { i with missedNodes := i.missedNodes ++ [k] }
  match s.nodeJob g i.id k with
  | some j => (s.missJob j).restStalls
  | none => s

/-- The whole instance passes its deadline incomplete: reported with its lowest incomplete node, and the unstarted commands of every node end. -/
def State.missInst (s : State) (g : Nat) (i : Inst) : State :=
  let k := ((List.range (s.instNodes g i).length).find? fun k => !(s.nodeJob g i.id k).any Job.ended).getD 0
  let s := (s.countMiss g i).report 0x100 Kind.DEADLINE_MISSED (s.instStall g i) (Machine.missNode g k)
  let s := s.updInst g i.id fun i => { i with missed := true }
  (s.cmd.jobs.foldl (fun s j => match j.src with
    | .node h m _ => if h == g && m == i.id && !j.ended then s.missJob j else s
    | .ring .. => s) s).restStalls

/-- INSTANCE_DEADLINE_PASSED (R309, R325): a node, or the whole instance, of a deadline stall passes its absolute deadline incomplete. -/
def execInstanceDeadlinePassed (graph : GraphId) (inst : Nat) (node : Option Nat) (s : State) : Host.Outcome State Fault Refusal :=
  .next (
    let g := graph.val
    match s.inst? g inst with
    | none => s
    | some i =>
      if !s.deadlineStall (s.instStall g i) then s
      else match node with
        | some k =>
          match (s.instNodes g i)[k]? with
          | some n =>
            if i.fired + n.dlUs * 1000 ≤ s.refNs ∧ !i.missedNodes.contains k ∧ !i.missed ∧ !(s.nodeJob g inst k).any Job.ended then s.missNode g i k else s
          | none => s
        | none =>
          if i.fired + s.instDl g i * 1000 ≤ s.refNs ∧ !i.missed ∧ !s.instEnded g i then s.missInst g i else s)

/-! ### Pre-emption (R318 to R320) -/

/-- Change what pre-emption is under way on a core. -/
def State.setPreempt (s : State) (g : Nat) (p : Option Preempt) : State := s.updSched fun c => { c with preempt := c.preempt.set g p }

/-- The job holds a unit of its core. -/
def Job.holdsUnits (j : Job) : Bool := j.cmds.any fun c => c.holds && usesUnit c.desc

/-- A command of the job is inside a non-preemptible segment (R319). -/
def State.inSegment (s : State) (j : Job) : Bool :=
  j.cmds.any fun c => c.holds && usesUnit c.desc && 0 < (s.cmdInfo j.core c.desc).segment && !(opcodeOf c.desc == 2 && c.eng.runDue)

/-- The work of lower rank that a core's units run: the last of it in the order of R315. -/
def State.victimOn (s : State) (g rank : Nat) (f : Job → Bool) : Option Job :=
  ((s.jobsOn g).filter fun j => rank < s.rank j && j.holdsUnits && f j).foldl (fun o j =>
    match o with
    | none => some j
    | some k => if s.before k j then some j else some k) none

/-- Ask the work that runs on a core to give way (R318). -/
def State.askPreempt (s : State) (g : Nat) (v : Job) (winner : Option Nat) : State :=
  s.setPreempt g (some { victim := v.id, winner := winner, since := s.refNs, waits := s.inSegment v })

/-- PREEMPTION_REQUEST (R318, R322): higher-ranked work has become eligible on a core whose units run lower-ranked work, or would overwrite what a pre-empted job still needs. -/
def execPreemptionRequest (core : CoreId) (job : Nat) (s : State) : Host.Outcome State Fault Refusal :=
  .next (
    let g := core.val
    match s.job? job with
    | none => s
    | some j =>
      if !s.schedUp || (s.sch.preempt.getD g none).isSome || !(j.phase = .placed) || j.core != g || j.preempted || !s.eligible j then s
      else match s.victimOn g (s.rank j) (fun _ => true) with
        | some v => s.askPreempt g v (some job)
        | none =>
          match s.spillDue j with
          | (v, _) :: _ => s.setPreempt g (some { victim := v, winner := some job, since := s.refNs, spilling := true })
          | [] => s)

/-- A command stands at a boundary of R319. -/
def State.atBoundary (s : State) (j : Job) (c : Cmd) : Bool :=
  if !(c.holds && usesUnit c.desc) then true
  else match opcodeOf c.desc with
    | 0x01 => (s.core j.core).pass.isNone
    | 0x02 => c.stage = .started || c.eng.runDue || c.eng.rerunDue
    | 0x04 => (s.cmdInfo j.core c.desc).segment == 0 && (c.progress != 0 || initBeats (s.tidyView j.core c.desc).1 (s.tidyView j.core c.desc).2.2 == 0)
    | 0x06 => true
    | 0x0A => true
    | _ => false

/-- Add to a stall's debt (R320); DEBT_LIMIT when it first exceeds ALLOW. [DESIGN CHOICE, log entry 58] -/
def State.addDebt (s : State) (n d : Nat) : State :=
  let was := s.debt n
  let s := s.sat (Reg.SCH_STALL_DEBT n) 23 0 d
  if was ≤ s.allow n ∧ s.allow n < s.debt n then s.report 0x100 Kind.DEBT_LIMIT n n else s

/-- PREEMPTION_SWITCH (R318, R320): at a boundary the victim gives up the units; what the wait in a segment cost is its stall's debt; a spill follows where the new work would overwrite live data. -/
def execPreemptionSwitch (core : CoreId) (s : State) : Host.Outcome State Fault Refusal :=
  .next (
    let g := core.val
    match s.sch.preempt.getD g none with
    | none => s
    | some p =>
      match s.job? p.victim with
      | none => s.setPreempt g none
      | some v =>
        if p.spilling ∨ (s.core g).pass.isSome ∨ !v.cmds.all (s.atBoundary v) then s
        else
          let s := if p.waits then s.addDebt v.stall ((s.refNs - p.since) * 950 / 1000) else s
          let s := (s.updJob v.id fun j => { j with preempted := true }).pauseFeeder v
          let due := match p.winner.bind s.job? with | some j => !(s.spillDue j).isEmpty | none => false
          s.setPreempt g (if due then some { p with spilling := true } else none))

/-! ### Spilling (R322, R323) -/

/-- Where the spill area of a stall keeps an address of core g's bolt or skein: a block of 4.25 MiB for each core of CORES, the bolt first. -/
def State.spillPlace (s : State) (stall g a : Nat) : Nat :=
  let pos := ((List.range g).filter fun h => s.bit (Reg.SCH_STALL_CORES stall) h).length
  s.rd64 (Reg.SCH_STALL_SPILL stall) + pos * 0x440000 + match regionOf a with
    | .bolt _ o => o
    | .skein _ o => 0x400000 + (o - 0x80000)
    | _ => 0

/-- Copy n bytes line by line; the first access that fails gives its status and address. [DESIGN CHOICE, log entry 89] -/
def spillCopy (t : Tag) (src dst : Nat) : List (Nat × Nat) → State → Option (Nat × Nat) × State
  | [], s => (none, s)
  | (a, k) :: rest, s =>
    match runOn (readMem t a k) s with
    | (.error e, s) => (some (e, a), s)
    | (.ok b, s) =>
      match runOn (writeMem t (dst + (a - src)) b) s with
      | (.error e, s) => (some (e, dst + (a - src)), s)
      | (.ok _, s) => spillCopy t src dst rest s

/-- Copy several extents, each to its place. -/
def spillAll (t : Tag) : List (Nat × Nat × Nat) → State → Option (Nat × Nat) × State
  | [], s => (none, s)
  | (src, n, dst) :: rest, s =>
    match spillCopy t src dst (lines src n) s with
    | (some e, s) => (some e, s)
    | (none, s) => spillAll t rest s

/-- End a job where it stands: the commands begun end with the status and give up their contexts, the rest is abandoned (R285, R323). Where none is in progress the lowest command not started takes the status, so that the job ends with it. [DESIGN CHOICE, log entry 89] -/
def State.endJob (s : State) (id status : Nat) : State :=
  match s.job? id with
  | none => s
  | some j =>
    let s := j.cmds.zipIdx.foldl (fun (s : State) p =>
      if p.1.inProgress then ((s.unhold id p.2).chargeCmd j p.1).updCmd id p.2 fun c => { c with stage := .done, status := status, late := j.deadlinePassed }
      else s) s
    let s := if j.cmds.any Cmd.inProgress then s
      else match j.cmds.zipIdx.find? fun p => p.1.stage != .done with
        | some p => s.updCmd id p.2 fun c => { c with stage := .done, status := status, late := j.deadlinePassed }
        | none => s
    ((s.updJob id fun j => { j.endUnstarted St.ABANDONED j.deadlinePassed with preempted := false }).nodeSignals id).restStalls

/-- A spill or restore of a job failed (R323). -/
def State.spillFailed (s : State) (g : Nat) (v : Job) (status addr : Nat) : State :=
  (s.report (unitSrc g 5) Kind.SPILL_FAIL v.stall addr).endJob v.id status

/-- Charge a spill or restore of some bytes to the victim's stall (R317). -/
def State.chargeSpill (s : State) (stall bytes : Nat) : State := s.charge stall (s.spillUs bytes * 950).ceil.toNat

/-- SPILL_COMPLETE (R322, R323): porter 1 has copied the live bytes that the new work overlaps to the victim's spill area. -/
def execSpillComplete (core : CoreId) (s : State) : Host.Outcome State Fault Refusal :=
  .next (
    let g := core.val
    match s.sch.preempt.getD g none with
    | none => s
    | some p =>
      if !p.spilling then s
      else
        let s := s.setPreempt g none
        match p.winner.bind s.job?, s.job? p.victim with
        | some j, some v =>
          let l := (((s.spillDue j).find? fun x => x.1 == v.id).elim [] (·.2)).map fun x => (x.1, x.2, s.spillPlace v.stall g x.1)
          match spillAll (s.tagOf v.stall (unitSrc g 5)) l s with
          | (some (st, a), s) => s.spillFailed g v st a
          | (none, s) => (s.updJob v.id fun v => { v with spilled := v.spilled ++ l }).chargeSpill v.stall (sumNat (l.map fun x => x.2.1))
        | _, _ => s)

/-- RESTORE_COMPLETE (R318, R322): a pre-empted job's bytes are copied back and it goes on, once no higher-ranked work of its core is eligible or holds a unit. -/
def execRestoreComplete (core : CoreId) (job : Nat) (s : State) : Host.Outcome State Fault Refusal :=
  .next (
    let g := core.val
    match s.job? job with
    | none => s
    | some v =>
      let s := if s.rank v = 4 then s.grantSlice g else s
      let higher := (s.jobsOn g).any fun k => s.rank k < s.rank v && (s.eligible k || k.holdsUnits)
      let turn := s.rank v != 4 || (s.sch.slice.getD g none).any fun x => x.1 == v.stall
      let need := s.resumeNeed v
      if !s.schedUp || !v.preempted || !(v.phase = .placed) || v.core != g || higher || !turn || (s.sch.preempt.getD g none).isSome || (s.core g).testing
          || !s.sound g || !s.clusterUp (g / 8) || !unitsFit (s.unitsUsed g) need || v.decryptSeats.any (s.seated g 3).contains then s
      else
        let n := sumNat (v.spilled.map fun x => x.2.1)
        match spillAll (s.tagOf v.stall (unitSrc g 5)) (v.spilled.map fun x => (x.2.2, x.2.1, x.1)) s with
        | (some (st, a), s) => s.spillFailed g v st a
        | (none, s) =>
          let s := s.updJob v.id fun v => { v with preempted := false, spilled := [], cmds := s.reseat g (s.seated g 2) (s.seated g 3 ++ v.decryptSeats) v.cmds }
          if n = 0 then s else s.chargeSpill v.stall n)

/-- BE_SLICE_END (R316, R320): the core has consumed its slice, counted in bit-steps (R60); the next is granted by virtual time, and a stall with less of it pre-empts the one that ran. -/
def execBeSliceEnd (slice : SliceRun) (s : State) : Host.Outcome State Fault Refusal :=
  .next (
    let g := slice.core.val
    match s.sch.slice.getD g none with
    | none => s
    | some (n, len) =>
      if !s.schedUp || decide (slice.steps < len) then s
      else
        let s := (s.updSched fun c => { c with slice := c.slice.set g none }).grantSlice g
        match s.sch.slice.getD g none with
        | some (m, _) =>
          if m = n ∨ (s.sch.preempt.getD g none).isSome then s
          else match s.victimOn g 3 (fun j => j.stall != m), (s.jobsOn g).find? (fun j => j.stall == m && s.eligible j) with
            | some v, some w => s.askPreempt g v (some w.id)
            | some v, none => if s.cmd.jobs.any fun j => j.phase = .placed && j.core == g && j.stall == m && j.preempted then s.askPreempt g v none else s
            | none, _ => s
        | none => s)

/-! ### Self-test in slack (R51, R324, R459) -/

/-- The remaining deadline work of a core still fits before its deadlines after a slice, and the slice ends before the next firing of every admitted graph homed there (R51, R324). [DESIGN CHOICE, log entry 106] -/
def State.workFits (s : State) (g : Nat) : Bool :=
  let slice : Rat := (s.fld Reg.SCH_TEST_SLICE 17 0 : Rat)
  s.deadlineFits g slice
  && s.sch.tasks.all fun t =>
    if t.core = g then
      let next := (s.graph t.graph).lastFire.map fun f => f + t.p * 1000
      next.all (fun n => n ≤ s.refNs || decide ((s.refNs : Rat) + slice / 950 * 1000 ≤ (n : Rat)))
    else true

/-- Work of rank 1 or 2 is eligible or running on a core, or waits there to resume. -/
def State.deadlineBusy (s : State) (g : Nat) : Bool :=
  s.cmd.jobs.any fun j => j.phase = .placed && j.core == g && s.rank j ≤ 2 && (j.preempted || s.eligible j || j.holdsUnits)

/-- SELFTEST_SLICE_PLACE (R324, R459): the slice that the runner asked for starts on a core without deadline work, withdraws it, or is deferred; best-effort work gives way first. -/
def execSelftestSlicePlace (core : CoreId) (s : State) : Host.Outcome State Fault Refusal :=
  .next (
    let g := core.val
    if s.sch.testAsk ≠ some g ∨ !s.schedUp then s
    else if s.deadlineBusy g || !s.workFits g || s.sch.testCore.isSome || !s.openCore g then
      (s.sat Reg.TAL_SW_DEFERRED 31 0 1).updSched (fun c => { c with testAsk := none }) |>.updCore g fun c => { c with testDefer := some (s.refNs + 100000) }
    else match s.victimOn g 3 (fun _ => true) with
      | some v => if (s.sch.preempt.getD g none).isSome then s else s.askPreempt g v none
      | none =>
        let s := s.updSched fun c => { c with testAsk := none, testCore := some g }
        ((s.updCore g fun c => { c with testing := true }).setBit Reg.TAL_SW_STATUS 31 true).setFld Reg.TAL_SW_STATUS 20 16 g)

end Sys2Proof.Machine
end

