-- ==== Sys2Proof/Machine/Monitor.lean ====
section
/-!
DEFINITION. Age monitors (R426 to R430), silenced stalls (R444), weight digests and the DIGEST command (R431 to R436).
-/
namespace Sys2Proof.Machine

/-! ### Age monitors -/

/-- A monitor's watchdog. -/
def State.mon (s : State) (m : Nat) : AgeMon := s.age.getD m {}

/-- Change a monitor's watchdog. -/
def State.updMon (s : State) (m : Nat) (f : AgeMon → AgeMon) : State := { s with age := updAt f m s.age }

/-- A report of the age monitors, source 0x171: the monitor in bits [37:32] (R438). -/
def State.monReport (s : State) (kind stall m low : Nat) : State := s.report 0x171 kind stall (m * 2 ^ 32 + low % 2 ^ 32)

/-- The age in µs as AGE_EXCEEDED reports it: saturating, 0 for a negative age. -/
def ageField (age : Int) : Nat := min (age.toNat / 1000) (2 ^ 32 - 1)

/-- The tests of R426 on a publish of a stall with the propagated fields p and reference time tpub, in order: the kind that refuses it and the low part of its Address field. -/
def State.monRefuses (s : State) (m stall : Nat) (p : Prov) (tpub : Int) : Option (Nat × Nat) :=
  let c := Reg.SAF_AGE_CTRL m
  let age := tpub - (p.capture : Int)
  if !s.bit c 31 || s.fld c 27 24 != stall then some (Kind.MONITOR_REFUSED, 0)
  else if !p.hasTime then some (Kind.AGE_EXCEEDED, 2 ^ 32 - 1)
  else if s.bit c 30 && !(p.synced && s.synced) then some (Kind.AGE_UNSYNCED, p.frame)
  else if p.stepGen ≠ s.stepGen ∧ s.bit c 28 = false then some (Kind.AGE_STEPPED, p.frame)
  else if age < 0 ∨ (((s.rd (Reg.SAF_AGE_LIMIT m)).toNat * 1000 : Nat) : Int) < age then some (Kind.AGE_EXCEEDED, ageField age)
  else none

/-- PERIOD_US and TOL_US of a monitor in ns. -/
def State.monPeriod (s : State) (m : Nat) : Nat := (s.rd (Reg.SAF_AGE_PERIOD m)).toNat * 1000
/-- TOL_US of a monitor in ns. -/
def State.monTol (s : State) (m : Nat) : Nat := (s.rd (Reg.SAF_AGE_TOL m)).toNat * 1000

/-- The watchdog takes note of an accepted publish (R428): a repeat is only reported; any other sets D, and is reported when it comes early. -/
def State.monWatch (s : State) (m stall : Nat) (p : Prov) : State :=
  if !s.bit (Reg.SAF_AGE_CTRL m) 29 then s
  else
    let a := s.mon m
    if a.key = some (p.stream, p.frame) then
      (s.monReport Kind.PUBLISH_REPEATED stall m p.frame).updMon m fun a => { a with last := some s.refNs }
    else
      let early := match a.last with
        | some l => decide (s.refNs < l + (s.monPeriod m - s.monTol m))
        | none => false
      let s := if early then s.monReport Kind.PUBLISH_EARLY stall m p.frame else s
      s.updMon m fun _ => { due := some (s.refNs + s.monPeriod m + s.monTol m), last := some s.refNs, key := some (p.stream, p.frame) }

/-- Monitor m judges a publish (R426, R427): the status that refuses it (0: accepted) and what the monitor records. -/
def State.monJudge (s : State) (m stall : Nat) (p : Prov) (tpub : Int) : Nat × State :=
  match s.monRefuses m stall p tpub with
  | some (kind, low) =>
    let s := (s.monReport kind stall m low).sat (Reg.SAF_AGE_COUNT m) 31 16 1
    (if kind = Kind.MONITOR_REFUSED then St.FIREWALL else St.DEADLINE_MISSED, s)
  | none =>
    let s := (s.wr (Reg.SAF_AGE_LAST m) (BitVec.ofNat 32 (ageField (tpub - (p.capture : Int))))).wr (Reg.SAF_AGE_FRAME m) (BitVec.ofNat 32 p.frame)
    (0, s.monWatch m stall p)

/-- AGE_WATCHDOG_EXPIRE (R428, R429): D has passed with no accepted publish; a publish at D itself comes first. [DESIGN CHOICE, log entry 77] -/
def execAgeWatchdogExpire (monitor : Fin 64) (s : State) : Host.Outcome State Fault Refusal :=
  .next (
    let m := monitor.val
    let c := Reg.SAF_AGE_CTRL m
    match (s.mon m).due with
    | some d =>
      if s.phase = .live ∧ s.bit c 31 ∧ s.bit c 29 ∧ d < s.refNs then
        let s := s.sat (Reg.SAF_AGE_COUNT m) 15 0 1
        let s := s.monReport Kind.PUBLISH_MISSING (s.fld c 27 24) m (s.fld (Reg.SAF_AGE_COUNT m) 15 0)
        s.updMon m fun a => { a with due := some (d + s.monPeriod m) }
      else s
    | none => s)

/-- What a write of SAF_AGE_CTRL leaves (R430): the other fields are kept while ENABLE is 1; an enable with bad limits stays 0; the watchdog is disarmed whenever ENABLE changes. -/
def State.afterAgeCtrl (m : Nat) (old s : State) : State :=
  let c := Reg.SAF_AGE_CTRL m
  let lim := (s.rd (Reg.SAF_AGE_LIMIT m)).toNat
  if old.bit c 31 then
    let s' := s.wr c ((old.rd c) &&& 0x7FFFFFFF#32 ||| ((s.rd c) &&& 0x80000000#32))
    if s.bit c 31 then s' else s'.updMon m fun _ => {}
  else if s.bit c 31 then
    if lim < 1 ∨ 10000000 < lim ∨ (s.bit c 29 ∧ (s.monPeriod m = 0 ∨ s.monPeriod m ≤ s.monTol m)) then s.setBit c 31 false
    else s.updMon m fun _ => {}
  else s

/-- What a write of a monitor's LIMIT, PERIOD or TOL at off leaves: nothing while ENABLE is 1 (R430). -/
def State.afterAgeReg (m off : Nat) (old s : State) : State := if old.bit (Reg.SAF_AGE_CTRL m) 31 then s.wr off (old.rd off) else s

/-! ### Silence -/

/-- A pending SILENCE bit names the stall (R444). -/
def State.silenced (s : State) (stall : Nat) : Bool := s.tal.silence.any fun e => e.2.contains stall && s.fld (Reg.TAL_REACT e.1) 1 0 == 1

/-! ### Weight digests -/

/-- The security core runs. -/
def State.securityUp (s : State) : Bool := s.phase = .live && s.bit Reg.FW_STATUS 0

/-- The tag of the security core's reads: stall 0 (R23, R432). -/
def State.secTag (s : State) : Tag := s.tagOf 0 0x101

/-- Digest entry n is in use. -/
def State.digOn (s : State) (n : Nat) : Bool := s.bit (Reg.SAF_DIG_ENT n) 31

/-- Address and length of an entry's region. -/
def State.digRegion (s : State) (n : Nat) : Nat × Nat := (s.rd64 (Reg.SAF_DIG_ADDR n) % 2 ^ 40, (s.rd (Reg.SAF_DIG_LENGTH n)).toNat)

/-- Read a region and compute its SHA3-256. -/
def digestOf (command : Bool) (addr len : Nat) : Run Nat := do
  let s ← get
  let b ← readLines command s.secTag addr len
  pure (sha3 b).toNat

/-- Record a computed digest in an entry: its value, the time, and whether it matches (R432, R436). -/
def State.digRecord (s : State) (n v : Nat) : State :=
  let want := (s.dig.expect.getD n (0, 0)).1
  ((s.setFld (Reg.SAF_DIG_ENT n) 29 28 (if v = want then 1 else 2)).wr64 (Reg.SAF_DIG_TIME n) s.timeWord).wrN (Reg.SAF_DIG_DIGEST n) 8 v

/-- Report WEIGHT_DIGEST_MISMATCH of an entry; refused: the region could not be read (R432). -/
def State.digMismatch (s : State) (n : Nat) (refused : Bool) : State :=
  s.report 0x101 Kind.WEIGHT_DIGEST_MISMATCH (s.fld (Reg.SAF_DIG_ENT n) 27 24) (n + b2n refused * 2 ^ 39)

/-- Digest entry n in a round (R432). -/
def State.digCheck (s : State) (n : Nat) : State :=
  if !s.digOn n then s
  else
    let r := s.digRegion n
    match runOn (digestOf false r.1 r.2) s with
    | (.ok v, s') =>
      let s' := s'.digRecord n v
      if v = (s.dig.expect.getD n (0, 0)).1 then s' else s'.digMismatch n false
    | (.error _, s') => (s'.setFld (Reg.SAF_DIG_ENT n) 29 28 3).digMismatch n true

/-- Change the digests' own state. -/
def State.updDig (s : State) (f : Digests → Digests) : State := { s with dig := f s.dig }

/-- Rounds go on: the security core runs and the device is not in STANDBY (R498). -/
def State.roundsRun (s : State) : Bool := s.securityUp && s.fld Reg.PWR_STATE 25 24 == 0

/-- DIGEST_ROUND_START (R432): INTERVAL_MS after the last start; a round that has not finished by then is late. -/
def execDigestRoundStart (s : State) : Host.Outcome State Fault Refusal :=
  .next (
    if s.roundsRun ∧ s.dig.start + s.fld Reg.SAF_DIG_CTRL 15 0 * 1000000 ≤ s.refNs then
      if s.dig.running then
        if s.dig.late then s else (s.updDig fun d => { d with late := true }).report 0x101 Kind.DIGEST_LATE 0 (s.rd Reg.SAF_DIG_ROUNDS).toNat
      else s.updDig fun d => { d with running := true, late := false, start := s.refNs }
    else s)

/-- DIGEST_ROUND_END (R432): every enabled entry is digested in ascending order; after a late round the next begins at once. [DESIGN CHOICE, log entry 75] -/
def execDigestRoundEnd (s : State) : Host.Outcome State Fault Refusal :=
  .next (
    if s.roundsRun ∧ s.dig.running then
      let s := ((List.range 64).foldl (fun s n => s.digCheck n) s).inc Reg.SAF_DIG_ROUNDS 1
      s.updDig fun d => if d.late then { d with late := false, start := s.refNs } else { d with running := false }
    else s)

/-- What a write of SAF_DIG_CTRL leaves: 10 to 60,000 ms, or the old value (R436). -/
def State.afterDigCtrl (old s : State) : State :=
  let v := s.fld Reg.SAF_DIG_CTRL 15 0
  if 10 ≤ v ∧ v ≤ 60000 then s else s.setFld Reg.SAF_DIG_CTRL 15 0 (old.fld Reg.SAF_DIG_CTRL 15 0)

/-! ### The DIGEST command (R433 to R435) -/

/-- MODE of a DIGEST. -/
def digMode (d : List Byte) : Nat := bits (le d 16 1) 1 0
/-- ENTRY of a DIGEST. -/
def digEntry (d : List Byte) : Nat := le d 17 1 % 64

/-- A verification slot serves a stall: it holds a key, and stall 0 is always served (R486). -/
def State.vkeyServes (s : State) (slot stall : Nat) : Bool :=
  s.bit (Reg.SEC_VKEY slot) 31 && (stall == 0 || s.bit (Reg.SEC_VKEY slot) stall)

/-- The length that every enabled entry but one has in all (R432). -/
def State.digTotal (s : State) (but : Nat) : Nat :=
  sumNat ((List.range 64).map fun n => if n != but && s.digOn n then (s.digRegion n).2 else 0)

/-- The manifest's header and record have their form (R431). -/
def manifestOk (h r : List Byte) : Bool :=
  le h 0 2 == 0x4D46 && le h 2 1 == 1 && bits (le h 3 1) 7 4 == 0 && 1 ≤ le h 4 2 && le h 4 2 ≤ 4096 && zeroBytes h 6 7 && zeroBytes h 16 63
  && 64 ≤ le r 0 4 && le r 0 4 ≤ 268435456 && zeroBytes r 4 7 && zeroBytes r 40 63

/-- Every record of a manifest has its form. -/
def recordsOk (h b : List Byte) : Bool := (List.range (le h 4 2)).all fun k => manifestOk h (slice b (64 + 64 * k) 64)

/-- A region lies in LPDDR5X or in one bolt (R433). -/
def digRegionOk (a n : Nat) : Bool :=
  match regionOf a with
  | .ddr => a + n ≤ 2 ^ 36
  | .bolt _ o => o + n ≤ 0x400000
  | _ => false

/-- REGISTER's effect (R434, R435). -/
def digRegister (j : Job) (d : List Byte) : Run Unit := do
  let s ← get
  let n := digEntry d
  let rec_ := le d 18 2
  let addr := le d 24 5
  let man := le d 32 5
  let st := j.stall
  let h ← readMem s.secTag man 64
  let cnt := le h 4 2
  if cnt ≤ rec_ then throw St.OUT_OF_LIMIT
  let r ← readMem s.secTag (man + 64 + 64 * rec_) 64
  let len := le r 0 4
  let want := leNat (slice r 8 32)
  let model := le h 8 8
  let on := s.digOn n
  if s.fld Reg.SAF_DIG_CTRL 15 0 * 1200000 < s.digTotal n + len then throw St.OUT_OF_LIMIT
  if (on && s.fld (Reg.SAF_DIG_ENT n) 27 24 != st) || !s.vkeyServes (le h 3 1 % 16) st || !digRegionOk addr len then refusedRun st addr
  let same := s.fld (Reg.SAF_DIG_ENT n) 27 24 == st && s.digRegion n == (addr, len) && s.dig.expect.getD n (0, 0) == (want, model)
  if on && !same then throw St.BAD_FORMAT
  let body ← readMem s.secTag man (64 + 64 * cnt)
  let sig ← readMem s.secTag (man + 64 + 64 * cnt) 2420
  if !(recordsOk h body) || !(Config.mldsaVerify (s.sec.vkeys.getD (le h 3 1 % 16) []) (leBytes 32 (sha3 body).toNat) sig) then do
    change fun s => s.report 0x101 Kind.MANIFEST_BAD st man
    throw St.CRC_MISMATCH
  if on then pure ()
  else do
    let v ← digestOf true addr len
    if v ≠ want then do
      change fun s => s.report 0x101 Kind.WEIGHT_DIGEST_MISMATCH st n
      throw St.CRC_MISMATCH
    change fun s =>
      let s := s.wr (Reg.SAF_DIG_ENT n) (BitVec.ofNat 32 (2 ^ 31 + st * 2 ^ 24))
      let s := (s.wr64 (Reg.SAF_DIG_ADDR n) addr).wr (Reg.SAF_DIG_LENGTH n) (BitVec.ofNat 32 len)
      (s.updDig fun d => { d with expect := d.expect.set n (want, model) }).digRecord n v

/-- CHECK's effect (R434). An entry of another stall gives status FIREWALL, which R415 has in place of MONITOR_REFUSED; the record that R16 asks for is log entry 103's. [DESIGN CHOICE, log entry 103] -/
def digCheckNow (j : Job) (d : List Byte) : Run Unit := do
  let s ← get
  let n := digEntry d
  let r := s.digRegion n
  if !s.digOn n then throw St.OUT_OF_LIMIT
  if s.fld (Reg.SAF_DIG_ENT n) 27 24 ≠ j.stall then refusedRun j.stall r.1
  let v ← digestOf true r.1 r.2
  change fun s => s.digRecord n v
  if v ≠ (s.dig.expect.getD n (0, 0)).1 then do
    change fun s => s.digMismatch n false
    throw St.CRC_MISMATCH

/-- PEER's effect (R434, R435, R536): versions first, then the entries, then the digests. -/
def digPeer (peer : PeerDigest) (j : Job) (d : List Byte) : Run Unit := do
  let s ← get
  let n := digEntry d
  let own := (List.range 7).map fun k => s.rd (Reg.FW_IMAGE k)
  if own ≠ peer.versions then throw St.VERSION_MISMATCH
  if !s.digOn n || !peer.enabled || !peer.digested || peer.modelId.toNat ≠ (s.dig.expect.getD n (0, 0)).2 then throw St.OUT_OF_LIMIT
  if s.fld (Reg.SAF_DIG_ENT n) 27 24 ≠ j.stall then refusedRun j.stall (s.digRegion n).1
  if peer.digest.toNat ≠ s.rdN (Reg.SAF_DIG_DIGEST n) 8 then do
    change fun s => s.report 0x101 Kind.DIGEST_PEER_MISMATCH j.stall (n + bits (le d 16 1) 3 2 * 2 ^ 8)
    throw St.CRC_MISMATCH

/-- RELEASE's effect (R434, R435). -/
def digRelease (j : Job) (d : List Byte) : Run Unit := do
  let s ← get
  let n := digEntry d
  if s.digOn n ∧ s.fld (Reg.SAF_DIG_ENT n) 27 24 ≠ j.stall then refusedRun j.stall (s.digRegion n).1
  change fun s => s.setBit (Reg.SAF_DIG_ENT n) 31 false

/-- Run a DIGEST of a mode on the security core; it waits while the security core restarts (R296). -/
def runDigest (s : State) (job idx mode : Nat) (body : Job → List Byte → Run Unit) : State :=
  let mine : Bool := match s.job? job with
    | some j => match j.cmd? idx with
      | some c => digMode c.desc == mode
      | none => false
    | none => false
  if s.securityUp && mine then runWhole s job idx 0x16 fun j c => body j c.desc else s

/-- DIGEST_REGISTER (R434). -/
def execDigestRegister (job idx : Nat) (s : State) : Host.Outcome State Fault Refusal := .next (runDigest s job idx 0 digRegister)

/-- DIGEST_CHECK (R434). -/
def execDigestCheck (job idx : Nat) (s : State) : Host.Outcome State Fault Refusal := .next (runDigest s job idx 1 digCheckNow)

/-- DIGEST_PEER (R434). -/
def execDigestPeer (job idx : Nat) (peer : PeerDigest) (s : State) : Host.Outcome State Fault Refusal := .next (runDigest s job idx 2 (digPeer peer))

/-- DIGEST_RELEASE (R434). -/
def execDigestRelease (job idx : Nat) (s : State) : Host.Outcome State Fault Refusal := .next (runDigest s job idx 3 digRelease)

end Sys2Proof.Machine
end

