-- ==== Sys2Proof/Machine/Eth.lean ====
section
/-!
DEFINITION. What Ethernet ports send (R385 to R394): PUBLISH and its frame trains, the publish and control queues, launch
times, MACsec protection, the management transmit buffer, link changes.
-/
namespace Sys2Proof.Machine

/-! ### Frame fields -/

/-- The 16-bit Internet checksum's one's-complement sum over some bytes, an odd last byte padded. -/
def sum16 : List Byte → Nat → Nat
  | a :: b :: t, acc => sum16 t (acc + a.toNat * 256 + b.toNat)
  | [a], acc => acc + a.toNat * 256
  | [], acc => acc

/-- Fold a sum to 16 bits and complement it: the Internet checksum. -/
def checksum (l : List Byte) : Nat :=
  let n := sum16 l 0
  let n := n % 65536 + n / 65536
  let n := n % 65536 + n / 65536
  65535 - (n % 65536 + n / 65536) % 65536

/-- A big-endian field written over a frame at a position. -/
def putBe (f : List Byte) (i n v : Nat) : List Byte := patch f i (beBytes n v)

/-- Bytes of the Ethernet header of a frame: 18 with a VLAN tag, else 14. -/
def ethHead (f : List Byte) : Nat := if be f 12 2 = 0x8100 then 18 else 14

/-- EtherType of a frame, behind its VLAN tag. -/
def etherType (f : List Byte) : Nat := be f (ethHead f - 2) 2

/-- An IPv4 header's checksum set. -/
def ipSum (f : List Byte) (h : Nat) : List Byte :=
  let f := putBe f (h + 10) 2 0
  putBe f (h + 10) 2 (checksum (slice f h 20))

/-- The checksum over a pseudo-header and the upper-layer bytes of an IPv4 (false) or IPv6 (true) packet at h, its checksum field as zero. -/
def upperSum (f : List Byte) (h : Nat) (v6 : Bool) (proto : Nat) (upper : List Byte) : Nat :=
  let addrs := if v6 then slice f (h + 8) 32 else slice f (h + 12) 8
  checksum (addrs ++ beBytes 4 upper.length ++ beBytes 4 proto ++ upper)

/-- Complete an IPv4 or IPv6 UDP frame whose IP header begins at h: lengths, identification added, checksums (R391). -/
def fillUdp (f : List Byte) (h : Nat) (v6 : Bool) (addId : Nat) : List Byte :=
  let u := h + (if v6 then 40 else 20)
  let f := if v6 then putBe f (h + 4) 2 (f.length - u)
    else ipSum (putBe (putBe f (h + 2) 2 (f.length - h)) (h + 4) 2 ((be f (h + 4) 2 + addId) % 65536)) h
  let f := putBe (putBe f (u + 4) 2 (f.length - u)) (u + 6) 2 0
  let c := upperSum f h v6 17 (f.drop u)
  putBe f (u + 6) 2 (if c = 0 then 65535 else c)

/-! ### Queues -/

/-- The link of a port is up and the port is in service. -/
def State.portUp (s : State) (p : Nat) : Bool := s.phase = .live && s.bit (Reg.ETH_PORT_CTRL p) 31 && s.bit (Reg.ETH_PORT_CTRL p) 30

/-- A publish queue of a port. -/
def State.txQueue (s : State) (p q : Nat) : List TxFrame := (s.ethPort p).queues.getD q []

/-- Change a publish queue. -/
def State.updQueue (s : State) (p q : Nat) (f : List TxFrame → List TxFrame) : State := s.updEth p fun e => { e with queues := updAt f q e.queues }

/-- A frame of a PUBLISH is dropped (R389): the command will end with DEADLINE_MISSED. -/
def State.frameLost (s : State) (x : TxFrame) : State := s.updCmd x.job x.cmd fun c => { c with aux := c.aux + 1 }

/-- Drop the frames of a queue that are eligible while the link is down, whether or not they have a launch time (R389). -/
def State.dropDown (p q : Nat) : Nat → State → State
  | 0, s => s
  | fuel + 1, s =>
    match s.txQueue p q with
    | [] => s
    | x :: _ =>
      if x.launch.isNone || x.due then
        State.dropDown p q fuel (((s.frameLost x).updQueue p q List.tail).sat (Reg.ETH_LAUNCH_LATE p) 31 0 1)
      else s

/-- Drop what is eligible on every publish queue of a port whose link is down. -/
def State.dropEligible (s : State) (p : Nat) : State :=
  if s.portUp p ∨ 2 ≤ p then s else (List.range 8).foldl (fun s q => s.dropDown p q 64) s

/-- Remove the frames of some PUBLISH commands that have not started on the wire (R392, R444). -/
def State.removeFrames (s : State) (which : TxFrame → Bool) : State :=
  let gone := s.eth.flatMap fun e => e.queues.flatMap fun q => q.filter which
  let s := gone.foldl (fun s x => s.frameLost x) s
  { s with eth := s.eth.map fun e => { e with queues := e.queues.map fun q => q.filter fun x => !which x } }

/-- The stall of a PUBLISH's job. -/
def State.stallOfJob (s : State) (id : Nat) : Nat := (s.job? id).elim 0 (·.stall)

/-- A PUBLISH that still waits to queue frames queues no more. -/
def Cmd.cutPublish (c : Cmd) : Cmd :=
  let n := (pubD c.desc).n
  if opcodeOf c.desc = 0x13 ∧ c.stage = .running ∧ c.progress < n then { c with progress := n, aux := c.aux + 1 } else c

/-- The frames of silenced stalls leave the publish queues, and their PUBLISH commands queue no more (R444). -/
def State.silenceFrames (s : State) : State :=
  let t := s.removeFrames fun x => s.silenced (s.stallOfJob x.job)
  let jobs := t.cmd.jobs.map fun j => if s.silenced j.stall then { j with cmds := j.cmds.map Cmd.cutPublish } else j
  { t with cmd := { t.cmd with jobs := jobs } }

/-! ### PUBLISH (R390 to R393) -/

/-- The publication header of frame k (R391). -/
def pubHeader (p : PubD) (src : Prov) (k : Nat) : List Byte :=
  beBytes 2 p.id ++ beBytes 1 1 ++ beBytes 1 src.stream ++ beBytes 2 k ++ beBytes 2 p.n ++ beBytes 4 src.frame ++ beBytes 4 (k * p.seg)
  ++ beBytes 8 (src.capture + b2n src.synced * 2 ^ 63) ++ beBytes 4 p.len ++ beBytes 4 0

/-- Frame k of a PUBLISH from its template, its payload and the source's stored selvage (R391). -/
def pubFrame (p : PubD) (template payload selvage : List Byte) (k : Nat) : List Byte :=
  let part := slice payload (k * p.seg) (min p.seg (p.len - k * p.seg))
  let f := template ++ pubHeader p (provOf selvage) k ++ part ++ (if k + 1 = p.n then selvage else [])
  if p.ipFill then fillUdp f (if p.tlen = 42 ∨ p.tlen = 62 then 14 else 18) (62 ≤ p.tlen) k else f

/-- The target launch time of a PUBLISH: none without one; OUT_OF_LIMIT where LAUNCH 2 gives none (R392). -/
def pubTarget (p : PubD) (src : Prov) : Except Nat (Option Nat) :=
  match p.launch with
  | 0 => .ok none
  | 1 => .ok (some p.time)
  | _ =>
    let t := (src.capture : Int) + signed 64 p.time
    if src.hasTime = false ∨ t < 0 ∨ (2 : Int) ^ 63 - 1 < t then .error St.OUT_OF_LIMIT else .ok (some t.toNat)

/-- The tag of a port's reads for a stall. [DESIGN CHOICE, log entry 91] -/
def State.portTag (s : State) (port stall : Nat) : Tag := s.tagOf stall (0x140 + port)

/-- Queue further frames of a PUBLISH while its queue has room (R388, R392). -/
def pubQueue (id i : Nat) (j : Job) (d : List Byte) : Run Unit := do
  let s ← get
  let p := pubD d
  let t := s.portTag p.port j.stall
  let sel ← readMem t (selvageAt p.src p.len) 32
  let payload ← readMem t p.src p.len
  let template ← readMem t p.template p.tlen
  let c := ((s.job? id).bind (·.cmd? i)).elim 0 (·.progress)
  let room := min (p.n - c) (64 - (s.txQueue p.port p.queue).length)
  let target := match pubTarget p (provOf sel) with
    | .ok t => t
    | .error _ => none
  let fs := (List.range room).map fun k =>
    ({ bytes := pubFrame p template payload sel (c + k), launch := if c + k = 0 then target else none, due := false, job := id, cmd := i } : TxFrame)
  change fun s =>
    let s := s.updQueue p.port p.queue fun q => q ++ fs
    let s := s.updCmd id i fun c => { c with stage := .running, progress := c.progress + room }
    s.dropEligible p.port

/-- A payload whose CRC does not match its selvage ends the command (R425). -/
def checkPayload (t : Tag) (base : Nat) (bytes selvage : List Byte) : Run Unit := do
  if (crc32c bytes).toNat ≠ le selvage 24 4 then do
    change fun s => s.report t.initiator.toNat Kind.PAYLOAD_CRC t.stall.val base
    throw St.CRC_MISMATCH

/-- PUBLISH's effect up to its first frames in the queue (R392). -/
def pubBody (id i : Nat) (j : Job) (c : Cmd) : Run Unit := do
  let s ← get
  let p := pubD c.desc
  let t := s.portTag p.port j.stall
  let sel ← readMem t (selvageAt p.src p.len) 32
  let payload ← readMem t p.src p.len
  checkPayload t p.src payload sel
  let tsel ← readMem t (selvageAt p.template p.tlen) 32
  let template ← readMem t p.template p.tlen
  checkPayload t p.template template tsel
  let src := provOf sel
  match pubTarget p src with
  | .error e => throw e
  | .ok target =>
    if s.silenced j.stall then throw St.DEADLINE_MISSED
    match p.mon with
    | none => pure ()
    | some m => do
      let s ← get
      let r := s.monJudge m j.stall src (((target.getD s.ns : Nat)) : Int)
      set r.2
      if r.1 ≠ 0 then throw r.1
    pubQueue id i j c.desc

/-- PUBLISH (R392). -/
def execPublish (job idx : Nat) (s : State) : Host.Outcome State Fault Refusal := .next (runPart s job idx 0x13 .started (pubBody job idx))

/-- PUBLISH_QUEUE_SPACE (R392): a PUBLISH that waits on a full queue queues further frames. -/
def execPublishQueueSpace (job idx : Nat) (s : State) : Host.Outcome State Fault Refusal :=
  .next (runPart s job idx 0x13 .running fun j c => if c.progress < (pubD c.desc).n then pubQueue job idx j c.desc else pure ())

/-- Frames of a command still wait in a publish queue. -/
def State.framesWait (s : State) (id i : Nat) : Bool := s.eth.any fun e => e.queues.any fun q => q.any fun x => x.job == id && x.cmd == i

/-- PUBLISH_LAST_FRAME_SENT (R392): every frame has left the wire or was dropped. -/
def execPublishLastFrameSent (job idx : Nat) (s : State) : Host.Outcome State Fault Refusal :=
  .next (runPart s job idx 0x13 .running fun _ c => change fun s =>
    if (pubD c.desc).n ≤ c.progress ∧ s.framesWait job idx = false then
      s.finishCmd job idx (if c.aux = 0 then successStatus c.own else St.DEADLINE_MISSED)
    else s)

/-! ### MACsec protection (R387) -/

/-- A 10G port protects its controlled port. -/
def State.macsecOn (s : State) (p : Nat) : Bool := p < 2 && s.bit (Reg.ETH_MACSEC_CTRL p) 31

/-- TX_AN. -/
def State.txAn (s : State) (p : Nat) : Nat := s.fld (Reg.ETH_MACSEC_CTRL p) 17 16

/-- CIPHER is an XPN suite. -/
def State.xpn (s : State) (p : Nat) : Bool := 2 ≤ s.fld (Reg.ETH_MACSEC_CTRL p) 25 24

/-- The transmit association in use. -/
def State.txSa (s : State) (p : Nat) : SecAssoc := (s.ethPort p).tx.getD (s.txAn p) {}

/-- The number of packet numbers of a suite. -/
def State.pnLimit (s : State) (p : Nat) : Nat := if s.xpn p then 2 ^ 64 else 2 ^ 32

/-- The controlled port can send: the association that TX_AN names is installed and has a packet number left. -/
def State.txAble (s : State) (p : Nat) : Bool := !s.macsecOn p || ((s.txSa p).installed && (s.txSa p).pn < s.pnLimit p)

/-- Bytes of a SAK under a suite. -/
def State.sakBytes (s : State) (p : Nat) : Nat := if s.fld (Reg.ETH_MACSEC_CTRL p) 25 24 % 2 = 0 then 16 else 32

/-- The vector of AES-GCM for a frame: SCI and packet number, or under XPN the salt with SSCI and packet number. -/
def State.gcmIv (s : State) (p : Nat) (sa : SecAssoc) (sci pn : Nat) : List Byte :=
  let k := s.sakBytes p
  if s.xpn p then
    let salt := be sa.sak k 12
    let ssci := be sa.sak (k + 12) 4
    beBytes 12 (salt ^^^ (ssci * 2 ^ 64 + pn))
  else beBytes 12 (sci * 2 ^ 32 + pn)

/-- CONF_OFFSET in bytes. -/
def State.confOffset (s : State) (p : Nat) : Nat := match s.fld (Reg.ETH_MACSEC_CTRL p) 21 20 with | 0 => 0 | 1 => 30 | _ => 50

/-- The port's own MAC address. -/
def State.ownMac (s : State) (p : Nat) : Nat := s.rd64 (Reg.ETH_MAC_ADDR p) % 2 ^ 48

/-- Protect a frame: SecTAG, encrypted data and ICV (IEEE 802.1AE-2018). PRESUMED: the frame format is the standard's. -/
def State.protect (s : State) (p : Nat) (f : List Byte) : List Byte :=
  let sa := s.txSa p
  let an := s.txAn p
  let explicit := s.bit (Reg.ETH_MACSEC_CTRL p) 12
  let sci := s.ownMac p * 2 ^ 16 + 1
  let data := f.drop 12
  let tci := (if explicit then 0x20 else 0x40) + 0x0C + an
  let tag := beBytes 2 0x88E5 ++ beBytes 1 tci ++ beBytes 1 (if data.length < 48 then data.length else 0) ++ beBytes 4 sa.pn ++ (if explicit then beBytes 8 sci else [])
  let off := min (s.confOffset p) data.length
  let key := sa.sak.take (s.sakBytes p)
  let iv := s.gcmIv p sa sci sa.pn
  let aad := f.take 12 ++ tag ++ data.take off
  let text := slice (gcmText key iv (data.drop off)) 0 (data.length - off)
  aad ++ text ++ slice (gcmTag key iv aad text) 0 16

/-- A controlled-port frame uses a packet number: MACSEC_PN_LOW once, MACSEC_PN_EXHAUSTED at the limit (R387). -/
def State.usePn (s : State) (p : Nat) : State :=
  let an := s.txAn p
  let sa := s.txSa p
  let low := !sa.lowSent && (if s.xpn p then 0xC000000000000000 else 0xC0000000) < sa.pn
  let s := s.updEth p fun e => { e with tx := updAt (fun a => { a with pn := a.pn + 1, lowSent := a.lowSent || low }) an e.tx }
  let s := if low then s.report (0x140 + p) Kind.MACSEC_PN_LOW 0 an else s
  if s.pnLimit p ≤ sa.pn + 1 then s.report (0x140 + p) Kind.MACSEC_PN_EXHAUSTED 0 an else s

/-! ### Starting a frame (R388, R389) -/

/-- EtherTypes that pass the uncontrolled port (R387). -/
def uncontrolled (f : List Byte) : Bool := etherType f == 0x888E || etherType f == 0x88F7

/-- A frame with bytes goes on the wire: counted, protected where MACsec is on, stamped where it is a gPTP event message (R375, R387). -/
def State.sendFrame (s : State) (p : Nat) (f : List Byte) : State :=
  let s := s.inc64 (Reg.ETH_TX_FRAMES p) 1
  let guard := s.macsecOn p && !uncontrolled f
  let wire := if guard then s.protect p f else f
  let h := ethHead f
  let mt := bits (be f h 1) 3 0
  let s := if etherType f = 0x88F7 ∧ (mt = 0 ∨ mt = 2 ∨ mt = 3) then
      let time := if p = 2 then s.capture 0 0 else s.capture 6 (s.fld (Reg.TIM_PORT_LAT p) 31 16)
      s.pushPtp p (s.captureRecord time (be f (h + 30) 2 + be f (h + 4) 1 * 2 ^ 16 + mt * 2 ^ 24 + 2 ^ 28 + p * 2 ^ 29))
    else s
  let s := if guard then s.usePn p else s
  s.emit (.frame p wire)

/-- The control queue's first frame goes on the wire. -/
def State.sendControl (s : State) (p : Nat) (x : CtlFrame) : State :=
  match x with
  | .barrow dst udp =>
    let s := s.inc64 (Reg.ETH_TX_FRAMES p) 1
    (if s.macsecOn p then s.usePn p else s).emit (.datagram p dst udp)
  | .reply f => s.sendFrame p f
  | .mgmt f => (s.sendFrame p f).setBit (Reg.ETH_MGMT_TX_CTRL p) 31 false
  | .fault mac dst port udp => (s.inc64 (Reg.ETH_TX_FRAMES p) 1).emit (.fault mac dst port udp)

/-- A control frame may go through the controlled port's rules now. -/
def State.ctlAble (s : State) (p : Nat) (x : CtlFrame) : Bool :=
  s.txAble p || (match x with | .mgmt f => uncontrolled f | _ => false)

/-- Put frame x of queue q aside as late (R389): counted and reported once. -/
def State.judgeLate (s : State) (p q : Nat) (x : TxFrame) (ns : Nat) : State :=
  if x.late then s
  else
    ((s.sat (Reg.ETH_LAUNCH_LATE p) 31 0 1).report (0x140 + p) Kind.LAUNCH_LATE (s.stallOfJob x.job) (q * 2 ^ 36 + min ns (2 ^ 32 - 1))).updQueue p q
      fun l => match l with | [] => [] | y :: t => { y with late := true } :: t

/-- EGRESS_NS plus 6 ticks, in ns (R389). [DESIGN CHOICE, log entry 84] -/
def State.launchAdvance (s : State) (p : Nat) : Nat := s.fld (Reg.TIM_PORT_LAT p) 31 16 + 48

/-- How many ns after its launch time a frame that starts now leaves (R389). [DESIGN CHOICE, log entry 84] -/
def State.lateness (s : State) (p t : Nat) : Nat := s.actionPast t (s.launchAdvance p) / nsUnit

/-- DROP_LATE of a queue. -/
def State.dropLate (s : State) (p q : Nat) : Bool := s.bit (Reg.ETH_QUEUE p q) 31

/-- The queues whose first frame's launch time has been reached, highest first. -/
def State.dueQueues (s : State) (p : Nat) : List Nat := (List.range 8).reverse.filter fun q => ((s.txQueue p q).head?).any fun x => x.launch.isSome && x.due

/-- The queues whose first frame has no launch time, highest first. -/
def State.freeQueues (s : State) (p : Nat) : List Nat := (List.range 8).reverse.filter fun q => ((s.txQueue p q).head?).any fun x => x.launch.isNone

/-- The first frame of a queue goes on the wire. -/
def State.sendHead (s : State) (p q : Nat) : State :=
  match s.txQueue p q with
  | [] => s
  | x :: _ => (s.updQueue p q List.tail).sendFrame p x.bytes

/-- The control queue, then frames without a launch time, as far as MACsec lets them go. -/
def State.pickControl (s : State) (p : Nat) : State :=
  match (s.ethPort p).ctrl.find? (s.ctlAble p) with
  | some x => (s.updEth p fun e => { e with ctrl := e.ctrl.erase x }).sendControl p x
  | none =>
    match (s.freeQueues p).find? (fun q => ((s.txQueue p q).head?).any fun x => s.txAble p || uncontrolled x.bytes) with
    | some q => s.sendHead p q
    | none => s

/-- The next frame of a 10G port (R388), lateness judged (R389): a late frame is reported, then sent or dropped; while the controlled port cannot send, due frames are treated as late. [DESIGN CHOICE, log entry 84] -/
def State.pickFrame (p : Nat) : Nat → State → State
  | 0, s => s
  | fuel + 1, s =>
    match s.dueQueues p with
    | q :: _ =>
      match s.txQueue p q with
      | [] => s
      | x :: _ =>
        let t := x.launch.getD 0
        let ns := s.lateness p t
        let late := (s.rd (Reg.ETH_LATE_NS p)).toNat * nsUnit < s.actionPast t (s.launchAdvance p) || (!s.txAble p && !uncontrolled x.bytes)
        let s := if late then s.judgeLate p q x ns else s
        if (late || x.late) && s.dropLate p q then State.pickFrame p fuel ((s.frameLost x).updQueue p q List.tail)
        else if s.txAble p || uncontrolled x.bytes then s.sendHead p q
        else s.pickControl p
    | [] => s.pickControl p
/-- A frame of the management port's queue 1 (R385). -/
def CtlFrame.isFault : CtlFrame → Bool
  | .fault .. => true
  | _ => false

/-- ETH_TX_FRAME_START (R388): the port picks its next frame. -/
def execEthTxFrameStart (port : PortId) (s : State) : Host.Outcome State Fault Refusal :=
  .next (
    let p := port.val
    if !s.portUp p then s
    else if p < 2 then State.pickFrame p 513 s
    else
      let l := (s.ethPort p).ctrl
      match (match l.find? CtlFrame.isFault with | some x => some x | none => l.head?) with
      | some x => (s.updEth p fun e => { e with ctrl := e.ctrl.erase x }).sendControl p x
      | none => s)

/-- LAUNCH_TIME_REACHED (R389): the first frame of a queue becomes eligible; while the link is down it is dropped. -/
def execLaunchTimeReached (port : Fin 2) (queue : Fin 8) (s : State) : Host.Outcome State Fault Refusal :=
  .next (
    let p := port.val
    let q := queue.val
    match s.txQueue p q with
    | [] => s
    | x :: _ =>
      if x.launch.isSome ∧ x.due = false ∧ s.phase = .live ∧ s.actionDue (x.launch.getD 0) (s.launchAdvance p) then
        (s.updQueue p q fun l => match l with | [] => [] | y :: t => { y with due := true } :: t).dropEligible p
      else s)

/-- ETH_LINK_CHANGE (R386, R389, R411). -/
def execEthLinkChange (port : PortId) (up : Bool) (s : State) : Host.Outcome State Fault Refusal :=
  .next (
    let p := port.val
    let c := Reg.ETH_PORT_CTRL p
    if s.phase ≠ .live ∨ s.bit c 31 = false ∨ s.bit c 30 = up then s
    else
      let s := s.setBit c 30 up
      if up then s else (s.report (0x140 + p) Kind.ETH_LINK_DOWN 0 0).dropEligible p)

/-! ### Register writes of a port -/

/-- What a write of ETH_PORT_CTRL leaves (R412): an undefined SPEED or a MAX_FRAME out of range keeps its field; the fields of the other kind of port stay 0; ENABLE = 0 takes the link down. -/
def State.afterPortCtrl (p : Nat) (old s : State) : State :=
  let c := Reg.ETH_PORT_CTRL p
  let m := s.fld c 13 0
  let s := if 64 ≤ m ∧ m ≤ (if p = 2 then 1536 else 9216) then s else s.setFld c 13 0 (old.fld c 13 0)
  let s := if p = 2 then s.setFld c 25 24 0 else (if s.fld c 25 24 = 3 then s.setFld c 25 24 (old.fld c 25 24) else s).setBit c 20 false
  if s.bit c 31 then s else (s.setBit c 30 false).dropEligible p

/-- What a write of ETH_MACSEC_CTRL leaves (R412). -/
def State.afterMacsec (p : Nat) (old s : State) : State :=
  let c := Reg.ETH_MACSEC_CTRL p
  if s.fld c 21 20 = 3 then s.setFld c 21 20 (old.fld c 21 20) else s

/-- What a write of ETH_MGMT_RX_STATUS does: POP removes the oldest frame (R394). -/
def State.afterMgmtPop (p : Nat) (v : Word) (s : State) : State := if v.getLsbD 30 then s.updEth p fun e => { e with rx := e.rx.tail } else s

/-- What a write of ETH_MGMT_TX_CTRL does: SEND queues the buffer's first LEN bytes (R394). A SEND while one is queued, or with a LEN outside 60 to 508, queues nothing. -/
def State.afterMgmtTx (p : Nat) (old s : State) : State :=
  let c := Reg.ETH_MGMT_TX_CTRL p
  let n := s.fld c 9 0
  if old.bit c 31 then s.wr c (old.rd c)
  else if s.bit c 31 then
    if 60 ≤ n ∧ n ≤ 508 then
      let b := leBytes 512 (s.rdN (Reg.ETH_MGMT_TX_DATA p 0) 128)
      s.updEth p fun e => { e with ctrl := e.ctrl ++ [.mgmt (b.take n)] }
    else s.setBit c 31 false
  else s

/-- ETH_MGMT_RX_STATUS as it reads (R394). -/
def State.readMgmtStatus (s : State) (p : Nat) : Word :=
  match (s.ethPort p).rx with
  | [] => 0#32
  | f :: _ => BitVec.ofNat 32 (2 ^ 31 + f.length)

/-- Word k of ETH_MGMT_RX_DATA as it reads: byte 0 of the oldest frame in bits [7:0] of the first word. -/
def State.readMgmtData (s : State) (p k : Nat) : Word := BitVec.ofNat 32 (le ((s.ethPort p).rx.headD []) (4 * k) 4)

end Sys2Proof.Machine
end

