-- ==== Sys2Proof/Machine/Firmware.lean ====
section
/-!
DEFINITION. The security core and the firmware processors (R469 to R493): images and their checks, the boot NOR, the
device configuration, lifecycle, key slots, attestation, restarts of a processor.
-/
namespace Sys2Proof.Machine

/-- Change the security core's state. -/
def State.updSec (s : State) (f : Sec → Sec) : State := { s with sec := f s.sec }

/-- Change the board and the fuses. -/
def State.updBoard (s : State) (f : Board → Board) : State := { s with board := f s.board }

/-- A firmware processor. -/
def State.proc (s : State) (n : Nat) : FwProc := s.fw.getD n {}

/-- Change a firmware processor. -/
def State.updProc (s : State) (n : Nat) (f : FwProc → FwProc) : State := { s with fw := updAt f n s.fw }

/-! ### Images (R471, R472) -/

/-- The device address of a NOR offset. -/
def norAddr (o : Nat) : Nat := 0x5000000000 + o

/-- The NOR offset of image n of a set (R474). -/
def imageAt (set n : Nat) : Nat := (if set = 0 then 0x100000 else 0x900000) + n * 0x100000

/-- CODE_LEN of an image header. -/
def codeLen (h : List Byte) : Nat := le h 12 4
/-- VERSION of an image header. -/
def imageVersion (h : List Byte) : Nat := le h 4 4
/-- SVN of an image header. -/
def imageSvn (h : List Byte) : Nat := le h 8 1 % 128
/-- DEBUG of an image header. -/
def imageDebug (h : List Byte) : Bool := bitOf (le h 9 1) 1
/-- ROOT of an image header. -/
def imageRoot (h : List Byte) : Nat := le h 9 1 % 2

/-- Instruction memory of a processor in bytes (R469). -/
def imemBytes (n : Nat) : Nat := if n = 0 then 512 * 1024 else 256 * 1024

/-- The digest D of an image: SHA3-256 of header, key and code. [PRESUMED, log entry 16] -/
def imageDigest (img : List Byte) : Nat := (sha3 (img.take (1408 + codeLen img))).toNat

/-- The image at a device address: as many bytes as its CODE_LEN asks for, at most the largest instruction memory's. -/
def State.imageBytes (s : State) (a : Nat) : List Byte :=
  s.peek a (1408 + min (codeLen (s.peek a 64)) (512 * 1024) + 2432)

/-- The reserved bytes of an image are zero. -/
def imageReserved (img : List Byte) : Bool :=
  bits (le img 3 1) 7 3 == 0 && !bitOf (le img 8 1) 7 && bits (le img 9 1) 7 2 == 0 && zeroBytes img 16 63 && zeroBytes img 1376 1407
  && zeroBytes img (1408 + codeLen img + 2420) (1408 + codeLen img + 2431)

/-- A root key's hash is the fused one, and the root is not revoked (R472, R480). -/
def State.rootOk (s : State) (root : Nat) (key : List Byte) : Bool :=
  (sha3 key).toNat == s.board.rootHash.getD root 0 && !(root == 0 && s.board.revoked0)

/-- The first check of R472 that an image for position n fails, 0 where it passes; a test restart skips checks 5 and 7. -/
def State.imageFails (s : State) (img : List Byte) (n : Nat) (versions : List Nat) (test : Bool) : Nat :=
  let key := slice img 64 1312
  let svn := imageSvn img
  if le img 0 2 ≠ 0x4657 ∨ le img 2 1 ≠ 1 ∨ imageReserved img = false ∨ le img 3 1 % 8 ≠ n ∨ 64 < svn then 1
  else if codeLen img = 0 ∨ imemBytes n < codeLen img ∨ codeLen img % 64 ≠ 0 then 2
  else if !s.rootOk (imageRoot img) key then 3
  else if !Config.mldsaVerify key (leBytes 32 (imageDigest img)) (slice img (1408 + codeLen img) 2420) then 4
  else if !test && svn < s.board.rollback.getD n 0 then 5
  else if imageDebug img && s.board.lifecycle == 2 then 6
  else if !test && versions.any (· ≠ imageVersion img) then 7
  else 0

/-- The images of a set in the NOR. -/
def State.imageSet (s : State) (set : Nat) : List (List Byte) := (List.range 7).map fun n => s.imageBytes (norAddr (imageAt set n))

/-- The failing check of each image of a set, 0 where it passes. -/
def State.setFails (s : State) (set : Nat) : List Nat :=
  let imgs := s.imageSet set
  let vs := imgs.map imageVersion
  imgs.zipIdx.map fun x => s.imageFails x.1 x.2 vs false

/-- Report FW_IMAGE_BAD: the image (7: the configuration), the set and the failing check (R491). -/
def State.imageBad (s : State) (n set check : Nat) : State := s.report 0x101 Kind.FW_IMAGE_BAD 0 (n + set * 16 + check * 256)

/-- Report every image of a set that fails. -/
def State.reportSet (s : State) (set : Nat) (fails : List Nat) : State :=
  fails.zipIdx.foldl (fun s x => if x.1 = 0 then s else s.imageBad x.2 set x.1) s

/-- The FW_ registers show an image as the one that processor n runs. -/
def State.showImage (s : State) (n : Nat) (img : List Byte) : State :=
  let s := (s.wr (Reg.FW_IMAGE n) (BitVec.ofNat 32 (imageVersion img))).wr (Reg.FW_IMAGE_SVN n)
    (BitVec.ofNat 32 (imageSvn img + le img 10 1 * 2 ^ 8 + le img 11 1 * 2 ^ 16))
  (s.wrN (Reg.FW_IMAGE_DIGEST n) 8 (imageDigest img)).updProc n fun p => { p with debug := imageDebug img }

/-! ### The directory (R474) -/

/-- A directory copy is valid. -/
def dirOk (b : List Byte) : Bool := le b 0 2 == 0x4452 && le b 2 1 == 1 && le b 60 4 == (crc32c (slice b 0 60)).toNat

/-- The directory in use: its copy, ACTIVE and GEN; none where neither copy is valid. [DESIGN CHOICE, log entry 76] -/
def State.directory (s : State) : Option (Nat × Nat × Nat) :=
  let c := fun (k : Nat) => s.peek (norAddr (k * 4096)) 64
  let v := fun (k : Nat) => (k, le (c k) 3 1 % 2, le (c k) 4 4)
  match dirOk (c 0), dirOk (c 1) with
  | false, false => none
  | true, false => some (v 0)
  | false, true => some (v 1)
  | true, true => some (if le (c 0) 4 4 < le (c 1) 4 4 then v 1 else v 0)

/-- The set that the directory names; set 0 where no copy is valid. [DESIGN CHOICE, log entry 76] -/
def State.activeSet (s : State) : Nat := s.directory.elim 0 (·.2.1)

/-- Write the other directory copy, naming a set, with a higher GEN (R474). -/
def State.writeDirectory (s : State) (set : Nat) : State :=
  let d := s.directory
  let copy := d.elim 0 fun x => 1 - x.1
  let gen := d.elim 1 fun x => x.2.2 + 1
  let b := leBytes 2 0x4452 ++ leBytes 1 1 ++ leBytes 1 set ++ leBytes 4 gen ++ List.replicate 52 0
  s.poke (norAddr (copy * 4096)) (b ++ leBytes 4 (crc32c b).toNat)

/-! ### The device configuration (R476) -/

/-- Bytes of a device configuration with its signature. -/
def configBytes : Nat := 1792 + 2420

/-- The reserved bytes of a configuration are zero. -/
def configReserved (b : List Byte) : Bool :=
  bits (le b 3 1) 7 1 == 0 && zeroBytes b 4 7 && zeroBytes b 10 15
  && (List.range 3).all (fun p =>
    let o := 16 + 16 * p
    bits (le b o 1) 7 3 == 0 && bits (le b (o + 1) 1) 7 2 == 0 && bits (le b (o + 2) 2) 15 12 == 0 && zeroBytes b (o + 8) (o + 15))
  && (List.range 8).all (fun n =>
    let o := 64 + 48 * n
    bits (le b o 1) 7 5 == 0 && zeroBytes b (o + 4) (o + 15) && zeroBytes b (o + 32) (o + 47))
  && zeroBytes b 1760 1791

/-- A configuration passes its checks: form, key and signature. -/
def State.configOk (s : State) (b : List Byte) : Bool :=
  let key := slice b 448 1312
  le b 0 2 == 0x4443 && le b 2 1 == 1 && configReserved b && s.board.cfgHash == some (sha3 key).toNat
  && Config.mldsaVerify key (leBytes 32 (sha3 (b.take 1792)).toNat) (slice b 1792 2420)

/-- The link-local address of a port: fe80::/64 with the modified EUI-64 of its MAC address (R476). -/
def State.linkLocal (s : State) (p : Nat) : Nat :=
  let m := s.ownMac p
  0xFE80 * 2 ^ 112 + ((m / 2 ^ 24) ^^^ 0x020000) * 2 ^ 40 + 0xFFFE * 2 ^ 24 + m % 2 ^ 24

/-- Load port record p (R476); port 2 is enabled whatever its record says. -/
def State.loadPort (s : State) (b : List Byte) (p : Nat) : State :=
  let o := 16 + 16 * p
  let f := le b o 1
  let s := s.setBit (Reg.ETH_PORT_CTRL p) 31 (p == 2 || bitOf f 0)
  let s := if p = 2 ∨ bits (le b (o + 1) 1) 1 0 = 3 then s else s.setFld (Reg.ETH_PORT_CTRL p) 25 24 (bits (le b (o + 1) 1) 1 0)
  let s := (s.setBit (Reg.ETH_NET p) 31 (bitOf f 1)).setFld (Reg.ETH_NET p) 27 16 (bits (le b (o + 2) 2) 11 0)
  let s := s.wr (Reg.ETH_IPV4 p) (BitVec.ofNat 32 (le b (o + 4) 4))
  if bitOf f 2 then s.wrN (Reg.ETH_IPV6 p) 4 (s.linkLocal p) else s

/-- Load host entry n (R476). -/
def State.loadHost (s : State) (b : List Byte) (n : Nat) : State :=
  let o := 64 + 48 * n
  let f := le b o 1
  let v := b2n (bitOf f 0) * 2 ^ 31 + b2n (bitOf f 1) * 2 ^ 30 + b2n (bitOf f 2) * 2 ^ 29 + b2n (bitOf f 3) * 2 ^ 28 + b2n (bitOf f 4) * 2 ^ 27
    + le b (o + 1) 1 * 2 ^ 16 + le b (o + 2) 2
  (s.wr (Reg.BAR_HOST n) (BitVec.ofNat 32 v)).wrN (Reg.BAR_HOST_ADDR n) 4 (le b (o + 16) 16)

/-- Use a configuration that passed: ports, hosts, and LPDDR5X training where it names it (R475, R476). -/
def State.useConfig (s : State) (b : List Byte) : State :=
  let s := (List.range 3).foldl (fun s p => s.loadPort b p) s
  let s := (List.range 8).foldl (fun s n => s.loadHost b n) s
  let s := s.updSec fun x => { x with config := some b }
  if bitOf (le b 3 1) 0 then
    let s := (s.setFld Reg.MEM_DDR_CFG 10 8 (le b 8 1)).setFld Reg.MEM_DDR_CFG 6 0 (le b 9 1)
    (s.setBit Reg.MEM_DDR_CFG 31 true).trainDdr
  else s

/-- Go on without a configuration (R476): no host but, in MANUFACTURE, any on the management port; only port 2. [DESIGN CHOICE, log entry 76] -/
def State.noConfig (s : State) : State :=
  let s := s.imageBad 7 0 0
  let s := (s.setBit (Reg.ETH_PORT_CTRL 2) 31 true).wrN (Reg.ETH_IPV6 2) 4 (s.linkLocal 2)
  if s.board.lifecycle = 0 then (s.wr (Reg.BAR_HOST 0) 0xB0000001#32).updBar fun b => { b with anyHost := true } else s

/-! ### Key slots (R486 to R488) -/

/-- A key blob's length in the NOR, up to the next 64-byte boundary. -/
def blobBytes (b : List Byte) : Nat := roundUp (32 + le b 8 2 + (if bitOf (le b 3 1) 7 then 16 else 0)) 64

/-- KIND of a blob. -/
def blobKind (b : List Byte) : Nat := le b 3 1 % 4

/-- The fields of a key blob are within their ranges (R487). -/
def blobForm (b : List Byte) : Bool :=
  let kind := blobKind b
  let slot := le b 4 2
  let len := le b 8 2
  le b 0 2 == 0x4B42 && le b 2 1 == 1 && kind ≤ 2 && bits (le b 3 1) 6 2 == 0 && zeroBytes b 10 15 && zeroBytes b 28 31
  && (if kind = 2 then slot < 128 && le b 6 2 == 0 && (len == 0 || len == 16 || len == 32 || len == 48) && (bitOf slot 1 || bits slot 4 2 == 0)
      else slot < 16 && (len == 0 || len == (if kind = 0 then 32 else 1312)))

/-- What the checks of R488 find: the ERR code that refuses a blob, or its key. -/
def State.openBlob (s : State) (b : List Byte) : Except Nat (List Byte) :=
  let len := le b 8 2
  if !blobForm b then .error 1
  else if bitOf (le b 3 1) 7 then
    match s.board.prov with
    | none => .error 2
    | some key =>
      let iv := slice b 16 12
      let cipher := slice b 32 len
      if slice (gcmTag key iv (b.take 32) cipher) 0 16 = slice b (32 + len) 16 then .ok (slice (gcmText key iv cipher) 0 len)
      else .error 2
  else if blobKind b = 2 ∧ s.bit Reg.SEC_KEY_CTRL 8 then .ok (slice b 32 len)
  else .error 4

/-- A MACsec association from a loaded SAK; none installed where the slot is emptied. -/
def saOf (key : List Byte) : SecAssoc := if key.isEmpty then {} else { installed := true, sak := key, pn := 1 }

/-- Put a key into the slot that its blob names (R487): key and STALLS together; LENGTH 0 empties the slot. -/
def State.fillSlot (s : State) (b key : List Byte) : State :=
  let slot := le b 4 2
  let word := if key.isEmpty then 0#32 else BitVec.ofNat 32 (2 ^ 31 + le b 6 2)
  match blobKind b with
  | 0 => (s.updSec fun x => { x with dkeys := x.dkeys.set slot key }).wr (Reg.SEC_DKEY slot) word
  | 1 => (s.updSec fun x => { x with vkeys := x.vkeys.set slot key }).wr (Reg.SEC_VKEY slot) word
  | _ =>
    let an := bits slot 6 5
    s.updEth (slot % 2) fun e =>
      if bitOf slot 1 then { e with rxSec := updAt (fun l => l.set an (saOf key)) (bits slot 4 2) e.rxSec } else { e with tx := e.tx.set an (saOf key) }

/-- Load one blob: the ERR code, 0 where it was loaded. -/
def State.loadBlob (s : State) (b : List Byte) : Nat × State :=
  match s.openBlob b with
  | .error e => (e, s)
  | .ok key => (0, s.fillSlot b key)

/-- The blobs laid end to end from a position of some bytes, up to the first that is none. -/
def blobsOf : Nat → List Byte → List (List Byte)
  | 0, _ => []
  | fuel + 1, b => if le b 0 2 = 0x4B42 ∧ b ≠ [] then b.take (blobBytes b) :: blobsOf fuel (b.drop (blobBytes b)) else []

/-- Load the NOR's key blobs (R475). -/
def State.loadNorKeys (s : State) : State := (blobsOf 14336 (s.peek (norAddr 0x20000) 0xE0000)).foldl (fun s b => (s.loadBlob b).2) s

/-- Every slot is empty. -/
def State.clearKeys (s : State) : State :=
  let s := s.updSec fun x => { x with dkeys := List.replicate 16 [], vkeys := List.replicate 16 [] }
  let s := (List.range 16).foldl (fun s n => (s.wr (Reg.SEC_DKEY n) 0#32).wr (Reg.SEC_VKEY n) 0#32) s
  { s with eth := s.eth.map fun e => { e with tx := List.replicate 4 {}, rxSec := List.replicate 8 (List.replicate 4 {}) } }

/-- A decryption slot serves a stall (R486). -/
def State.dkeyServes (s : State) (slot stall : Nat) : Bool := s.bit (Reg.SEC_DKEY slot) 31 && (stall == 0 || s.bit (Reg.SEC_DKEY slot) stall)

/-- Read as the security core for an operation: none where the read fails. [DESIGN CHOICE, log entry 36] -/
def State.secRead (s : State) (a n : Nat) : Option (List Byte) × State :=
  match runOn (readUnit s.secTag a n) s with
  | (.ok b, s) => (some b, s)
  | (.error _, s) => (none, s)

/-- What a write of SEC_KEY_CTRL does: START begins a load; one that runs refuses another with ERR 6 (R487, R492). -/
def State.afterKeyCtrl (v : Word) (s : State) : State :=
  let c := Reg.SEC_KEY_CTRL
  if !v.getLsbD 31 then s
  else if s.sec.keyLoad.isSome then s.setFld c 3 0 6
  else (s.setBit c 30 true).updSec fun x => { x with keyLoad := some (s.rd64 Reg.SEC_KEY_LOAD_ADDR % 2 ^ 40) }

/-- KEY_LOAD_COMPLETE (R487, R488): the blob is read, checked and loaded, or ERR is set. [DESIGN CHOICE, log entry 75] -/
def execKeyLoadComplete (s : State) : Host.Outcome State Fault Refusal :=
  .next (match s.sec.keyLoad with
    | none => s
    | some a =>
      if !s.securityUp then s
      else
        let c := Reg.SEC_KEY_CTRL
        let done := fun (e : Nat) (s : State) => ((s.setBit c 30 false).setFld c 3 0 e).updSec fun x => { x with keyLoad := none }
        match s.secRead a 64 with
        | (none, s) => done 1 s
        | (some h, s) =>
          match s.secRead a (if blobForm h then blobBytes h else 64) with
          | (none, s) => done 1 s
          | (some b, s) =>
            let r := s.loadBlob b
            done r.1 r.2)

/-! ### NOR operations (R477) -/

/-- The set that runs. -/
def State.runningSet (s : State) : Nat := s.fld Reg.FW_STATUS 24 24

/-- Bytes off to off + n − 1 of the NOR lie in an image set that neither runs nor is named by the directory, in the key-blob area or in the owner area. -/
def State.norTarget (s : State) (off n : Nat) : Bool :=
  let inside := fun (lo hi : Nat) => decide (lo ≤ off) && decide (off + n ≤ hi)
  let idle := fun (k : Nat) => s.runningSet != k && s.activeSet != k
  (inside 0x100000 0x900000 && idle 0) || (inside 0x900000 0x1100000 && idle 1) || inside 0x20000 0x100000 || inside 0x1100000 s.norBytes

/-- Blobs fill some bytes and every one passes (R477, R488). -/
def State.blobsOk (s : State) (b : List Byte) : Bool :=
  let l := blobsOf 14336 b
  (sumNat (l.map (·.length)) == b.length) && l.all fun x => match s.openBlob x with | .ok _ => true | .error _ => false

/-- A program's source may go to its target (R477). -/
def State.programOk (s : State) (off : Nat) (b : List Byte) : Bool :=
  if off = 0x10000 then configBytes ≤ b.length && b.length ≤ 0x10000 && s.configOk b
  else if 0x20000 ≤ off ∧ off < 0x100000 then off % 64 == 0 && s.norTarget off b.length && s.blobsOk b
  else s.norTarget off b.length

/-- What a write of SEC_NOR_CTRL does: START begins an erase or a program of a permitted target, or sets ERR (R477, R492). [PRESUMED, log entry 5] -/
def State.afterNorCtrl (v : Word) (s : State) : State :=
  let c := Reg.SEC_NOR_CTRL
  let op := s.fld c 25 24
  let off := (s.rd Reg.SEC_NOR_DST).toNat
  let len := (s.rd Reg.SEC_NOR_LEN).toNat
  let go := fun (o : NorOp) (s : State) => ((s.setBit c 30 true).setFld c 3 0 0).updSec fun x => { x with nor := some o }
  if !v.getLsbD 31 then s
  else if s.sec.nor.isSome ∨ s.sec.activate.isSome ∨ s.securityUp = false then s.setFld c 3 0 6
  else if op = 1 then
    if len ≠ 0 ∧ off % 0x10000 = 0 ∧ ((off = 0x10000 ∧ len = 1) ∨ s.norTarget off (len * 0x10000)) then go (.erase off len) s else s.setFld c 3 0 1
  else if op = 2 then
    let src := s.rd64 Reg.SEC_NOR_SRC % 2 ^ 40
    if len = 0 ∨ src % 64 ≠ 0 ∨ (off ≠ 0x10000 ∧ s.norTarget off len = false) then s.setFld c 3 0 1
    else match s.secRead src len with
      | (none, s) => s.setFld c 3 0 1
      | (some b, s) => if s.programOk off b then go (.program off b) s else s.setFld c 3 0 1
  else s.setFld c 3 0 1

/-- NOR_OP_COMPLETE (R477): the operation's effect, and BUSY clears. [PRESUMED, log entry 5] -/
def execNorOpComplete (s : State) : Host.Outcome State Fault Refusal :=
  .next (match s.sec.nor with
    | none => s
    | some o =>
      if !s.securityUp then s
      else
        let s := match o with
          | .erase off n => s.poke (norAddr off) (List.replicate (n * 0x10000) 0xFF)
          | .program off b => s.poke (norAddr off) b
        (s.setBit Reg.SEC_NOR_CTRL 30 false).updSec fun x => { x with nor := none })

/-! ### Activation and rollback (R478, R479) -/

/-- What a write of FW_ACTIVATE does: ACTIVATE begins the check of SET, refused with ERR 6 while a NOR operation or a check runs (R478, R485). -/
def State.afterActivate (v : Word) (s : State) : State :=
  let c := Reg.FW_ACTIVATE
  if !v.getLsbD 31 then s
  else if s.sec.nor.isSome ∨ s.sec.activate.isSome ∨ s.securityUp = false then s.setFld c 11 8 6
  else ((s.setBit c 30 true).setFld c 11 8 0).updSec fun x => { x with activate := some (s.fld c 0 0) }

/-- ACTIVATION_COMPLETE (R478). [DESIGN CHOICE, log entry 75] -/
def execActivationComplete (s : State) : Host.Outcome State Fault Refusal :=
  .next (match s.sec.activate with
    | none => s
    | some set =>
      if !s.securityUp then s
      else
        let c := Reg.FW_ACTIVATE
        let fails := s.setFails set
        let s := (s.setBit c 30 false).updSec fun x => { x with activate := none }
        match fails.find? (· ≠ 0) with
        | some e => (s.setFld c 11 8 e).reportSet set fails
        | none =>
          let s := s.writeDirectory set
          if set = s.runningSet then s else s.setBit Reg.FW_STATUS 30 true)

/-- What a write of SEC_ROLLBACK_COMMIT does (R479): bits are blown up to the running image's SVN, or ERR is set. -/
def State.afterRollback (v : Word) (s : State) : State :=
  let c := Reg.SEC_ROLLBACK_COMMIT
  let n := s.fld c 2 0
  let svn := s.fld (Reg.FW_IMAGE_SVN n) 6 0
  if !v.getLsbD 31 then s
  else if n = 7 then s.setFld c 11 8 1
  else if (s.proc n).debug then s.setFld c 11 8 4
  else if svn ≤ s.board.rollback.getD n 0 then s.setFld c 11 8 5
  else ((s.updBoard fun b => { b with rollback := b.rollback.set n svn }).wr (Reg.SEC_ROLLBACK n) (BitVec.ofNat 32 svn)).setFld c 11 8 0

/-! ### Lifecycle (R480) -/

/-- A lifecycle change that is allowed: 0 MANUFACTURE, 1 DEVELOP, 2 PRODUCTION, 3 RETURN. -/
def lcAllowed (a b : Nat) : Bool := (a == 0 && (b == 1 || b == 2)) || (a == 1 && (b == 2 || b == 3)) || (a == 2 && b == 3)

/-- The ERR code that refuses a token, 0 where it is granted. -/
def State.tokenFails (s : State) (t : List Byte) : Nat :=
  let key := slice t 64 1312
  let root := le t 20 1
  if le t 0 2 ≠ 0x4C43 ∨ 1 < le t 2 1 ∨ 3 < le t 3 1 ∨ 1 < root ∨ zeroBytes t 21 63 = false ∨ zeroBytes t 1376 1407 = false then 1
  else if s.rootOk root key = false ∨ Config.mldsaVerify key (leBytes 32 (sha3 (t.take 1408)).toNat) (slice t 1408 2420) = false then 2
  else if le t 4 4 ≠ (s.rd Reg.SEC_DEVICE_ID).toNat ∨ le t 8 8 ≠ s.board.serial ∨ le t 16 4 ≠ s.epoch then 3
  else if le t 2 1 = 0 ∧ lcAllowed s.board.lifecycle (le t 3 1) = false then 4
  else 0

/-- What a write of SEC_LC_CTRL does (R480): REQUEST judges the token at SEC_LC_TOKEN; MAP_CLEAR drops the in-service map entries at the next power-on reset, in MANUFACTURE and RETURN. -/
def State.afterLcCtrl (v : Word) (s : State) : State :=
  let c := Reg.SEC_LC_CTRL
  let s := if v.getLsbD 31 then
      match s.secRead (s.rd64 Reg.SEC_LC_TOKEN % 2 ^ 40) 3828 with
      | (none, s) => s.setFld c 3 0 1
      | (some t, s) =>
        let e := s.tokenFails t
        let s := s.setFld c 3 0 e
        if e ≠ 0 then s
        else if le t 2 1 = 0 then
          ((s.updBoard fun b => { b with lcNext := some (le t 3 1) }).setBit Reg.SEC_LIFECYCLE 31 true).setFld Reg.SEC_LIFECYCLE 5 4 (le t 3 1)
        else s.updBoard fun b => { b with revokeNext := true }
    else s
  if v.getLsbD 30 then
    if s.board.lifecycle = 0 ∨ s.board.lifecycle = 3 then s.updBoard fun b => { b with mapClear := true } else s.setFld c 3 0 4
  else s

/-! ### Attestation (R489, R490) -/

/-- The public key of the identity. -/
def State.idPublic (s : State) : List Byte := slice (Config.mldsaPublic (s.board.seed.getD [])) 0 1312

/-- The canonical encoding of the disabled-unit map in force (R85). -/
def State.mapBytes (s : State) : List Byte :=
  (List.range 32).flatMap fun g =>
    let c := s.core g
    let mask := c.bypass.foldl (fun m k => m + 2 ^ k) 0
    leBytes 2 (if c.disabled then 0 else 512 - c.bypass.length) ++ leBytes 1 (b2n c.disabled) ++ leBytes 1 0 ++ leBytes 64 mask

/-- Bytes 0 to 703 of an attestation report (R490). -/
def State.reportBody (s : State) : List Byte :=
  let st := s.rd Reg.FW_STATUS
  let flags := s.board.lifecycle + b2n (st.getLsbD 24) * 4 + b2n (st.getLsbD 23) * 8 + b2n (st.getLsbD 25) * 16
  leBytes 2 0x4154 ++ leBytes 1 1 ++ leBytes 1 flags ++ leBytes 4 (s.rd Reg.SEC_DEVICE_ID).toNat ++ leBytes 4 s.epoch
  ++ leBytes 4 s.board.devnum ++ leBytes 32 (s.rdN Reg.SEC_ATTEST_NONCE 8) ++ leBytes 8 s.timeWord ++ leBytes 8 s.board.serial
  ++ (List.range 7).flatMap (fun n => leBytes 4 (s.rd (Reg.FW_IMAGE n)).toNat ++ leBytes 1 (s.fld (Reg.FW_IMAGE_SVN n) 6 0)
      ++ leBytes 1 (s.board.rollback.getD n 0) ++ leBytes 2 0 ++ leBytes 32 (s.rdN (Reg.FW_IMAGE_DIGEST n) 8) ++ leBytes 24 0)
  ++ leBytes 32 (sha3 s.mapBytes).toNat
  ++ (List.range 4).flatMap (fun k => leBytes 4 (b2n (s.bit (Reg.TAL_SW_SLOT k) 31)) ++ leBytes 4 (s.rd (Reg.TAL_SW_ID k)).toNat
      ++ leBytes 4 (s.rd (Reg.TAL_SW_VER k)).toNat ++ leBytes 4 0)
  ++ leBytes 32 (s.sec.config.elim 0 fun b => (sha3 b).toNat) ++ leBytes 32 (sha3 s.idPublic).toNat ++ leBytes 32 0

/-- What a write of SEC_ATTEST_CTRL does: START captures the state, and is ignored while BUSY is 1 (R490). -/
def State.afterAttest (v : Word) (s : State) : State :=
  let c := Reg.SEC_ATTEST_CTRL
  if v.getLsbD 31 && !s.bit c 30 && s.securityUp then
    ((s.setBit c 30 true).setBit c 29 false).updSec fun x => { x with attest := some s.reportBody }
  else s

/-- ATTEST_DONE (R490): the report is signed and shown. -/
def execAttestDone (s : State) : Host.Outcome State Fault Refusal :=
  .next (match s.sec.attest with
    | none => s
    | some b =>
      if !s.securityUp then s
      else
        let sig := slice (Config.mldsaSign (s.board.seed.getD []) (leBytes 32 (sha3 b).toNat)) 0 2420
        let s := s.wrN Reg.SEC_ATTEST_REPORT 784 (leNat (b ++ sig))
        ((s.setBit Reg.SEC_ATTEST_CTRL 30 false).setBit Reg.SEC_ATTEST_CTRL 29 true).updSec fun x => { x with attest := none })

/-! ### Restarts (R481 to R485) -/

/-- The source ID of a firmware processor (R469). -/
def procSrc (n : Nat) : Nat := match n with | 0 => 0x101 | 1 => 0x102 | 2 => 0x100 | k => 0x101 + k

/-- Bound of a restart in ms (R469). -/
def procBound (n : Nat) : Nat := match n with | 0 => 5 | 2 => 2 | _ => 1

/-- A processor runs. -/
def State.procUp (s : State) (n : Nat) : Bool := s.bit Reg.FW_STATUS n

/-- What the security core had in progress ends with ERR 6 (R481). -/
def State.dropSecOps (s : State) : State :=
  let s := if s.sec.nor.isSome then (s.setBit Reg.SEC_NOR_CTRL 30 false).setFld Reg.SEC_NOR_CTRL 3 0 6 else s
  let s := if s.sec.keyLoad.isSome then (s.setBit Reg.SEC_KEY_CTRL 30 false).setFld Reg.SEC_KEY_CTRL 3 0 6 else s
  let s := if s.sec.activate.isSome then (s.setBit Reg.FW_ACTIVATE 30 false).setFld Reg.FW_ACTIVATE 11 8 6 else s
  let s := if s.sec.attest.isSome then s.setBit Reg.SEC_ATTEST_CTRL 30 false else s
  s.updSec fun x => { x with nor := none, keyLoad := none, activate := none, attest := none }

/-- Begin the restart of a processor (R481, R482, R485): merged into one in progress; a processor that is held, after a failure or in STANDBY, stays so. The old image writes its handoff block unless its watchdog expired. -/
def State.startRestart (s : State) (n cause : Nat) (test : Option (List Byte)) : State :=
  if s.bit (Reg.FW_PROC n) 28 ∨ (s.proc n).restart.isSome ∨ (2 ≤ n ∧ s.fld Reg.PWR_STATE 25 24 ≠ 0) then s
  else
    let s := (s.setBit (Reg.FW_PROC n) 30 true).setBit Reg.FW_STATUS n false
    let block := fun (h : Handoff) => if cause = 2 then h else
      { ver := s.fld (Reg.FW_IMAGE_SVN n) 23 16, cause := cause, writer := (s.rd (Reg.FW_IMAGE n)).toNat, gen := h.gen + 1 : Handoff }
    let s := s.updProc n fun p => { p with restart := some (cause, s.refNs), test := test, handoff := block p.handoff }
    if n = 0 then s.dropSecOps else s

/-- A restart has failed (R484): the processor is held in reset until a warm or power-on reset. -/
def State.restartFail (s : State) (n : Nat) : State :=
  let s := ((s.setBit (Reg.FW_PROC n) 30 false).setBit (Reg.FW_PROC n) 28 true).setBit Reg.FW_STATUS n false
  (s.updProc n fun p => { p with restart := none, test := none }).report (procSrc n) Kind.FW_RESTART_FAIL 0 n

/-- A control core that restarts during an escalation of its cluster reads the stage entered and repeats that stage's probe (R113). -/
def State.resumeProbes (s : State) (cluster : Nat) : State :=
  (List.range 8).foldl (fun s k => s.updCore (cluster * 8 + k) fun c =>
    { c with escal := c.escal.map fun o => o.map fun e => if e.phase = .probing ∨ (e.phase = .due ∧ e.stage ≠ 0) then { e with phase := .probeDue } else e }) s

/-- The restart controller releases processor n (R481, R482): the cause, the count, the handoff block read. -/
def State.endRestart (s : State) (n : Nat) (reloaded damaged : Bool) : State :=
  match (s.proc n).restart with
  | none => s
  | some (cause, _) =>
    let cause := if reloaded then 5 else cause
    let s := match (s.proc n).test with
      | some img => (s.showImage n img).setBit Reg.FW_STATUS 25 true
      | none => s
    let s := ((s.setBit (Reg.FW_PROC n) 30 false).setFld (Reg.FW_PROC n) 26 24 cause).setBit Reg.FW_STATUS n true
    let s := (s.sat (Reg.FW_RESTARTS n) 31 0 1).updProc n fun p => { p with restart := none, test := none }
    let s := s.report (procSrc n) Kind.FW_RESTARTED 0 (n + cause * 16 + (s.rd (Reg.FW_RESTARTS n)).toNat % 2 ^ 24 * 2 ^ 16)
    let h := (s.proc n).handoff
    let i := Reg.FW_IMAGE_SVN n
    let s := if damaged = false ∧ (h.ver = 0 ∨ (s.fld i 15 8 ≤ h.ver ∧ h.ver ≤ s.fld i 23 16)) then s
      else s.report (procSrc n) Kind.FW_HANDOFF_BAD 0 (n + h.ver * 2 ^ 16)
    if 3 ≤ n then s.resumeProbes (n - 3) else s

/-- FW_WATCHDOG_EXPIRE (R484, R485): ignored during a restart; a second expiry within 1 s of a watchdog restart holds the processor. -/
def execFwWatchdogExpire (proc : Fin 7) (s : State) : Host.Outcome State Fault Refusal :=
  .next (
    let n := proc.val
    if s.phase ≠ .live ∨ s.procUp n = false ∨ s.pwr.warm then s
    else
      let s := (s.sat (Reg.FW_WDT_EXP n) 31 0 1).report (procSrc n) Kind.FW_WATCHDOG 0 n
      let again : Bool := match (s.proc n).watchAt with
        | some t => decide (s.refNs < t + 1000000000)
        | none => false
      if again then s.restartFail n else (s.startRestart n 2 none).updProc n fun p => { p with watchAt := some s.refNs })

/-- FW_RESTART_TIMEOUT (R484): a restart has not finished within its bound plus 3 ms. -/
def execFwRestartTimeout (proc : Fin 7) (s : State) : Host.Outcome State Fault Refusal :=
  .next (match (s.proc proc.val).restart with
    | some (_, t) => if s.phase = .live ∧ s.pwr.warm = false ∧ t + (procBound proc.val + 3) * 1000000 ≤ s.refNs then s.restartFail proc.val else s
    | none => s)

/-- What a write of FW_PROCn does (R481, R483, R493): RESTART; TEST, ignored in PRODUCTION, checks the image at FW_TEST_ADDR; WDT_MS outside 1 to 1,000 keeps the old one. -/
def State.afterFwProc (n : Nat) (v : Word) (old s : State) : State :=
  let r := Reg.FW_PROC n
  let w := s.fld r 15 0
  let s := if 1 ≤ w ∧ w ≤ 1000 then s else s.setFld r 15 0 (old.fld r 15 0)
  let s := if v.getLsbD 31 then s.startRestart n 1 none else s
  if v.getLsbD 29 && s.board.lifecycle != 2 && s.securityUp then
    let a := s.rd64 Reg.FW_TEST_ADDR % 2 ^ 40
    match s.secRead a 64 with
    | (none, s) => s.imageBad n 0 1
    | (some h, s) =>
      match s.secRead a (1408 + min (codeLen h) (512 * 1024) + 2432) with
      | (none, s) => s.imageBad n 0 1
      | (some img, s) =>
        let e := if a % 64 = 0 then s.imageFails img n [] true else 1
        if e = 0 then s.startRestart n 4 (some img) else s.imageBad n 0 e
  else s

end Sys2Proof.Machine
end

