-- ==== Sys2Proof/Machine/Isp.lean ====
section
/-!
DEFINITION. The arithmetic of the image pipeline (R342 to R347, R352): its stages from raw codes to the planes of an output,
the scalers, and the statistics of a frame.
-/
namespace Sys2Proof.Machine

/-- A plane of an image: the value at column x and row y. -/
abbrev Pixels := Nat → Nat → Nat

/-- A value clamped to w unsigned bits (R344). -/
def clampU (w : Nat) (v : Int) : Nat := if v < 0 then 0 else min v.toNat (2 ^ w - 1)

/-- v / 2^s rounded half away from zero (R76, R344). -/
def rsh (v : Int) (s : Nat) : Int := roundShift v s 0

/-- a / b rounded half away from zero, b positive. -/
def rdiv (a : Int) (b : Nat) : Int :=
  let q : Int := ((2 * a.natAbs + b) / (2 * b) : Nat)
  if a < 0 then -q else q

/-! ### The tuning set (R351) -/

/-- A little-endian field of a tuning set. -/
def tu (t : List Byte) (off n : Nat) : Nat := le t off n
/-- LIN[k]. -/
def tuLin (t : List Byte) (k : Nat) : Nat := tu t (0x40 + 4 * k) 4 % 2 ^ 24
/-- SAT_e. -/
def tuSat (t : List Byte) (e : Nat) : Nat := tu t (0x480 + 4 * e) 4
/-- GAIN_e. -/
def tuGain (t : List Byte) (e : Nat) : Nat := tu t (0x490 + 4 * e) 4
/-- BL_c. -/
def tuBl (t : List Byte) (c : Nat) : Nat := tu t (0x4A0 + 4 * c) 4
/-- BLG_c. -/
def tuBlg (t : List Byte) (c : Nat) : Nat := tu t (0x4B0 + 2 * c) 2
/-- DEF_HI. -/
def tuDefHi (t : List Byte) : Nat := tu t 0x4C0 4
/-- DEF_LO. -/
def tuDefLo (t : List Byte) : Nat := tu t 0x4C4 4
/-- STATIC: the device address of the static list. -/
def tuStatic (t : List Byte) : Nat := tu t 0x4C8 8 % 2 ^ 40
/-- STATIC_N. -/
def tuStaticN (t : List Byte) : Nat := min (tu t 0x4D0 4) 4096
/-- A node of the lens-shading grid. -/
def tuLens (t : List Byte) (c gx gy : Nat) : Nat := tu t (0x500 + 2 * ((c * 25 + gy) * 33 + gx)) 2
/-- WB_c. -/
def tuWb (t : List Byte) (c : Nat) : Nat := tu t (0x1F00 + 2 * c) 2
/-- IRS_c. -/
def tuIrs (t : List Byte) (c : Nat) : Nat := tu t (0x1F08 + 2 * c) 2
/-- CCM, row-major. -/
def tuCcm (t : List Byte) (r c : Nat) : Int := signed 16 (tu t (0x1F0E + 2 * (3 * r + c)) 2)
/-- OFF_c. -/
def tuOff (t : List Byte) (c : Nat) : Int := signed 32 (tu t (0x1F20 + 4 * c) 4)
/-- A node of the tone gain grid. -/
def tuTone (t : List Byte) (gx gy : Nat) : Nat := tu t (0x1F40 + 2 * (gy * 33 + gx)) 2
/-- A knee of the tone curve. -/
def tuCurve (t : List Byte) (k : Nat) : Nat := tu t (0x25B2 + 2 * k) 2
/-- A knee of the gamma table. -/
def tuGamma (t : List Byte) (k : Nat) : Nat := tu t (0x2800 + 2 * k) 2
/-- The YUV matrix. -/
def tuYuv (t : List Byte) (r c : Nat) : Int := signed 16 (tu t (0x2A40 + 2 * (3 * r + c)) 2)
/-- The YUV offsets. -/
def tuYuvOff (t : List Byte) (r : Nat) : Int := signed 16 (tu t (0x2A52 + 2 * r) 2)
/-- The statistics window: X0, Y0, W, H. -/
def tuWindow (t : List Byte) (k : Nat) : Nat := tu t (0x2A80 + 2 * k) 2

/-- Bytes of a tuning set. -/
def tuneBytes : Nat := 16384

/-- The reserved bytes of a tuning set, first and last (R351). -/
def tuneReserved : List (Nat × Nat) :=
  [(0x0001, 0x003F), (0x0444, 0x047F), (0x04B8, 0x04BF), (0x04D4, 0x04FF), (0x1EC8, 0x1EFF), (0x1F2C, 0x1F3F),
   (0x27B4, 0x27FF), (0x2A02, 0x2A3F), (0x2A58, 0x2A7F), (0x2A88, 0x3FFF)]

/-- VERSION and the reserved bytes of a tuning set are right (R351). -/
def tuneOk (t : List Byte) : Bool := le t 0 1 == 1 && tuneReserved.all fun r => zeroBytes t r.1 r.2

/-! ### Colour filters (R343) -/

/-- The colour of a site: 0 R, 1 G (or C), 2 B, 3 IR. -/
def siteColour (cfa x y : Nat) : Nat :=
  let dx := x % 2
  let dy := y % 2
  match cfa % 4, decide (cfa < 8) with
  | 0, true => if dx + dy = 0 then 0 else if dx + dy = 2 then 2 else 1
  | 1, true => if dy = 0 then (if dx = 1 then 0 else 1) else (if dx = 0 then 2 else 1)
  | 2, true => if dy = 0 then (if dx = 1 then 2 else 1) else (if dx = 0 then 0 else 1)
  | _, true => if dx + dy = 0 then 2 else if dx + dy = 2 then 0 else 1
  | _, false => if cfa = 8 then (Config.irSite (x % 4) (y % 4)).val else 1

/-- The channel of a site: its black level and lens-shading grid. -/
def siteChannel (cfa x y : Nat) : Nat := (Config.cfaChannel cfa (x % 4) (y % 4)).val

/-! ### Stages 1 to 5 (R344) -/

/-- A 257-knee table at code c with s bits below the knee (R344). -/
def knee (tab : Nat → Nat) (s c : Nat) : Int :=
  let k := c >>> s
  if s = 0 then (tab k : Int)
  else (tab k : Int) + rsh (((tab (k + 1) : Int) - (tab k : Int)) * ((c % 2 ^ s : Nat) : Int)) s

/-- Linearisation of a code of depth d. -/
def linear (t : List Byte) (d c : Nat) : Nat := clampU 24 (knee (tuLin t) (d - 8) c)

/-- Exposure merge of the linear values of exposures 0 to n − 1: the lowest below its SAT, or the last. -/
def mergeFrom (t : List Byte) (vs : Nat → Nat) (last : Nat) : Nat → Nat → Nat
  | 0, e => clampU 24 (rsh ((vs e : Int) * (tuGain t e : Int)) 16)
  | n + 1, e => if e = last ∨ vs e < tuSat t e then clampU 24 (rsh ((vs e : Int) * (tuGain t e : Int)) 16) else mergeFrom t vs last n (e + 1)

/-- Exposure merge. -/
def merge (t : List Byte) (exposures : Nat) (vs : Nat → Nat) : Nat := mergeFrom t vs (exposures - 1) exposures 0

/-- Black level. -/
def blackLevel (t : List Byte) (c v : Nat) : Nat :=
  if tuBl t c < v then clampU 24 (rsh (((v - tuBl t c) * tuBlg t c : Nat) : Int) 12) else 0

/-- Insert a number in ascending order. -/
def insertAsc (v : Nat) : List Nat → List Nat
  | [] => [v]
  | a :: t => if v ≤ a then v :: a :: t else a :: insertAsc v t

/-- A pixel of a plane with mirrored edges (R127). -/
def mirrored (w h : Nat) (p : Pixels) (x y : Int) : Nat := p (mirror x w) (mirror y h)

/-- The defect stage: a listed pixel, or one outside its eight neighbours at distance 2 by more than the thresholds, is replaced by the mean of the middle two. -/
def defect (t : List Byte) (w h : Nat) (listed : Nat → Nat → Bool) (p : Pixels) (x y : Nat) : Nat :=
  let v := p x y
  let n := [(-2, -2), (0, -2), (2, -2), (-2, 0), (2, 0), (-2, 2), (0, 2), (2, 2)].map fun (d : Int × Int) => mirrored w h p ((x : Int) + d.1) ((y : Int) + d.2)
  let l := n.foldl (fun l a => insertAsc a l) []
  let lo := l.getD 0 0
  let hi := l.getD 7 0
  if listed x y || decide (hi + tuDefHi t < v) || decide (v + tuDefLo t < lo) then (l.getD 3 0 + l.getD 4 0) / 2 else v

/-- The node below a position among n intervals over a span of m pixels, and the weight to the next in 1/65,536 (R344). -/
def gridAt (n m x : Nat) : Nat × Nat :=
  if m ≤ 1 then (0, 0)
  else
    let k := min (x * n / (m - 1)) (n - 1)
    (k, (rdiv (((x * n - k * (m - 1)) * 65536 : Nat) : Int) (m - 1)).toNat)

/-- The gain of a 33 × 25 grid at a pixel, rounded to U4.12 (R344). -/
def gridGain (node : Nat → Nat → Nat) (w h x y : Nat) : Nat :=
  let gx := gridAt 32 w x
  let gy := gridAt 24 h y
  let a := node gx.1 gy.1
  let b := node (gx.1 + 1) gy.1
  let c := node gx.1 (gy.1 + 1)
  let d := node (gx.1 + 1) (gy.1 + 1)
  let top := a * (65536 - gx.2) + b * gx.2
  let bot := c * (65536 - gx.2) + d * gx.2
  (rsh ((top * (65536 - gy.2) + bot * gy.2 : Nat) : Int) 32).toNat

/-- Lens shading. -/
def lensShade (t : List Byte) (cfa w h : Nat) (p : Pixels) (x y : Nat) : Nat :=
  clampU 24 (rsh ((p x y * gridGain (tuLens t (siteChannel cfa x y)) w h x y : Nat) : Int) 12)

/-! ### Demosaic (R344) -/

/-- Green at a site of another colour. -/
def greenAt (w h : Nat) (p : Pixels) (x y : Nat) : Nat :=
  let v := fun (dx dy : Int) => (mirrored w h p ((x : Int) + dx) ((y : Int) + dy) : Int)
  let c := v 0 0
  let gh := (v (-1) 0 - v 1 0).natAbs + (2 * c - v (-2) 0 - v 2 0).natAbs
  let gv := (v 0 (-1) - v 0 1).natAbs + (2 * c - v 0 (-2) - v 0 2).natAbs
  let hor := rdiv (v (-1) 0 + v 1 0) 2 + rdiv (2 * c - v (-2) 0 - v 2 0) 4
  let ver := rdiv (v 0 (-1) + v 0 1) 2 + rdiv (2 * c - v 0 (-2) - v 0 2) 4
  clampU 24 (if gh < gv then hor else if gv < gh then ver else rdiv (hor + ver) 2)

/-- The green plane of a Bayer or RCCB image. -/
def greenPlane (cfa w h : Nat) (p : Pixels) : Pixels := fun x y => if siteColour cfa x y = 1 then p x y else greenAt w h p x y

/-- R (0) or B (2) of a Bayer or RCCB image: G plus the mean of the nearest differences of that colour. -/
def colourPlane (cfa w h col : Nat) (p : Pixels) : Pixels := fun x y =>
  let g := greenPlane cfa w h p
  if siteColour cfa x y = col then p x y
  else
    let diff := fun (d : Int × Int) =>
      let mx := mirror ((x : Int) + d.1) w
      let my := mirror ((y : Int) + d.2) h
      (p mx my : Int) - (g mx my : Int)
    let near := if siteColour cfa (x + 1) y = col then [(-1, 0), (1, 0)]
      else if siteColour cfa x (y + 1) = col then [(0, -1), (0, 1)]
      else [(-1, -1), (1, -1), (-1, 1), (1, 1)]
    clampU 24 ((g x y : Int) + rdiv (near.foldl (fun a d => a + diff d) 0) near.length)

/-- A colour of an RGB-IR image at a pixel: its own sites as they are, other sites interpolated. -/
def irPlane (w h col : Nat) (p : Pixels) : Pixels := fun x y =>
  if (Config.irSite (x % 4) (y % 4)).val = col then p x y
  else min (2 ^ 24 - 1) (Config.irInterp col (x % 4) (y % 4) ((List.range 25).map fun k => mirrored w h p ((x : Int) + (k % 5 : Nat) - 2) ((y : Int) + (k / 5 : Nat) - 2)))

/-- The planes after stage 6: R, G, B and IR; a monochrome image carries its one plane in each. -/
def demosaic (cfa w h : Nat) (p : Pixels) (col : Nat) : Pixels :=
  if cfa = 15 then p
  else if cfa = 8 then irPlane w h col p
  else if col = 1 then greenPlane cfa w h p
  else colourPlane cfa w h col p

/-! ### Stages 7 to 10 (R344) -/

/-- Local tone map of one colour. -/
def toneMap (t : List Byte) (w h : Nat) (p : Pixels) : Pixels := fun x y =>
  clampU 16 (knee (tuCurve t) 16 (clampU 24 (rsh ((p x y * gridGain (tuTone t) w h x y : Nat) : Int) 12)))

/-- Colour correction: white balance, IR subtraction for RGB-IR, matrix and offsets; a monochrome image passes. -/
def correct (t : List Byte) (cfa : Nat) (rgb : Nat → Pixels) (ir : Pixels) (c : Nat) : Pixels := fun x y =>
  if cfa = 15 then rgb c x y
  else
    let bal := fun k => clampU 16 (rsh ((rgb k x y * tuWb t k : Nat) : Int) 12)
    let sub := fun k => if cfa = 8 then clampU 16 ((bal k : Int) - rsh ((Config.irNarrow 16 (ir x y) % 65536 * tuIrs t k : Nat) : Int) 12) else bal k
    clampU 16 (rsh (tuCcm t c 0 * (sub 0 : Int) + tuCcm t c 1 * (sub 1 : Int) + tuCcm t c 2 * (sub 2 : Int)) 12 + tuOff t c)

/-- Gamma of one colour. -/
def gammaOf (t : List Byte) (p : Pixels) : Pixels := fun x y => clampU 8 (knee (tuGamma t) 8 (p x y))

/-- Y (0), U (1) or V (2). -/
def yuvOf (t : List Byte) (rgb : Nat → Pixels) (k : Nat) : Pixels := fun x y =>
  clampU 8 (rsh (tuYuv t k 0 * (rgb 0 x y : Int) + tuYuv t k 1 * (rgb 1 x y : Int) + tuYuv t k 2 * (rgb 2 x y : Int)) 14 + tuYuvOff t k)

/-! ### The scaler (R347) -/

/-- One axis: n source values from f, scaled to m. -/
def scaleAxis (n m : Nat) (f : Nat → Nat) (o : Nat) : Nat :=
  let b := n / m
  let g := fun i => if b ≤ 1 then f i else (rdiv (((List.range b).foldl (fun a k => a + f (i * b + k)) 0 : Nat) : Int) b).toNat
  let cnt := if b ≤ 1 then n else n / b
  -- position (o + 1/2) × n / (m × b) − 1/2 in units of 1 / (2 × m × b)
  let den := 2 * m * max b 1
  let pos : Int := ((2 * o + 1) * n : Nat) - (m * max b 1 : Nat)
  if pos ≤ 0 then g 0
  else
    let i := pos.toNat / den
    let wt := (rdiv (((pos.toNat % den) * 65536 : Nat) : Int) den).toNat
    let a := g (min i (cnt - 1))
    let c := g (min (i + 1) (cnt - 1))
    (rsh ((a * (65536 - wt) + c * wt : Nat) : Int) 16).toNat

/-- Crop a plane and scale it, horizontal before vertical. -/
def scale (x0 y0 cw ch ow oh : Nat) (p : Pixels) : Pixels := fun x y =>
  scaleAxis ch oh (fun j => scaleAxis cw ow (fun i => p (x0 + i) (y0 + j)) x) y

/-! ### A frame through the pipeline -/

/-- What the pipeline knows of a frame: its tuning set, colour filter, size, depth, exposures, raw codes by exposure, static defects. -/
structure Image where
  tune : List Byte
  cfa : Nat
  w : Nat
  h : Nat
  depth : Nat
  exposures : Nat
  raw : Nat → Pixels
  listed : Nat → Nat → Bool

/-- The image after stage 3. -/
def Image.black (i : Image) : Pixels := fun x y =>
  blackLevel i.tune (siteChannel i.cfa x y) (merge i.tune i.exposures fun e => linear i.tune i.depth (i.raw e x y))

/-- The image after stage 5. -/
def Image.shaded (i : Image) : Pixels := lensShade i.tune i.cfa i.w i.h (defect i.tune i.w i.h i.listed i.black)

/-- A colour plane after stage 6. -/
def Image.colour (i : Image) (c : Nat) : Pixels := demosaic i.cfa i.w i.h i.shaded c

/-- A colour plane after stage 8. -/
def Image.corrected (i : Image) (c : Nat) : Pixels := correct i.tune i.cfa (fun k => toneMap i.tune i.w i.h (i.colour k)) (i.colour 3) c

/-- A colour plane after stage 9. -/
def Image.rgb8 (i : Image) (c : Nat) : Pixels := gammaOf i.tune (i.corrected c)

/-- A plane of stage 10. -/
def Image.yuv (i : Image) (k : Nat) : Pixels := yuvOf i.tune i.rgb8 k

/-- An output record (R346). -/
structure OutRec where
  fmt : Nat
  x0 : Nat
  y0 : Nat
  cw : Nat
  ch : Nat
  ow : Nat
  oh : Nat
  land : List Nat
  pub : Nat
  row : Nat
  plane : Nat
  deriving DecidableEq, Repr

/-- Decode an output record (R346). -/
def outRec (b : List Byte) : OutRec :=
  { fmt := le b 0 1 % 16, x0 := le b 2 2, y0 := le b 4 2, cw := le b 6 2, ch := le b 8 2, ow := le b 10 2, oh := le b 12 2,
    land := [le b 16 5, le b 24 5], pub := le b 32 5, row := le b 40 4, plane := le b 44 4 }

/-- Planes of an output (R346); format 6 has one for each exposure. -/
def OutRec.planes (o : OutRec) (exposures : Nat) : Nat :=
  match o.fmt with | 2 => 1 | 5 => 1 | 3 => 2 | 6 => exposures | _ => 3

/-- The extent of an output's buffers (R346). -/
def OutRec.extent (o : OutRec) (exposures : Nat) : Nat :=
  if o.planes exposures = 1 then o.oh * o.row else o.planes exposures * o.plane

/-- The scaled value of a plane at an output pixel. -/
def OutRec.at (o : OutRec) (p : Pixels) : Pixels := scale o.x0 o.y0 o.cw o.ch o.ow o.oh p

/-- The bytes of row y of plane p of an output in formats 0 to 5 (R345, R346). -/
def Image.rowBytes (i : Image) (o : OutRec) (p y : Nat) : List Byte :=
  let px := fun (f : Nat → List Byte) => (List.range o.ow).flatMap f
  match o.fmt with
  | 0 => px fun x => leBytes 1 (o.at (i.rgb8 p) x y)
  | 1 => px fun x => leBytes 1 (o.at (i.rgb8 p) x y + 128)
  | 2 => px fun x => leBytes 1 (o.at (i.yuv 0) x y)
  | 3 =>
    if p = 0 then px fun x => leBytes 1 (o.at (i.yuv 0) x y)
    else (List.range (o.ow / 2)).flatMap fun x =>
      let c := fun k => let u := o.at (i.yuv k); Config.chroma (u (2 * x) (2 * y)) (u (2 * x + 1) (2 * y)) (u (2 * x) (2 * y + 1)) (u (2 * x + 1) (2 * y + 1))
      leBytes 1 (c 1) ++ leBytes 1 (c 2)
  | 4 => px fun x => leBytes 2 (fp16.ofRatio false (o.at (i.corrected p) x y) 65535)
  | 5 => px fun x => leBytes 1 (o.at (fun a b => Config.irNarrow 8 (i.colour 3 a b) % 256) x y)
  | _ => []

/-- The rows of plane p: half as many in NV12's second plane. -/
def OutRec.rowsOf (o : OutRec) (p : Nat) : Nat := if o.fmt = 3 ∧ p = 1 then o.oh / 2 else o.oh

/-! ### Statistics (R352) -/

/-- The cell size of the statistics: 4 for RGB-IR, else 2. -/
def cellSize (cfa : Nat) : Nat := if cfa = 8 then 4 else 2

/-- The mean of a colour's sites in a cell, rounded; a monochrome cell's pixels serve every colour. -/
def Image.cellMean (i : Image) (cx cy col : Nat) : Nat :=
  let n := cellSize i.cfa
  let l := (List.range (n * n)).filterMap fun k =>
    let x := cx * n + k % n
    let y := cy * n + k / n
    if i.cfa = 15 || siteColour i.cfa x y == col then some (i.shaded x y) else none
  if l.isEmpty then 0 else (rdiv ((sumNat l : Nat) : Int) l.length).toNat

/-- R, G, B or Y of a cell. -/
def Image.cell (i : Image) (cx cy k : Nat) : Nat :=
  if k < 3 then i.cellMean cx cy k else (i.cellMean cx cy 0 + 2 * i.cellMean cx cy 1 + i.cellMean cx cy 2) >>> 2

/-- The bin of a value: the largest b with 2^b ≤ (v + 1)^10. -/
def histBin (v : Nat) : Nat := Nat.log2 ((v + 1) ^ 10)

/-- A histogram of the statistics window: 256 counts. -/
def Image.hist (i : Image) (k : Nat) : List Nat :=
  let t := i.tune
  let cells := (List.range (tuWindow t 3)).flatMap fun y => (List.range (tuWindow t 2)).map fun x => histBin (i.cell (tuWindow t 0 + x) (tuWindow t 1 + y) k)
  (List.range 256).map fun b => cells.count b

/-- A zone's value: the mean of its cells, rounded down, 0 where it has none. -/
def Image.zone (i : Image) (zx zy k : Nat) : Nat :=
  let t := i.tune
  let xs := fun z => tuWindow t 0 + z * tuWindow t 2 / 64
  let ys := fun z => tuWindow t 1 + z * tuWindow t 3 / 48
  let l := (List.range (ys (zy + 1) - ys zy)).flatMap fun dy => (List.range (xs (zx + 1) - xs zx)).map fun dx => i.cell (xs zx + dx) (ys zy + dy) k
  if l.isEmpty then 0 else sumNat l / l.length

/-- Bytes 4,160 on of a statistics record: the histograms and the zones (R352). -/
def Image.statBytes (i : Image) : List Byte :=
  ((List.range 4).flatMap fun k => (i.hist k).flatMap (leBytes 4))
  ++ (List.range 48).flatMap fun zy => (List.range 64).flatMap fun zx => (List.range 4).flatMap fun k => leBytes 4 (i.zone zx zy k)

end Sys2Proof.Machine
end

