-- ==== Sys2Proof/Machine/Ingest.lean ====
section
/-!
DEFINITION. Stream ingest (R329 to R363): stream contexts and their set-up tables, frames from their start to the landing
buffers, the pipeline's frames and statistics, the hand-over to published buffers, sensor settings.
-/
namespace Sys2Proof.Machine

/-! ### A context's registers and set-up table -/

/-- A stream's state. -/
def State.stream (s : State) (n : Nat) : Stream := s.streams.getD n {}
/-- Change a stream's state. -/
def State.updStream (s : State) (n : Nat) (f : Stream → Stream) : State := { s with streams := updAt f n s.streams }
/-- Change the pipeline's and the hand-over engine's state. -/
def State.updIsp (s : State) (f : Isp → Isp) : State := { s with isp := f s.isp }
/-- ENABLE of a context. -/
def State.strOn (s : State) (n : Nat) : Bool := s.bit (Reg.ING_STR_CTRL n) 31
/-- STALL of a context. -/
def State.strStall (s : State) (n : Nat) : Nat := s.fld (Reg.ING_STR_CTRL n) 27 24
/-- SOURCE. -/
def State.strSource (s : State) (n : Nat) : Nat := s.fld (Reg.ING_STR_CTRL n) 22 20
/-- PORT. -/
def State.strPort (s : State) (n : Nat) : Nat := s.fld (Reg.ING_STR_CTRL n) 11 8
/-- VC. -/
def State.strVc (s : State) (n : Nat) : Nat := s.fld (Reg.ING_STR_CTRL n) 3 0
/-- CFA. -/
def State.strCfa (s : State) (n : Nat) : Nat := s.fld (Reg.ING_STR_FMT n) 27 24
/-- STAGGER. -/
def State.strStagger (s : State) (n : Nat) : Nat := s.fld (Reg.ING_STR_FMT n) 21 20
/-- The number of exposures. -/
def State.strExp (s : State) (n : Nat) : Nat := s.fld (Reg.ING_STR_FMT n) 17 16 + 1
/-- DT. -/
def State.strDt (s : State) (n : Nat) : Nat := s.fld (Reg.ING_STR_FMT n) 13 8
/-- LINES. -/
def State.strLines (s : State) (n : Nat) : Nat := s.fld (Reg.ING_STR_GEOM n) 31 16
/-- WIDTH. -/
def State.strWidth (s : State) (n : Nat) : Nat := s.fld (Reg.ING_STR_GEOM n) 15 0
/-- PERIOD_US in nanoseconds. -/
def State.strPeriod (s : State) (n : Nat) : Nat := (s.rd (Reg.ING_STR_PERIOD n)).toNat * 1000
/-- LATENCY. -/
def State.strLatency (s : State) (n : Nat) : Nat := s.fld (Reg.ING_STR_SENSOR n) 30 28

/-- Bits of a CSI-2 data type (R337). -/
def dtDepth (dt : Nat) : Nat :=
  match dt with
  | 0x2A => 8 | 0x2B => 10 | 0x2C => 12 | 0x2D => 14 | 0x2E => 16 | 0x2F => 20 | 0x27 => 24
  | _ => 0

/-- Depth of a pixel, sample or slot byte of a stream. -/
def State.strDepth (s : State) (n : Nat) : Nat :=
  match s.strSource n with
  | 0 => dtDepth (s.strDt n)
  | 1 => s.strDt n
  | 2 => 32
  | _ => 8

/-- Bytes of an element in format RAW (R340, R346). -/
def State.strElem (s : State) (n : Nat) : Nat :=
  match s.strSource n with
  | 2 => 4
  | 3 => 1
  | _ => if s.strDepth n ≤ 16 then 2 else 4

/-- The output records of a set-up table (R346, R361). -/
def tabOuts (t : List Byte) : List OutRec := (List.range (bits (le t 0 1) 2 0)).map fun k => outRec (slice t (64 + 64 * k) 64)
/-- ID_PX. -/
def tabIdPx (t : List Byte) : Nat := bits (le t 1 1) 2 0
/-- A raw landing buffer. -/
def tabRaw (t : List Byte) (k : Nat) : Nat := le t (8 + 8 * k) 5
/-- RAW_STRIDE. -/
def tabRawStride (t : List Byte) : Nat := le t 24 4
/-- RAW_PLANE. -/
def tabRawPlane (t : List Byte) : Nat := le t 28 4
/-- TUNE. -/
def tabTune (t : List Byte) : Nat := le t 40 5
/-- ID_CODE_e. -/
def tabIdCode (t : List Byte) (e : Nat) : Nat := le t (48 + 4 * e) 4

/-- Extent of the raw landing buffers (PATH 2). -/
def rawExtent (t : List Byte) (lines exposures : Nat) : Nat := if exposures = 1 then lines * tabRawStride t else exposures * tabRawPlane t

/-- A statistics record with its selvage takes this much of the ring (R361). -/
def statsSlot : Nat := statsBytes + 64

/-! ### Enabling a context (R331) -/

/-- Check 1: the fields in their ranges and the combinations that R330 allows. [DESIGN CHOICE, log entry 79] -/
def State.strFieldsOk (s : State) (n : Nat) : Bool :=
  let src := s.strSource n
  let path := s.streamPath n
  let cfa := s.strCfa n
  let l := s.strLines n
  let w := s.strWidth n
  let per := (s.rd (Reg.ING_STR_PERIOD n)).toNat
  let sel := s.bit (Reg.ING_STR_FMT n) 0
  let lat := s.strLatency n
  src ≤ 3 && path ≤ 2
  && (if src = 0 then s.strPort n ≤ 11 else s.strPort n ≤ 1)
  && (path == 0 || (path == 1 && src == 0 && s.bit Reg.ISP_INLINE 31 && s.fld Reg.ISP_INLINE 6 0 == n) || (path == 2 && src ≤ 1))
  && (cfa ≤ 8 || cfa == 15) && s.strStagger n ≤ 2
  && (s.strStagger n != 0 || s.strExp n == 1) && (s.strStagger n != 2 || s.strVc n + s.strExp n ≤ 16)
  && (src == 0 || s.strStagger n == 0)
  && (match src with
      | 0 => dtDepth (s.strDt n) != 0 && 1 ≤ w && w ≤ 16384
      | 1 => [8, 10, 12, 16].contains (s.strDt n) && 1 ≤ w && w ≤ 16384
      | 2 => 1 ≤ w && w ≤ 64
      | _ => 64 ≤ w && w ≤ 9024 && w % 64 == 0)
  && 1 ≤ l && l ≤ 16384
  && (path == 0 || (8 ≤ w && w ≤ 8192 && 8 ≤ l && l ≤ 8192))
  && (!sel || src == 1 || src == 2) && 100 ≤ per && per ≤ 10000000 && 1 ≤ lat && lat ≤ 4

/-- An output record is valid for the stream (R346, R347). -/
def State.outOk (s : State) (n : Nat) (b : List Byte) (o : OutRec) : Bool :=
  let w := s.strWidth n
  let h := s.strLines n
  let even := fun x => x % 2 == 0
  let e := if o.fmt = 6 then s.strElem n else if o.fmt = 4 then 2 else 1
  o.fmt ≤ 6 && bits (le b 0 1) 7 4 == 0 && le b 1 1 == 0 && zeroBytes b 14 15 && zeroBytes b 48 63
  && (o.fmt != 5 || s.strCfa n == 8)
  && (if o.fmt = 6 then o.x0 == 0 && o.y0 == 0 && o.cw == w && o.ch == h && o.ow == w && o.oh == h
      else 8 ≤ o.cw && 8 ≤ o.ch && o.x0 + o.cw ≤ w && o.y0 + o.ch ≤ h && 1 ≤ o.ow && 1 ≤ o.oh && o.cw ≤ 16 * o.ow && o.ow ≤ o.cw && o.ch ≤ 16 * o.oh && o.oh ≤ o.ch
        && (o.fmt != 3 || (even o.x0 && even o.y0 && even o.ow && even o.oh)))
  && [le b 16 8, le b 24 8, le b 32 8].all (fun a => a < 2 ^ 40 && a % 64 == 0)
  && o.ow * e ≤ o.row && o.row % 64 == 0
  && (if o.fmt = 2 ∨ o.fmt = 5 then o.plane == 0 else o.oh * o.row ≤ o.plane)

/-- The set-up table is valid for the stream (R346, R361). -/
def State.tableOk (s : State) (n : Nat) (t : List Byte) : Bool :=
  let path := s.streamPath n
  let outs := tabOuts t
  let z := fun (a : Nat) (k : Nat) => le t a k == 0
  bits (le t 0 1) 7 3 == 0 && 1 ≤ outs.length && outs.length ≤ 6 && bits (le t 1 1) 7 3 == 0 && zeroBytes t 2 7
  && (if s.strStagger n = 1 then 1 ≤ tabIdPx t && tabIdPx t ≤ 4 else tabIdPx t == 0 && zeroBytes t 48 63)
  && (if path = 2 then
        [le t 8 8, le t 16 8].all (fun a => a < 2 ^ 40 && a % 64 == 0) && tabRawStride t % 64 == 0 && s.strWidth n * s.strElem n ≤ tabRawStride t
        && (s.strExp n == 1 || s.strLines n * tabRawStride t ≤ tabRawPlane t)
      else z 8 8 && z 16 8 && z 24 4 && z 28 4)
  && (if path = 0 then z 32 8 && z 40 8 else [le t 32 8, le t 40 8].all fun a => a < 2 ^ 40 && a % 64 == 0 && a != 0)
  && (path != 0 || (outs.length == 1 && outs.all fun o => o.fmt == 6))
  && outs.zipIdx.all fun p => s.outOk n (slice t (64 + 64 * p.2) 64) p.1

/-- Read a table with its selvage, checking the selvage (R351, R361). -/
def readTable (t : Tag) (base extent : Nat) : Run (List Byte) := do
  let b ← readUnit t base extent
  let _ ← checkSelvage false t { base := base, extent := extent, unit := 0 } 0 0
  pure b

/-- The tag of ingest or of the pipeline for a stream (R23, R329). -/
def State.ingTag (s : State) (n : Nat) : Tag := s.tagOf (s.strStall n) 0x121
/-- The pipeline's tag. -/
def State.ispTag (s : State) (n : Nat) : Tag := s.tagOf (s.strStall n) 0x120

/-- Read and check a tuning set (R351). -/
def readTune (t : Tag) (a : Nat) : Run (List Byte) := do
  let b ← readTable t a tuneBytes
  if tuneOk b then pure b else throw St.BAD_FORMAT

/-- Check 2: the set-up table and the first tuning set, as read. -/
def readSetup (n : Nat) : Run (List Byte × List Byte) := do
  let s ← get
  let a := s.rd64 (Reg.ING_STR_TABLE n)
  let t := s.ingTag n
  if a % 64 ≠ 0 ∨ 2 ^ 40 ≤ a then throw St.BAD_FORMAT
  let h ← readUnit t a 1
  let k := bits (le h 0 1) 2 0
  if k = 0 ∨ 6 < k then throw St.BAD_FORMAT
  let tab ← readTable t a (64 + 64 * k)
  if !s.tableOk n tab then throw St.BAD_FORMAT
  let tune ← if s.streamPath n = 0 then pure [] else readTune (s.ispTag n) (tabTune tab)
  pure (tab, tune)

/-- The buffers of a context, with their extents (R331, check 3). -/
def State.strBuffers (s : State) (n : Nat) (t : List Byte) : List (Nat × Nat) :=
  let e := s.strExp n
  (tabOuts t).flatMap (fun o => (o.land ++ [o.pub]).map fun a => (a, roundUp (o.extent e) 64 + 32))
  ++ (if s.streamPath n = 2 then (List.range 2).map fun k => (tabRaw t k, roundUp (rawExtent t (s.strLines n) e) 64 + 32) else [])
  ++ (if s.streamPath n = 0 then [] else [(tabStats t, 4 * statsSlot)])

/-- A stall may write every byte of an extent, judged at each 4 KiB (carve-outs and firewall regions are whole multiples of it). -/
def State.mayWrite (s : State) (t : Tag) (x : Nat × Nat) : Bool :=
  x.2 == 0 || (List.range ((x.1 + x.2 - 1) / 4096 - x.1 / 4096 + 1)).all fun k =>
    (s.barrier t .write (if k = 0 then x.1 else (x.1 / 4096 + k) * 4096) 1).isNone

/-- Two contexts have the same VLAN: both untagged, or both with the same VLAN ID (R331, R340). -/
def State.sameVlan (s : State) (n k : Nat) : Bool :=
  let a := Reg.ING_STR_NET n
  let b := Reg.ING_STR_NET k
  s.bit a 31 == s.bit b 31 && (!s.bit a 31 || s.fld a 27 16 == s.fld b 27 16)

/-- Two contexts have the same MATCH, of which two lidar contexts use the UDP port alone (R331, R340). [DEDUCED, log entry 113] -/
def State.sameMatch (s : State) (n k : Nat) : Bool :=
  let a := s.rd64 (Reg.ING_STR_MATCH n)
  let b := s.rd64 (Reg.ING_STR_MATCH k)
  if s.strSource n = 3 ∧ s.strSource k = 3 then a % 65536 == b % 65536 else a == b

/-- Two contexts would claim the same packets (R331, check 4). -/
def State.strClash (s : State) (n k : Nat) : Bool :=
  let src := s.strSource n
  let ksrc := s.strSource k
  k != n && s.strOn k && s.strPort n == s.strPort k
  && (if src = 0 then ksrc == 0 && s.strVc n == s.strVc k && s.strDt n == s.strDt k
      else ksrc != 0 && s.sameVlan n k && s.sameMatch n k)

/-- The admitted pipeline load with some contexts, in pixels per µs (R349). -/
def State.ispLoad (s : State) (f : Nat → Bool) : Rat :=
  sumRat ((List.range 128).map fun k =>
    if f k && s.streamPath k != 0 then ((s.strLines k * s.strWidth k : Nat) : Rat) / ((s.rd (Reg.ING_STR_PERIOD k)).toNat : Rat) else 0)

/-- The checks of R331 in order: the error, or 0 with the tables read. [DESIGN CHOICE, log entry 79] -/
def State.checkStream (s : State) (n : Nat) : Nat × List Byte × List Byte × State :=
  if !s.strFieldsOk n then (1, [], [], s)
  else match runOn (readSetup n) s with
    | (.error _, s) => (2, [], [], s)
    | (.ok (tab, tune), s) =>
      if !s.stallEnabled (s.strStall n) || !((s.strBuffers n tab).all (s.mayWrite (s.ingTag n))) then (3, [], [], s)
      else if (List.range 128).any (s.strClash n) then (4, [], [], s)
      else if s.streamPath n != 0 && decide (3200 < s.ispLoad fun k => k == n || s.strOn k) then (5, [], [], s)
      else (0, tab, tune, s)

/-- ISP_LOAD as it reads (R363). -/
def State.readIspLoad (s : State) : Word := BitVec.ofNat 32 (s.ispLoad s.strOn).ceil.toNat

/-! ### Reports -/

/-- The default Address field of ingest: stream and frame counter (R359). -/
def strAddr (n frame : Nat) : Nat := n * 2 ^ 32 + frame % 2 ^ 32

/-- Report a kind of ingest for a stream. -/
def State.ingReport (s : State) (n src kind addr : Nat) : State := s.report src kind (s.strStall n) addr

/-- A frame does not reach its published buffer (R336). -/
def State.dropFrame (s : State) (n frame : Nat) : State :=
  (s.sat (Reg.ING_STR_DROPPED n) 31 0 1).ingReport n 0x121 Kind.FRAME_DROPPED (strAddr n frame)

/-! ### Writing a frame -/

/-- The propagated part of a frame's selvages (R333, R421). -/
def InFrame.prov (f : InFrame) (n flags : Nat) : Prov :=
  { hasTime := true, capture := f.capture, synced := f.synced, frame := f.frame, stream := n, stepGen := f.stepGen, flags := flags }

/-- Write bytes for a frame; a refusal or an uncorrectable error marks it (R336). -/
def State.frameWrite (s : State) (t : Tag) (a : Nat) (b : List Byte) : Bool × State :=
  match runOn (writeMem t a b) s with
  | (.ok _, s) => (true, s)
  | (.error _, s) => (false, s)

/-- Write several pieces; whether all landed. -/
def State.frameWrites (s : State) (t : Tag) (l : List (Nat × List Byte)) : Bool × State :=
  l.foldl (fun r p => let x := r.2.frameWrite t p.1 p.2; (r.1 && x.1, x.2)) (true, s)

/-- Where the rows of a frame go as they arrive: base, row stride, plane stride, extent; none for an in-line frame. -/
def State.rawPlace (s : State) (n frame : Nat) : Option (Nat × Nat × Nat × Nat) :=
  let t := (s.stream n).table
  let k := frame % 2
  match s.streamPath n with
  | 0 =>
    let o := (tabOuts t).headD (outRec [])
    some (o.land.getD k 0, (if s.strSource n = 3 then s.strWidth n else o.row), o.plane, o.extent (s.strExp n))
  | 2 => some (tabRaw t k, tabRawStride t, tabRawPlane t, rawExtent t (s.strLines n) (s.strExp n))
  | _ => none

/-- The landing buffers of every output that a frame fills. -/
def State.outBufs (s : State) (n frame : Nat) : List (Nat × Nat) :=
  (tabOuts (s.stream n).table).map fun o => (o.land.getD (frame % 2) 0, o.extent (s.strExp n))

/-- The landing buffers that a frame fills as it arrives, closed at its end (R333): the raw ones, or those of every output in-line. -/
def State.startBufs (s : State) (n frame : Nat) : List (Nat × Nat) :=
  match s.rawPlace n frame with
  | some (b, _, _, e) => [(b, e)]
  | none => s.outBufs n frame

/-- The landing buffers whose selvages a frame's start opens (R333): every one that it will fill. Under PATH 2 an output's is opened only when the pipeline fills it, while an earlier frame in it still waits for its hand-over. [DESIGN CHOICE, log entry 111] -/
def State.openedBufs (s : State) (n frame : Nat) : List (Nat × Nat) :=
  s.startBufs n frame ++ (if s.streamPath n = 2 ∧ !((s.stream n).done.any fun f => f.frame % 2 == frame % 2) then s.outBufs n frame else [])

/-- Open the selvages of some buffers for a frame (R333). -/
def State.openBufs (s : State) (n : Nat) (t : Tag) (f : InFrame) (l : List (Nat × Nat)) : Bool × State :=
  s.frameWrites t (l.map fun b => (selvageAt b.1 b.2, selvageOpen (f.prov n 0) t.stall.val b.2 0))

/-- Close the selvages of some buffers for a frame (R333): payload CRC and selvage CRC. -/
def State.closeBufs (s : State) (n : Nat) (t : Tag) (f : InFrame) (flags : Nat) (l : List (Nat × Nat)) : Bool × State :=
  l.foldl (fun r b =>
    let x := r.2.frameWrite t (selvageAt b.1 b.2) (selvageBytes (f.prov n flags) t.stall.val b.2 (crc32c (r.2.peek b.1 b.2)).toNat)
    (r.1 && x.1, x.2)) (true, s)

/-- Change the open frame of a stream. -/
def State.updCur (s : State) (n : Nat) (f : InFrame → InFrame) : State := s.updStream n fun x => { x with cur := x.cur.map f }

/-- Write one row of codes into row r of plane e of the open frame. -/
def State.placeRow (s : State) (n e r : Nat) (codes : List Nat) : State :=
  match (s.stream n).cur with
  | none => s
  | some f =>
    match s.rawPlace n f.frame with
    | some (b, row, plane, _) =>
      let x := s.frameWrite (s.ingTag n) (b + e * plane + r * row) (codes.flatMap (leBytes (s.strElem n)))
      if x.1 then x.2 else x.2.updCur n fun f => { f with bad := true }
    | none => s.updCur n fun f => { f with pix := updAt (fun rows => rows.take r ++ [codes] ++ rows.drop (r + 1)) e f.pix }

/-- FILL, cut to the depth of the stream. -/
def State.fillCode (s : State) (n : Nat) : Nat := s.fld (Reg.ING_STR_FILL n) 23 0 % 2 ^ s.strDepth n

/-- A row made exactly WIDTH long (R341), with the flags that takes: 1 TRUNCATED, 2 OVERLONG. -/
def State.fitRow (s : State) (n : Nat) (codes : List Nat) : List Nat × Nat :=
  let w := s.strWidth n
  let c := codes.map (· % 2 ^ s.strDepth n)
  if c.length < w then (c ++ List.replicate (w - c.length) (s.fillCode n), 1)
  else if w < c.length then (c.take w, 2)
  else (c, 0)

/-- A row of an exposure arrives at its next place (R339, R341): it is made to fit, or dropped beyond LINES. -/
def State.takeRow (s : State) (n e : Nat) (codes : List Nat) : State :=
  match (s.stream n).cur with
  | none => s
  | some f =>
    let r := f.rows.getD e 0
    let s := s.updCur n fun f => { f with got := f.got + 1, last := s.refNs, rows := updAt (· + 1) e f.rows }
    if s.strLines n ≤ r then s.updCur n fun f => { f with flags := f.flags ||| 2 }
    else
      let x := s.fitRow n codes
      (s.updCur n fun f => { f with flags := f.flags ||| x.2 }).placeRow n e r x.1

/-! ### Settings (R354 to R357) -/

/-- How far a frame counter lies past another, modulo 2^32: not positive when it has been reached. -/
def ahead (target now : Nat) : Int := signed 32 ((target + 2 ^ 32 - now % 2 ^ 32) % 2 ^ 32)

/-- The counter of the latest accepted frame start. -/
def State.frameCount (s : State) (n : Nat) : Nat := (s.rd (Reg.ING_STR_FRAME n)).toNat

/-- A setting's bus writes are complete. -/
def Setting.complete (x : Setting) : Bool := x.writes.isEmpty || x.phase = .sent

/-- Every setting of a stream whose writes may still be due, in order of frame: those whose frame has passed, those of the open frame, those queued (R355). -/
def Stream.settings (x : Stream) : List Setting := x.tail ++ x.cur.elim [] (·.sets) ++ x.queue

/-- A setting has a record on its bus. -/
def Setting.busy (x : Setting) : Bool := match x.phase with | .onBus _ => true | _ => false

/-- Change the first setting of a list for which p holds; whether there is one. -/
def updFirst (p : Setting → Bool) (f : Setting → Setting) : List Setting → Bool × List Setting
  | [] => (false, [])
  | a :: t => if p a then (true, f a :: t) else let r := updFirst p f t; (r.1, a :: r.2)

/-- Change the first setting of a stream for which p holds. -/
def State.updSetting (s : State) (n : Nat) (p : Setting → Bool) (f : Setting → Setting) : State :=
  s.updStream n fun x =>
    let a := updFirst p f x.tail
    let b := updFirst p f (x.cur.elim [] (·.sets))
    if a.1 then { x with tail := a.2 }
    else if b.1 then { x with cur := x.cur.map fun c => { c with sets := b.2 } }
    else { x with queue := (updFirst p f x.queue).2 }

/-- The frame end of frame F of a stream has come: F is not ahead and is not the open frame. -/
def State.frameEnded (s : State) (n frame : Nat) : Bool :=
  decide (ahead frame (s.frameCount n) ≤ 0) && !((s.stream n).cur.any fun f => f.frame == frame)

/-- The issue time of a setting has come (R355): it has arrived and the frame end of T − L has passed. -/
def State.stamped (s : State) (n : Nat) (y : Setting) : Setting :=
  if y.dueAt.isNone && !y.writes.isEmpty && s.frameEnded n ((y.frame + 2 ^ 32 - s.strLatency n) % 2 ^ 32) then { y with dueAt := some s.refNs } else y

/-- Note the issue times that have come. -/
def State.stampSettings (s : State) (n : Nat) : State :=
  s.updStream n fun x => { x with tail := x.tail.map (s.stamped n), cur := x.cur.map fun f => { f with sets := f.sets.map (s.stamped n) }, queue := x.queue.map (s.stamped n) }

/-- The settings of a frame that ends whose records are not all written are still issued (R355). -/
def State.keepSettings (s : State) (n : Nat) (f : InFrame) : State :=
  (s.updStream n fun x => { x with tail := x.tail ++ f.sets.filter fun y => !y.complete }).stampSettings n

/-- A frame start meets the settings (R355, R356): those for T = F + L − 1 whose writes still run are overrun; those for F leave the queue, their tags and tuning sets in effect in queue order. -/
def State.applySettings (s : State) (n frame : Nat) : List Setting × State :=
  let late := (frame + s.strLatency n - 1) % 2 ^ 32
  let s := s.updStream n fun x => { x with queue := x.queue.map fun y => if y.frame == late && !y.complete then { y with overrun := true } else y }
  let mine := (s.stream n).queue.filter (·.frame == frame)
  let s := s.updStream n fun x => { x with queue := x.queue.filter fun y => y.frame != frame }
  mine.foldl (fun r y =>
    let s := r.2.updStream n fun x => { x with tag := y.tag }
    if y.tune = 0 then (r.1 ++ [y], s)
    else match runOn (readTune (s.ispTag n) y.tune) s with
      | (.ok b, s) => (r.1 ++ [y], s.updStream n fun x => { x with tune := b })
      | (.error _, s) => (r.1 ++ [{ y with failed := true }], s)) ([], s)

/-- A setting is unconfirmed for its frame (R356): an overrun that the embedded data does not confirm, a refusal, embedded data that differs or is missing. -/
def Setting.unconfirmed (off : Nat) (emb : List Byte) (x : Setting) : Bool :=
  let k := x.confirm.length
  let same := off + k ≤ emb.length && slice emb off k == x.confirm
  x.failed || (x.overrun && !(0 < k && same)) || (0 < k && !same)

/-- Judge the settings of a frame at its end (R356): the flag, and the report. -/
def State.judgeSettings (s : State) (n : Nat) (f : InFrame) : Nat × State :=
  if f.sets.any (Setting.unconfirmed (s.fld (Reg.ING_STR_SENSOR n) 11 0) f.emb) then
    (f.flags ||| 8, s.ingReport n 0x121 Kind.SETTING_UNCONFIRMED (strAddr n f.frame))
  else (f.flags, s)

/-! ### The end of a frame -/

/-- A published buffer of a stream is held: an instance of a graph whose trigger set holds the stream is in flight (R335). -/
def State.heldStream (s : State) (n : Nat) : Bool := (List.range 64).any fun g => !(s.graph g).insts.isEmpty && (s.trigStreams g).contains n

/-- The first k places that a stream has in the order of hand-over. -/
def keepPlaces (n : Nat) : Nat → List Nat → List Nat
  | _, [] => []
  | k, a :: t => if a = n then (match k with | 0 => keepPlaces n 0 t | k + 1 => a :: keepPlaces n k t) else a :: keepPlaces n k t

/-- Frames of a stream that wait for their hand-over are dropped; those that stay keep the first places. -/
def State.dropDone (s : State) (n : Nat) (p : InFrame → Bool) : State :=
  let x := s.stream n
  let s := (x.done.filter p).foldl (fun s g => s.dropFrame n g.frame) s
  s.updStream n fun x => { x with done := x.done.filter fun g => !p g }

/-- A frame is complete in its landing buffers (R334, R336): it waits for its hand-over. A frame that still waits for a hold is dropped and this one takes its place; so is one that lay in the same landing buffer. [DESIGN CHOICE, log entry 111] -/
def State.landed (s : State) (n : Nat) (f : InFrame) : State :=
  if f.bad then s.dropFrame n f.frame
  else
    let held := s.heldStream n
    let s := (s.dropDone n fun g => held || g.frame % 2 == f.frame % 2).updStream n fun x => { x with done := x.done ++ [f] }
    s.updIsp fun i => { i with hand := keepPlaces n (s.stream n).done.length (i.hand ++ [n]) }

/-- Count the length flags of a completed frame and report each kind once (R341, R360). -/
def State.reportLength (s : State) (n : Nat) (f : InFrame) : State :=
  let a := n * 2 ^ 32 + f.got % 65536
  let s := if bitOf f.flags 0 then (s.sat (Reg.ING_STR_ERRORS n) 31 16 1).ingReport n 0x121 Kind.FRAME_TRUNCATED a else s
  if bitOf f.flags 1 then (s.sat (Reg.ING_STR_ERRORS n) 15 0 1).ingReport n 0x121 Kind.FRAME_OVERLONG a else s

/-- Fill the rows of exposure e that never came (R341). -/
def State.fillRows (s : State) (n e : Nat) : State :=
  match (s.stream n).cur with
  | none => s
  | some f =>
    let missing := (List.range (s.strLines n)).filter fun r => if s.strSource n = 1 then !f.seen.contains r else f.rows.getD e 0 ≤ r
    let code := s.fillCode n
    if missing.isEmpty then s
    else missing.foldl (fun s r => s.placeRow n e r (List.replicate (s.strWidth n) code)) (s.updCur n fun f => { f with flags := f.flags ||| 1 })

/-- The open frame ends (R341): missing rows are filled, length errors reported, settings judged; a RAW frame is complete in its landing buffer, an in-line frame waits for the pipeline's end, a PATH 2 frame waits for the pipeline. -/
def State.endFrame (s : State) (n : Nat) (truncated : Bool) : State :=
  match (s.stream n).cur with
  | none => s
  | some _ =>
    let s := if truncated then s.updCur n fun f => { f with flags := f.flags ||| 1 } else s
    let s := (List.range (s.strExp n)).foldl (fun s e => s.fillRows n e) s
    match (s.stream n).cur with
    | none => s
    | some f =>
      let s := s.reportLength n f
      let j := s.judgeSettings n f
      let f := { f with flags := j.1 }
      let s := (j.2.updStream n fun x => { x with cur := none }).keepSettings n f
      match s.streamPath n with
      | 1 => s.updStream n fun x => { x with inl := some f }
      | p =>
        let c := s.closeBufs n (s.ingTag n) f f.flags (s.startBufs n f.frame)
        let f := { f with bad := f.bad || !c.1 }
        if p = 2 then
          if f.bad then c.2.dropFrame n f.frame
          else (c.2.updStream n fun x => { x with raws := x.raws ++ [f] }).updIsp fun i => { i with order := i.order ++ [n] }
        else c.2.landed n f

/-! ### The start of a frame (R332, R333, R336, R341) -/

/-- Drop the raw frame of a stream that waits in landing buffer k for the pipeline. -/
def State.dropRaw (s : State) (n k : Nat) : State :=
  match (s.stream n).raws.find? (fun f => f.frame % 2 == k) with
  | none => s
  | some f =>
    let s := s.dropFrame n f.frame
    let s := s.updStream n fun x => { x with raws := x.raws.filter fun g => g.frame != f.frame }
    s.updIsp fun i => { i with order := i.order.erase n }

/-- The landing buffer that a starting frame needs is still in use (R336). -/
def State.startBlocked (s : State) (n frame : Nat) : Bool :=
  (s.isp.copy.any fun c => c.1 == n && c.2.frame % 2 == frame % 2) || (s.streamPath n == 2 && s.isp.run.any fun r => r.1 == n && r.2.1.frame % 2 == frame % 2)

/-- The offset of a frame start from the latest pulse of its trigger pin, judged (R358). [DESIGN CHOICE, log entry 102] -/
def State.trigWindow (s : State) (n capture : Nat) : State :=
  let r := Reg.ING_STR_TRIG n
  if s.bit r 31 then
    let last := s.rd64 (Reg.TIM_TRIG_LAST (s.fld r 30 28)) % 2 ^ 63
    let off := if last ≤ capture then capture - last else 0
    if last ≤ capture ∧ s.fld r 13 0 * 1000 ≤ off ∧ off ≤ s.fld r 27 14 * 1000 then s
    else s.ingReport n 0x121 Kind.TRIGGER_WINDOW (n * 2 ^ 32 + min off (2 ^ 32 - 1))
  else s

/-- A frame start of a context (R332, R333, R336, R339, R341; a frame that waits for the hand-over engine in the landing buffer that rows will fill is dropped): an open frame ends TRUNCATED; a start that comes too early is not accepted; an accepted one advances the counter, meets its settings, and opens its selvages unless it is dropped. [DESIGN CHOICE, log entry 111] -/
def State.startFrame (s : State) (n capture : Nat) (synced : Bool) (stepGen : Nat) : State :=
  let s := if (s.stream n).cur.isSome then s.endFrame n true else s
  let early := (s.stream n).lastStart.any fun t => decide (16 * (s.refNs - t) < 15 * s.strPeriod n)
  if early then
    (s.updStream n fun x => { x with ignoring := true, noStart := false }).ingReport n 0x121 Kind.FRAME_EARLY (strAddr n (s.frameCount n))
  else
    let frame := (s.frameCount n + 1) % 2 ^ 32
    let s := s.wr (Reg.ING_STR_FRAME n) (BitVec.ofNat 32 frame)
    let a := s.applySettings n frame
    let s := a.2.updStream n fun x => { x with lastStart := some s.refNs, noStart := false, ignoring := false, lostEnds := [] }
    let s := s.trigWindow n capture
    let x := s.stream n
    let f : InFrame := { frame := frame, capture := capture, synced := synced, stepGen := stepGen, tag := x.tag, tune := x.tune, sets := a.1, last := s.refNs }
    if s.startBlocked n frame then
      let s := (s.judgeSettings n f).2.keepSettings n f
      (s.updStream n fun x => { x with ignoring := true }).dropFrame n frame
    else
      let s := if s.streamPath n = 2 then s.dropRaw n (frame % 2)
        else
          let s := s.dropDone n fun g => g.frame % 2 == frame % 2
          s.updIsp fun i => { i with hand := keepPlaces n (s.stream n).done.length i.hand }
      let o := s.openBufs n (s.ingTag n) f (s.openedBufs n frame)
      (o.2.updStream n fun x => { x with cur := some { f with bad := !o.1 } }).stampSettings n

/-- The frame end of an exposure with no open frame (R338, R339): the next rows belong to another frame once every exposure's end has come. -/
def State.lostEnd (s : State) (n e : Nat) : State :=
  let ends := (e :: (s.stream n).lostEnds).eraseDups
  if s.strStagger n = 2 && decide (ends.length < s.strExp n) then s.updStream n fun x => { x with lostEnds := ends }
  else s.updStream n fun x => { x with noStart := false, ignoring := false, lostEnds := [] }

/-- Rows or a frame end with no open frame (R339). -/
def State.noFrame (s : State) (n src : Nat) : State :=
  let x := s.stream n
  if x.ignoring || x.noStart then s
  else (s.updStream n fun x => { x with noStart := true }).ingReport n src Kind.FRAME_NO_START (strAddr n (s.frameCount n))

/-! ### Enable and disable (R331) -/

/-- The context loses its queue of settings, but for those on the bus; outstanding SENSOR_WRITE commands end with STALL_RESET (R331, R355). -/
def State.dropSettings (s : State) (n : Nat) : State :=
  let s := s.updStream n fun x => { x with tail := (x.tail ++ x.queue).filter Setting.busy, queue := [] }
  s.cmd.jobs.foldl (fun s j => j.cmds.zipIdx.foldl (fun (s : State) p =>
    if (p.1.stage = .started ∨ p.1.stage = .running) ∧ opcodeOf p.1.desc = 0x15 ∧ (sensD p.1.desc).stream = n then s.finishCmd j.id p.2 St.STALL_RESET else s) s) s

/-- What a write of ING_STR_CTRLn leaves (R331): ENABLE = 1 checks and enables, ENABLE = 0 closes the open frame; other fields stand while ENABLE is 1. -/
def State.afterStrCtrl (n : Nat) (old s : State) : State :=
  let r := Reg.ING_STR_CTRL n
  if old.bit r 31 then
    let en := s.bit r 31
    let s := s.wr r (old.rd r)
    if en then s else ((s.endFrame n true).dropSettings n).setBit r 31 false
  else if s.bit r 31 then
    let c := (s.setBit r 31 false).checkStream n
    let s := c.2.2.2.setFld r 30 28 c.1
    if c.1 ≠ 0 then s
    else
      let s := s.updIsp fun i => { i with order := i.order.filter (· != n), hand := i.hand.filter (· != n) }
      ((s.setBit r 31 true).wr (Reg.ING_STR_FRAME n) 0).updStream n fun x => { table := c.2.1, tune := c.2.2.1, tail := x.tail }
  else s

/-- What a write of another register of a context leaves: ignored while ENABLE is 1 (R331). -/
def State.afterStrReg (n off : Nat) (old s : State) : State := if old.strOn n then s.wr off (old.rd off) else s

/-- What a write of ISP_INLINE leaves: ignored while the stream it names is enabled (R363). -/
def State.afterInline (old s : State) : State := if old.strOn (old.fld Reg.ISP_INLINE 6 0) then s.wr Reg.ISP_INLINE (old.rd Reg.ISP_INLINE) else s

/-- What a write of ING_CSI_CTRL_Pp leaves (R362): other fields stand while ENABLE is 1; a port that is off is not in sync. -/
def State.afterCsiCtrl (p : Nat) (old s : State) : State :=
  let r := Reg.ING_CSI_CTRL p
  let s := if old.bit r 31 then (s.wr r (old.rd r)).setBit r 31 (s.bit r 31) else s
  if s.bit r 31 then s else s.setBit (Reg.ING_CSI_STATUS p) 31 false

/-! ### CSI-2 ports (R337 to R339) -/

/-- CSI_LANES_LOCKED (R362): every lane of an enabled port is in sync. -/
def execCsiLanesLocked (port : Fin 12) (s : State) : Host.Outcome State Fault Refusal :=
  .next (if s.phase = .live ∧ s.bit (Reg.ING_CSI_CTRL port.val) 31 then s.setBit (Reg.ING_CSI_STATUS port.val) 31 true else s)

/-- The exposure that a virtual channel of a port carries to a context; none where the context takes nothing from it (R338). -/
def State.strExposure (s : State) (n port vc : Nat) : Option Nat :=
  if s.strOn n && s.strSource n == 0 && s.strPort n == port && s.strVc n ≤ vc && vc < s.strVc n + (if s.strStagger n = 2 then s.strExp n else 1) then some (vc - s.strVc n)
  else none

/-- The header of a packet judged (R339): one corrected bit is counted; an uncorrectable header discards the packet. [DESIGN CHOICE, log entry 78] -/
def State.csiHeader (s : State) (port : Nat) (ecc : Fin 3) (f : State → State) : State :=
  if s.phase ≠ .live ∨ s.bit (Reg.ING_CSI_CTRL port) 31 = false then s
  else match ecc.val with
    | 0 => f s
    | 1 => f (s.sat (Reg.ING_CSI_ECC_CE port) 31 0 1)
    | _ => s.sat (Reg.ING_CSI_ERR port) 31 16 1

/-- Contexts that take packets of a port's virtual channel, with the exposure. -/
def State.csiStreams (s : State) (port vc : Nat) : List (Nat × Nat) :=
  (List.range 128).filterMap fun n => (s.strExposure n port vc).map fun e => (n, e)

/-- A packet that no enabled context takes (R339). -/
def State.csiUnmapped (s : State) (port : Nat) : State := s.sat (Reg.ING_CSI_UNMAPPED port) 31 0 1

/-- CSI_FRAME_START (R332, R333, R338, R339): exposure 0's frame start starts the frame of each context on the channel; the stamp is compensated by 5 ticks (R372). [DESIGN CHOICE, log entry 78] -/
def execCsiFrameStart (port : Fin 12) (vc : Fin 16) (ecc : Fin 3) (s : State) : Host.Outcome State Fault Refusal :=
  .next (s.csiHeader port.val ecc fun s =>
    let l := s.csiStreams port.val vc.val
    if l.isEmpty then s.csiUnmapped port.val
    else l.foldl (fun s x => if x.2 = 0 then s.startFrame x.1 (s.capture 5 0) s.synced s.stepGen else s) s)

/-- A line of embedded data (R337, R352): at most 4 lines before the first image line, at most 4,096 bytes stored. -/
def State.takeEmbedded (s : State) (n : Nat) (codes : List Nat) : State :=
  s.updCur n fun f =>
    let f := { f with last := s.refNs }
    if 4 ≤ f.embLines ∨ 0 < f.got then f
    else { f with embLines := f.embLines + 1, emb := (f.emb ++ (codes.take 4096).map (BitVec.ofNat 8)).take 4096 }

/-- An image row of a context (R338, R341): under STAGGER 1 its identifier pixels name the exposure and are removed. -/
def State.csiRow (s : State) (n e : Nat) (codes : List Nat) : State :=
  if s.strStagger n = 1 then
    let t := (s.stream n).table
    match (List.range (s.strExp n)).find? fun k => tabIdCode t k == codes.headD 0 with
    | some k => s.takeRow n k (codes.drop (tabIdPx t))
    | none => s.updCur n fun f => { f with last := s.refNs }
  else s.takeRow n e codes

/-- A payload with a wrong CRC-16 (R339): the row is used, the frame flagged and the port reports. -/
def State.lineCrc (s : State) (n port : Nat) : State :=
  (s.updCur n fun f => { f with flags := f.flags ||| 4 }).ingReport n (0x130 + port) Kind.LINE_CRC (strAddr n (s.frameCount n))

/-- CSI_LONG_PACKET (R338, R339, R341): a row of an exposure, or a line of embedded data. [DESIGN CHOICE, log entry 78] -/
def execCsiLongPacket (port : Fin 12) (vc : Fin 16) (dt : BitVec 6) (ecc : Fin 3) (codes : List Nat) (crcOk : Bool) (s : State) : Host.Outcome State Fault Refusal :=
  .next (s.csiHeader port.val ecc fun s =>
    let p := port.val
    let emb := dt = 0x12#6
    let l := (s.csiStreams p vc.val).filter fun x => if emb then s.embeds x.1 else s.strDt x.1 == dt.toNat
    let s := if crcOk then s else s.sat (Reg.ING_CSI_ERR p) 15 0 1
    if l.isEmpty then s.csiUnmapped p
    else l.foldl (fun s x =>
      if (s.stream x.1).cur.isSome then
        let s := if emb then s.takeEmbedded x.1 codes else s.csiRow x.1 x.2 codes
        if crcOk then s else s.lineCrc x.1 p
      else s.noFrame x.1 (0x130 + p)) s)

/-- CSI_FRAME_END (R338, R341): the frame ends once every exposure's frame end has arrived. -/
def execCsiFrameEnd (port : Fin 12) (vc : Fin 16) (ecc : Fin 3) (s : State) : Host.Outcome State Fault Refusal :=
  .next (s.csiHeader port.val ecc fun s =>
    let l := s.csiStreams port.val vc.val
    if l.isEmpty then s.csiUnmapped port.val
    else l.foldl (fun s x =>
      match (s.stream x.1).cur with
      | none => (s.noFrame x.1 (0x130 + port.val)).lostEnd x.1 x.2
      | some f =>
        let ends := (x.2 :: f.ends).eraseDups
        let s := s.updCur x.1 fun f => { f with ends := ends, last := s.refNs }
        if s.strStagger x.1 = 2 && decide (ends.length < s.strExp x.1) then s else s.endFrame x.1 false) s)

/-- CSI_LINK_ERROR (R339, R359): a PHY error; a lane that is lost takes the port out of sync. -/
def execCsiLinkError (port : Fin 12) (lane : Fin 4) (lost : Bool) (s : State) : Host.Outcome State Fault Refusal :=
  .next (
    if s.phase ≠ .live ∨ s.bit (Reg.ING_CSI_CTRL port.val) 31 = false then s
    else
      let s := if lost then s.setBit (Reg.ING_CSI_STATUS port.val) 31 false else s
      s.report (0x130 + port.val) Kind.CSI_LINK_ERROR 0 lane.val)

/-- FRAME_TIMEOUT (R341): an open frame has received no packet for PERIOD_US. -/
def execFrameTimeout (stream : StreamId) (s : State) : Host.Outcome State Fault Refusal :=
  .next (match (s.stream stream.val).cur with
    | some f => if f.last + s.strPeriod stream.val ≤ s.refNs then s.endFrame stream.val true else s
    | none => s)

/-! ### Ethernet sources (R340) -/

/-- A row of an RVF frame at its line number (R340, R341). -/
def State.rvfRow (s : State) (n line : Nat) (codes : List Nat) : State :=
  match (s.stream n).cur with
  | none => s
  | some _ =>
    let s := s.updCur n fun f => { f with got := f.got + 1, last := s.refNs }
    if s.strLines n ≤ line then s.updCur n fun f => { f with flags := f.flags ||| 2 }
    else
      let x := s.fitRow n codes
      (s.updCur n fun f => { f with flags := f.flags ||| x.2, seen := f.seen ++ [line] }).placeRow n 0 line x.1

/-- One packet of raw video: its line number, pixels, and whether it ends a frame (R340). A frame lies between two end-of-frame markers. -/
def State.rvfPacket (s : State) (n line : Nat) (codes : List Nat) (last : Bool) (capture : Nat) (synced : Bool) (stepGen : Nat) : State :=
  let x := s.stream n
  if !x.marked then (s.noFrame n 0x121).updStream n fun x => { x with marked := last, noStart := x.noStart && !last }
  else
    let s := if x.cur.isNone && !x.ignoring then s.startFrame n capture synced stepGen else s
    let s := s.rvfRow n line codes
    if last then (if (s.stream n).cur.isSome then s.endFrame n false else s.updStream n fun x => { x with ignoring := false }) else s

/-- One sample of every channel joins the block (R340); the block of LINES samples is a frame. -/
def State.aafSample (n capture : Nat) (synced : Bool) (stepGen : Nat) (zero : Bool) (s : State) (words : List Nat) : State :=
  let x := s.stream n
  if 0 < x.skip then s.updStream n fun x => { x with skip := x.skip - 1 }
  else
    let s := if x.cur.isNone then s.startFrame n capture synced stepGen else s
    if (s.stream n).cur.isNone then s.updStream n fun x => { x with ignoring := false, skip := s.strLines n - 1, oddPacket := false }
    else
      let s := if (s.stream n).oddPacket then (s.updCur n fun f => { f with flags := f.flags ||| 2 }).updStream n fun x => { x with oddPacket := false } else s
      let s := if zero then (s.takeRow n 0 words).updCur n fun f => { f with flags := f.flags ||| 1, got := f.got - 1 } else s.takeRow n 0 words
      match (s.stream n).cur with
      | some f => if s.strLines n ≤ f.rows.getD 0 0 then s.endFrame n false else s
      | none => s

/-- One packet of audio: its sequence number, channels and samples (R340). A dropped packet's samples count as missing; with no block open it flags the next one. [DESIGN CHOICE, log entry 111] -/
def State.aafPacket (s : State) (n seq channels : Nat) (samples : List (List Nat)) (capture : Nat) (synced : Bool) (stepGen : Nat) : State :=
  if channels ≠ s.strWidth n then
    if (s.stream n).cur.isSome then s.updCur n fun f => { f with flags := f.flags ||| 2, last := s.refNs } else s.updStream n fun x => { x with oddPacket := x.skip == 0 }
  else
    let gap := match (s.stream n).seq with | some q => (seq + 256 - q) % 256 | none => 0
    let lost := List.replicate (gap * samples.length) (List.replicate channels 0)
    let s := lost.foldl (State.aafSample n capture synced stepGen true) s
    let s := samples.foldl (State.aafSample n capture synced stepGen false) s
    s.updStream n fun x => { x with seq := some ((seq + 1) % 256) }

/-- One datagram of a lidar (R340): padded or cut to its slot. -/
def State.lidarPacket (s : State) (n : Nat) (payload : List Byte) (capture : Nat) (synced : Bool) (stepGen : Nat) : State :=
  let x := s.stream n
  if 0 < x.skip then s.updStream n fun x => { x with skip := x.skip - 1 }
  else
    let s := if x.cur.isNone then s.startFrame n capture synced stepGen else s
    if (s.stream n).cur.isNone then s.updStream n fun x => { x with ignoring := false, skip := s.strLines n - 1 }
    else
      let s := s.takeRow n 0 (payload.map (·.toNat))
      match (s.stream n).cur with
      | some f => if s.strLines n ≤ f.rows.getD 0 0 then s.endFrame n false else s
      | none => s

/-! ### The pipeline (R348 to R352) -/

/-- Selvage flag RETRIED. -/
def flagRetried : Nat := 2 ^ 4

/-- The raw codes of a PATH 2 frame, read from its raw landing buffer with the pipeline's tag. -/
def readRaw (n : Nat) (f : InFrame) : Run (List (List (List Nat))) := do
  let s ← get
  let t := (s.stream n).table
  let b := tabRaw t (f.frame % 2)
  let e := s.strElem n
  let w := s.strWidth n
  let rec rows (base : Nat) : Nat → Run (List (List Nat))
    | 0 => pure []
    | k + 1 => do
      let r ← rows base k
      let x ← readUnit (s.ispTag n) (base + k * tabRawStride t) (w * e)
      pure (r ++ [(List.range w).map fun i => le x (i * e) e])
  let rec planes : Nat → Run (List (List (List Nat)))
    | 0 => pure []
    | k + 1 => do
      let r ← planes k
      let x ← rows (b + k * tabRawPlane t) (s.strLines n)
      pure (r ++ [x])
  planes (s.strExp n)

/-- The static defect list of a tuning set, read with the pipeline's tag (R344). -/
def readStatic (t : Tag) (tune : List Byte) : Run (List (Nat × Nat)) := do
  if tuStatic tune = 0 ∨ tuStaticN tune = 0 then pure []
  else do
    let b ← readUnit t (tuStatic tune) (4 * tuStaticN tune)
    pure ((List.range (tuStaticN tune)).map fun k => (le b (4 * k) 2, le b (4 * k + 2) 2))

/-- The image that a frame's codes make. -/
def State.imageOf (s : State) (n : Nat) (f : InFrame) (codes : List (List (List Nat))) (static : List (Nat × Nat)) : Image :=
  { tune := f.tune, cfa := s.strCfa n, w := s.strWidth n, h := s.strLines n, depth := s.strDepth n, exposures := s.strExp n,
    raw := fun e x y => ((codes.getD e []).getD y []).getD x 0, listed := fun x y => static.contains (x, y) }

/-- Bytes 0 to 4,159 of a statistics record (R352). -/
def statsHead (n : Nat) (f : InFrame) (flags : Nat) : List Byte :=
  leBytes 1 n ++ leBytes 1 0 ++ leBytes 2 flags ++ leBytes 4 f.frame ++ leBytes 8 f.capture ++ leBytes 2 f.tag ++ leBytes 2 f.got
  ++ leBytes 2 f.emb.length ++ leBytes 1 (b2n f.synced) ++ List.replicate 41 0 ++ slice f.emb 0 4096

/-- Write a frame's statistics record and its selvage into its slot of the ring (R352). -/
def State.writeStats (s : State) (n : Nat) (f : InFrame) (flags : Nat) (stat : List Byte) : Bool × State :=
  let a := tabStats (s.stream n).table + f.frame % 4 * statsSlot
  let t := s.ispTag n
  let o := s.openBufs n t f [(a, statsBytes)]
  let w := o.2.frameWrite t a (statsHead n f flags ++ stat)
  let c := w.2.closeBufs n t f flags [(a, statsBytes)]
  (o.1 && w.1 && c.1, c.2.updStream n fun x => { x with recs := x.recs.set (f.frame % 4) (some f.frame), lastRec := some f.frame })

/-- Write every output of a frame into its landing buffers and close their selvages (R342, R346). -/
def State.writeOutputs (s : State) (n : Nat) (f : InFrame) (flags : Nat) (img : Image) (codes : List (List (List Nat))) : Bool × State :=
  let t := s.ispTag n
  let e := s.strExp n
  (tabOuts (s.stream n).table).foldl (fun r o =>
    let b := o.land.getD (f.frame % 2) 0
    let op := r.2.openBufs n t f [(b, o.extent e)]
    let rows := (List.range (o.planes e)).flatMap fun p => (List.range (o.rowsOf p)).map fun y =>
      (b + p * o.plane + y * o.row, if o.fmt = 6 then ((codes.getD p []).getD y []).flatMap (leBytes (s.strElem n)) else img.rowBytes o p y)
    let w := op.2.frameWrites t rows
    let c := w.2.closeBufs n t f flags [(b, o.extent e)]
    (r.1 && op.1 && w.1 && c.1, c.2)) (true, s)

/-- Statistics bytes that a mismatched run leaves: which lane was right is not known. [DESIGN CHOICE, log entry 40] -/
def freeStats (k : Nat) : List Byte := (List.range 53248).map fun i => Config.free 8 (k + i)

/-- A frame leaves the pipeline (R350, R352): its statistics are written, then its outputs; a mismatch, a refused write or unreadable data drops it. -/
def State.pipelineEnd (s : State) (n : Nat) (f : InFrame) (codes : List (List (List Nat))) (flags : Nat) (mismatch : Bool) : State :=
  match runOn (readStatic (s.ispTag n) f.tune) s with
  | (.error _, s) => s.dropFrame n f.frame
  | (.ok static, s) =>
    let img := s.imageOf n f codes static
    let s := s.inc Reg.ISP_FRAMES 1
    if mismatch then
      let w := s.writeStats n f flags (freeStats s.freeN)
      let s : State := { w.2 with freeN := w.2.freeN + 53248 }
      ((s.sat Reg.ISP_CHECK 15 0 1).ingReport n 0x120 Kind.ISP_MISMATCH (strAddr n f.frame)).dropFrame n f.frame
    else
      let w := s.writeStats n f flags img.statBytes
      let o := w.2.writeOutputs n f flags img codes
      o.2.landed n { f with flags := flags, bad := f.bad || !w.1 || !o.1 }

/-- ISP_FRAME_START (R348): the pipeline takes the waiting frame whose raw landing was complete first, with its stream's tuning set; it waits while its output buffers are being copied. -/
def execIspFrameStart (s : State) : Host.Outcome State Fault Refusal :=
  .next (
    if s.phase ≠ .live ∨ s.isp.run.isSome then s
    else match s.isp.order with
      | [] => s
      | n :: rest =>
        match (s.stream n).raws with
        | [] => s.updIsp fun i => { i with order := rest }
        | f :: more =>
          if s.isp.copy.any fun c => c.1 == n && c.2.frame % 2 == f.frame % 2 then s
          else (s.updStream n fun x => { x with raws := more }).updIsp fun i => { i with order := rest, run := some (n, f, false) })

/-- ISP_FRAME_COMPLETE (R350): a run of the in-line frame or of the frame from memory ends; a disagreement runs a frame from memory once more, and drops an in-line frame or a second run. -/
def execIspFrameComplete (inLine disagree : Bool) (s : State) : Host.Outcome State Fault Refusal :=
  .next (
    if inLine then
      let n := s.fld Reg.ISP_INLINE 6 0
      match (s.stream n).inl with
      | none => s
      | some f => (s.updStream n fun x => { x with inl := none }).pipelineEnd n f f.pix f.flags disagree
    else match s.isp.run with
      | none => s
      | some (n, f, again) =>
        if disagree && !again then s.updIsp fun i => { i with run := some (n, f, true) }
        else
          let s := s.updIsp fun i => { i with run := none }
          match runOn (readRaw n f) s with
          | (.error _, s) => s.dropFrame n f.frame
          | (.ok codes, s) =>
            if disagree then s.pipelineEnd n f codes f.flags true
            else
              let s := if again then (s.sat Reg.ISP_CHECK 31 16 1).ingReport n 0x120 Kind.ISP_RETRIED (strAddr n f.frame) else s
              s.pipelineEnd n f codes (f.flags ||| (if again then flagRetried else 0)) false)

/-- ISP_QUEUE as it reads (R363). -/
def State.readIspQueue (s : State) : Word := BitVec.ofNat 32 s.isp.order.length

/-! ### Hand-over (R334, R335) -/

/-- The landing and published buffers of a frame's outputs with their extents. -/
def State.handBufs (s : State) (n : Nat) (f : InFrame) : List (Nat × Nat × Nat) :=
  (tabOuts (s.stream n).table).map fun o => (o.land.getD (f.frame % 2) 0, o.pub, o.extent (s.strExp n))

/-- HANDOVER_START (R334): the engine is free, no earlier frame may start, and the published buffer is released; the published selvages are written with their CRC inverted. -/
def execHandoverStart (stream : StreamId) (s : State) : Host.Outcome State Fault Refusal :=
  .next (
    let n := stream.val
    let first := s.isp.hand.find? fun k => !(s.stream k).done.isEmpty && !s.heldStream k
    match (s.stream n).done with
    | [] => s
    | f :: more =>
      if s.phase ≠ .live ∨ s.isp.copy.isSome ∨ first ≠ some n then s
      else
        let t := s.ingTag n
        let w := (s.handBufs n f).foldl (fun (r : Bool × State) b =>
          let h := r.2.peek (selvageAt b.1 b.2.2) 28
          let x := r.2.frameWrite t (selvageAt b.2.1 b.2.2) (h ++ leBytes 4 (~~~ (crc32c h)).toNat)
          (r.1 && x.1, x.2)) (true, s)
        (w.2.updStream n fun x => { x with done := more }).updIsp fun i =>
          { i with hand := i.hand.erase n, copy := some (n, { f with bad := f.bad || !w.1 }) })

/-- Copy one output into its published buffer, its selvage last (R334). -/
def handOver (t : Tag) (b : Nat × Nat × Nat) : Run Unit := do
  let x ← readUnit t b.1 b.2.2
  let v ← readUnit t (selvageAt b.1 b.2.2) 32
  writeMem t b.2.1 x
  writeMem t (selvageAt b.2.1 b.2.2) v

/-- HANDOVER_COMPLETE (R334, R336): every output is in its published buffer and the stream has closed the frame, or a failed copy drops it. -/
def execHandoverComplete (stream : StreamId) (s : State) : Host.Outcome State Fault Refusal :=
  .next (
    let n := stream.val
    match s.isp.copy with
    | none => s
    | some (k, f) =>
      if k ≠ n then s
      else
        let s := s.updIsp fun i => { i with copy := none }
        let t := s.ingTag n
        match runOn (eachDo (handOver t) (s.handBufs n f)) s with
        | (.error _, s) => s.dropFrame n f.frame
        | (.ok _, s) =>
          if f.bad then s.dropFrame n f.frame
          else
            let s := (s.setFld (Reg.ING_STR_LAST n) 31 16 f.frame).setFld (Reg.ING_STR_LAST n) 15 0 f.got
            s.frameClosed n f.frame f.capture)

/-! ### Sensor settings on the bus (R355 to R357) -/

/-- CTRL of a stream: its sensor-control controller. -/
def State.strCtrl (s : State) (n : Nat) : Nat := s.fld (Reg.ING_STR_SENSOR n) 26 24

/-- The bytes of a write record as the bus carries them (R354): REG, then DATA's low bytes, most significant byte first. -/
def State.busBytes (s : State) (n : Nat) (w : Nat × Nat × Nat) : List Byte :=
  (if s.bit (Reg.ING_STR_SENSOR n) 23 then beBytes 2 w.1 else beBytes 1 w.1) ++ beBytes w.2.1 (w.2.2 % 2 ^ (8 * w.2.1))

/-- Put a record of a stream's setting on its bus. -/
def State.sendRecord (s : State) (n : Nat) (w : Nat × Nat × Nat) : State :=
  s.emit (.bus (s.strCtrl n) (s.fld (Reg.ING_STR_SENSOR n) 22 16) (s.busBytes n w))

/-- A setting's writes may start (R355): its issue time has come. -/
def Setting.due (y : Setting) : Bool := y.phase = .queued && !y.writes.isEmpty && y.dueAt.isSome

/-- The issue time of a stream's next setting. -/
def Stream.nextDue (x : Stream) : Option Nat := (x.settings.find? Setting.due).bind (·.dueAt)

/-- No stream of the same controller has a setting with an earlier issue time; of equal times the lower stream's goes first (R357). [DESIGN CHOICE, log entry 111] -/
def State.issuesFirst (s : State) (n : Nat) : Bool :=
  match (s.stream n).nextDue with
  | none => false
  | some d => (List.range 128).all fun k => k == n || s.strCtrl k != s.strCtrl n || (match (s.stream k).nextDue with | some e => d < e || (d == e && n < k) | none => true)

/-- SETTING_ISSUE (R355, R357): the stream's controller is free and no other stream of it comes before, and the first record of the setting goes to the sensor. -/
def execSettingIssue (stream : StreamId) (s : State) : Host.Outcome State Fault Refusal :=
  .next (
    let n := stream.val
    let taken := (List.range 128).any fun k => s.strCtrl k == s.strCtrl n && (s.stream k).settings.any Setting.busy
    match (s.stream n).settings.find? Setting.due with
    | none => s
    | some y =>
      if taken ∨ s.phase ≠ .live ∨ !s.issuesFirst n then s
      else
        let s := s.updSetting n Setting.due fun z => { z with phase := .onBus 0 }
        match y.writes with
        | w :: _ => s.sendRecord n w
        | [] => s)

/-- SENSOR_BUS_DONE (R356): the record on the stream's bus is done, or has been refused twice, the retry included; the next record follows. -/
def execSensorBusDone (stream : StreamId) (ok : Bool) (s : State) : Host.Outcome State Fault Refusal :=
  .next (
    let n := stream.val
    match (s.stream n).settings.find? Setting.busy with
    | none => s
    | some y =>
      let k := match y.phase with | .onBus k => k | _ => 0
      let w := y.writes.getD k (0, 1, 0)
      let s := if ok then s
        else (s.sendRecord n w).ingReport n 0x121 Kind.SENSOR_BUS_ERROR
          (s.strCtrl n * 2 ^ 36 + s.fld (Reg.ING_STR_SENSOR n) 22 16 * 2 ^ 16 + w.1)
      let next := k + 1 < y.writes.length
      let s := s.updSetting n Setting.busy fun z => { z with failed := z.failed || !ok, phase := if next then .onBus (k + 1) else .sent }
      if next then s.sendRecord n (y.writes.getD (k + 1) (0, 1, 0)) else s)

/-! ### STATS_READ (R353) -/

/-- The frame of a stream that fired a job's instance, with its capture time. -/
def State.firedFrame (s : State) (j : Job) (stream : Nat) : Option (Nat × Nat) :=
  match j.src with
  | .node g i _ => (s.inst? g i).bind fun x => (x.frames.find? fun f => f.1 == stream).map fun f => (f.2.1, f.2.2)
  | .ring .. => none

/-- What a STATS_READ finds: the record's frame, nothing yet, or never. -/
inductive StatsAt where
  | ready (frame : Nat)
  | wait
  | gone
  deriving DecidableEq, Repr

/-- Where the record of a STATS_READ stands (R353). -/
def State.statsAt (s : State) (j : Job) (d : List Byte) : StatsAt :=
  let n := le d 16 1 % 128
  let x := s.stream n
  let want : Option Nat := match bits (le d 17 1) 1 0 with
    | 0 => some (le d 20 4)
    | 1 => (s.firedFrame j n).map (·.1)
    | _ => x.lastRec
  match want with
  | none => .wait
  | some f =>
    if x.recs.getD (f % 4) none = some f then .ready f
    else if decide (0 < ahead f (s.frameCount n)) || (x.cur.any fun c => c.frame == f) || (x.inl.any fun c => c.frame == f)
        || (x.raws.any fun c => c.frame == f) || (s.isp.run.any fun r => r.1 == n && r.2.1.frame == f) then .wait
    else .gone

/-- Copy a statistics record to its place in the bolt (R353, R423, R425). -/
def copyStats (id i : Nat) (j : Job) (d : List Byte) (frame : Nat) : Run Unit := do
  let s ← get
  let n := le d 16 1 % 128
  let t := s.tagOf j.stall 0x120
  let src : Buf := { base := tabStats (s.stream n).table + frame % 4 * statsSlot, extent := statsBytes, unit := 0 }
  let dst : Buf := { base := boltAddr j.core (le d 24 4), extent := statsBytes, unit := 0 }
  let p ← checkInput t src 0 (flagRefuseOf d)
  openOutput t dst
  let b ← readMem t src.base statsBytes
  let v ← readMem t (selvageAt src.base statsBytes) 32
  writeMem t dst.base b
  if le v 24 4 ≠ (crc32c b).toNat then do
    change fun s => s.report 0x120 Kind.PAYLOAD_CRC j.stall src.base
    throw St.CRC_MISMATCH
  closeOutput t dst p
  change fun s => s.finishCmd id i St.OK

/-- STATS_READ's effect: the copy, a wait for the record, or OUT_OF_LIMIT. -/
def statsBody (id i : Nat) (j : Job) (c : Cmd) : Run Unit := do
  let s ← get
  if !(s.streamOwned (le c.desc 16 1 % 128) j.stall) then refusedRun j.stall (0x3000000000 + Reg.ING_STR_CTRL (le c.desc 16 1 % 128))
  match s.statsAt j c.desc with
  | .ready f => copyStats id i j c.desc f
  | .wait => change fun s => s.updCmd id i fun c => { c with stage := .running }
  | .gone => throw St.OUT_OF_LIMIT

/-- STATS_READ (R353). -/
def execStatsRead (job idx : Nat) (s : State) : Host.Outcome State Fault Refusal := .next (runPart s job idx 0x14 .started (statsBody job idx))

/-- STATS_RECORD_WRITTEN (R353): a waiting STATS_READ's record has been written, or will not be. -/
def execStatsRecordWritten (job idx : Nat) (s : State) : Host.Outcome State Fault Refusal := .next (runPart s job idx 0x14 .running (statsBody job idx))

/-! ### SENSOR_WRITE (R354, R355) -/

/-- Insert a setting in the order of its frame, after those for the same frame. -/
def insertSetting (x : Setting) : List Setting → List Setting
  | [] => [x]
  | a :: t => if 0 ≤ ahead x.frame a.frame then a :: insertSetting x t else x :: a :: t

/-- SENSOR_WRITE's effect (R354, R355), with the records that its start has read: with room in the queue the setting enters it after the late test, else the command waits. -/
def sensorBody (id i : Nat) (j : Job) (c : Cmd) : Run Unit := do
  let s ← get
  let x := sensD c.desc
  let n := x.stream
  if !(s.streamOwned n j.stall) then refusedRun j.stall (0x3000000000 + Reg.ING_STR_CTRL n)
  if 16 ≤ (s.stream n).queue.length then change fun s => s.updCmd id i fun c => { c with stage := .running }
  else
    let lat := s.strLatency n
    let now := s.frameCount n
    let t := if x.rel then ((s.firedFrame j n).elim 0 (·.1) + x.target) % 2 ^ 32 else x.target
    let late := decide (ahead (t + 2 ^ 32 - lat + 1) now ≤ 0)
    if late && !x.late then throw St.DEADLINE_MISSED
    let t := if late then (now + lat) % 2 ^ 32 else t
    let y : Setting := { frame := t, tag := x.tag, tune := x.tune, writes := (List.range x.n).map (writeRec c.held), confirm := x.expect.take x.confirm }
    change fun s => ((s.updStream n fun z => { z with queue := insertSetting y z.queue }).stampSettings n).finishCmd id i St.OK

/-- SENSOR_WRITE (R354). -/
def execSensorWrite (job idx : Nat) (s : State) : Host.Outcome State Fault Refusal := .next (runPart s job idx 0x15 .started (sensorBody job idx))

/-- SENSOR_QUEUE_SPACE (R355): a waiting SENSOR_WRITE finds room in the queue. -/
def execSensorQueueSpace (job idx : Nat) (s : State) : Host.Outcome State Fault Refusal := .next (runPart s job idx 0x15 .running (sensorBody job idx))

/-! ### WAIT_TIME (R379, R380) -/

/-- The target of a WAIT_TIME in ns, as an integer. -/
def State.waitTarget (s : State) (j : Job) (d : List Byte) : Int :=
  if bits (le d 16 1) 1 0 = 0 then (le d 24 8 : Int)
  else ((s.firedFrame j (le d 17 1 % 128)).elim 0 (·.2) : Int) + signed 64 (le d 24 8)

/-- WAIT_TIME's effect: the target is judged once at the start; a target already reached completes at once. -/
def waitBody (id i : Nat) (j : Job) (c : Cmd) : Run Unit := do
  let s ← get
  let d := c.desc
  let t := s.waitTarget j d
  if t < 0 ∨ (2 : Int) ^ 63 - 1 < t then throw St.OUT_OF_LIMIT
  if s.actionDue t.toNat 0 then
    if bitOf (le d 16 1) 2 then throw St.OUT_OF_LIMIT else change fun s => s.finishCmd id i St.OK
  else change fun s => s.updCmd id i fun c => { c with stage := .running, target := t.toNat }

/-- WAIT_TIME (R379). -/
def execWaitTime (job idx : Nat) (s : State) : Host.Outcome State Fault Refusal := .next (runPart s job idx 0x12 .started (waitBody job idx))

/-- WAIT_TIME_REACHED (R379): a waiting WAIT_TIME's target is reached. -/
def execWaitTimeReached (job idx : Nat) (s : State) : Host.Outcome State Fault Refusal :=
  .next (runPart s job idx 0x12 .running fun _ c => change fun s => if s.actionDue c.target 0 then s.finishCmd job idx St.OK else s)

end Sys2Proof.Machine
end

