-- ==== Sys2Proof/Machine/Jtag.lean ====
section
/-!
DEFINITION. The test access port (R556). PRESUMED: its controller, its bypass register and the bits that the instruction
register captures are those of IEEE 1149.1, which the manual names without repeating it.
-/
namespace Sys2Proof.Machine

/-- The next state of the controller at a rising edge of TCK. [PRESUMED, log entry 61] -/
def TapState.next (st : TapState) (tms : Bool) : TapState :=
  match st, tms with
  | .testLogicReset, true => .testLogicReset
  | .testLogicReset, false => .runTestIdle
  | .runTestIdle, true => .selectDr
  | .runTestIdle, false => .runTestIdle
  | .selectDr, true => .selectIr
  | .selectDr, false => .captureDr
  | .captureDr, true => .exit1Dr
  | .captureDr, false => .shiftDr
  | .shiftDr, true => .exit1Dr
  | .shiftDr, false => .shiftDr
  | .exit1Dr, true => .updateDr
  | .exit1Dr, false => .pauseDr
  | .pauseDr, true => .exit2Dr
  | .pauseDr, false => .pauseDr
  | .exit2Dr, true => .updateDr
  | .exit2Dr, false => .shiftDr
  | .updateDr, true => .selectDr
  | .updateDr, false => .runTestIdle
  | .selectIr, true => .testLogicReset
  | .selectIr, false => .captureIr
  | .captureIr, true => .exit1Ir
  | .captureIr, false => .shiftIr
  | .shiftIr, true => .exit1Ir
  | .shiftIr, false => .shiftIr
  | .exit1Ir, true => .updateIr
  | .exit1Ir, false => .pauseIr
  | .pauseIr, true => .exit2Ir
  | .pauseIr, false => .pauseIr
  | .exit2Ir, true => .updateIr
  | .exit2Ir, false => .shiftIr
  | .updateIr, true => .selectDr
  | .updateIr, false => .runTestIdle

/-- The instruction of a number of Config.tapCode. [DESIGN CHOICE, log entry 24] -/
def TapInstr.ofCode (n : Nat) : TapInstr :=
  match n with
  | 0 => .bypass
  | 1 => .samplePreload
  | 2 => .extest
  | 3 => .extestPulse
  | 4 => .extestTrain
  | 5 => .clamp
  | 6 => .highz
  | n => .other n

/-- The instructions that take the pins (R556). -/
def TapInstr.takesPins (i : TapInstr) : Bool :=
  match i with
  | .extest | .extestPulse | .extestTrain | .clamp | .highz => true
  | .bypass | .samplePreload | .other _ => false

/-- The lifecycle state lets a private instruction run (R480): MANUFACTURE and RETURN give full access, DEVELOP debugs the firmware processors. [DESIGN CHOICE, log entry 62] -/
def State.privateTap (s : State) : Bool := s.board.lifecycle != 2

/-- The instruction in effect (R556, R480): with PORST_N high those that take the pins act as BYPASS, and so does a private one that the lifecycle state does not allow. [DESIGN CHOICE, log entry 62] -/
def State.tapInstr (s : State) : TapInstr :=
  if s.tap.instr.takesPins && s.phase != .held then .bypass
  else match s.tap.instr with
    | .other n => if s.privateTap then .other n else .bypass
    | i => i

/-- The boundary register drives the pins (R556). -/
def State.tapDrivesPins (s : State) : Bool := s.phase == .held && s.tap.instr.takesPins

/-- The instructions that put the bypass register between TDI and TDO. -/
def TapInstr.usesBypass (i : TapInstr) : Bool := match i with | .bypass => true | .clamp => true | .highz => true | _ => false

/-- Change the test access port. -/
def State.updTap (s : State) (f : Tap → Tap) : State := { s with tap := f s.tap }

/-- A bit whose value the manual does not give. [DESIGN CHOICE, log entry 46] -/
def State.freeBit (s : State) : Bool × State := ((Config.free 1 s.freeN).getLsbD 0, { s with freeN := s.freeN + 1 })

/-- What a rising edge of TCK does in the controller's present state: capture, shift or update. [PRESUMED, log entry 61] -/
def State.tapAct (s : State) (tdi : Bool) : State :=
  let i := s.tapInstr
  match s.tap.state with
  | .captureDr => s.updTap fun t => { t with shifted := [], bypass := false }
  | .captureIr => s.updTap fun t => { t with shifted := [] }
  | .shiftDr => s.updTap fun t => { t with shifted := tdi :: t.shifted, bypass := tdi }
  | .shiftIr => s.updTap fun t => { t with shifted := tdi :: t.shifted }
  | .updateDr => if i = .samplePreload ∨ i = .extest ∨ i = .extestPulse ∨ i = .extestTrain then s.updTap fun t => { t with boundary := t.shifted } else s
  | .updateIr => s.updTap fun t => { t with instr := TapInstr.ofCode (Config.tapCode t.shifted) }
  | _ => s

/-- TDO after the edge: driven only while shifting; the bypass bit, the 1 and 0 that the instruction register captures lowest, or a captured bit whose value the manual does not give. [DESIGN CHOICE, log entry 46; PRESUMED, log entry 61] -/
def State.tapOut (s : State) : State :=
  match s.tap.state with
  | .shiftDr =>
    if s.tapInstr.usesBypass then s.updTap fun t => { t with tdo := some t.bypass }
    else
      let b := s.freeBit
      b.2.updTap fun t => { t with tdo := some b.1 }
  | .shiftIr =>
    let k := s.tap.shifted.length
    if k < 2 then s.updTap fun t => { t with tdo := some (k == 0) }
    else
      let b := s.freeBit
      b.2.updTap fun t => { t with tdo := some b.1 }
  | _ => s.updTap fun t => { t with tdo := none }

/-- JTAG_TCK_EDGE (R556): TRST_N low resets the port; otherwise TCK rises with TMS and TDI as given. Nothing of the device but the port changes. [DESIGN CHOICE, log entry 24] -/
def execJtagTckEdge (tms tdi trst : Bool) (s : State) : Host.Outcome State Fault Refusal :=
  .next (
    if trst then s.updTap fun _ => {}
    else
      let s := s.tapAct tdi
      let n := s.tap.state.next tms
      let s := s.updTap fun t => { t with state := n, instr := if n = .testLogicReset then .bypass else t.instr }
      s.tapOut)

end Sys2Proof.Machine
end

