-- ==== Sys2Proof/Machine/SelfTest.lean ====
section
/-!
DEFINITION. The swatch runner (R458 to R468): slices of test cycles on withdrawn cores, their results, swatch packs.
-/
namespace Sys2Proof.Machine

/-- Change the runner. -/
def State.updSwr (s : State) (f : Runner → Runner) : State := { s with swr := f s.swr }

/-- A core's test cycle. -/
def State.test (s : State) (g : Nat) : CoreTest := s.swr.cores.getD g {}

/-- Change a core's test cycle. -/
def State.updTest (s : State) (g : Nat) (f : CoreTest → CoreTest) : State := s.updSwr fun r => { r with cores := updAt f g r.cores }

/-- INTERVAL_MS in ns (R462). -/
def State.testInterval (s : State) : Nat := s.fld Reg.TAL_SW_CTRL 15 0 * 1000000

/-! ### Packs (R463 to R465) -/

/-- The pattern records of a pack, each with its data. -/
def patternsOf : Nat → List Byte → List (List Byte)
  | 0, _ => []
  | n + 1, b => let k := 192 + le b 2 2; b.take k :: patternsOf n (b.drop k)

/-- The TWILL_PASS or TIDY_CHAIN descriptor of a pattern: its body behind a zero header (R464). -/
def patternDesc (r : List Byte) : List Byte := List.replicate 16 0 ++ slice r 64 112

/-- UNIT of a pattern. -/
def patternTidy (r : List Byte) : Bool := bitOf (le r 0 1) 0

/-- The limits of R464 on a Twill pattern. -/
def twillPatternOk (r : List Byte) : Bool :=
  let t := twillD (patternDesc r)
  !t.cin && !t.warp16 && !t.argmax && !t.argmaxOnly && t.fmt == 0 && t.k ≤ 128 && t.rows != 0 && t.rows ≤ 512 && t.cols != 0 && t.cols ≤ 512 && t.k != 0
  && [t.weft, t.warp, t.warpStride, t.cinOff, t.cinStride, t.out, t.outStride, t.rowScale, t.colScale, t.argmaxOff, t.scratch].all (· == 0)
  && t.k * t.bits * 64 + t.k * t.cols ≤ le r 2 2 && zeroBytes r 176 191

/-- The limits of R464 on a tidy pattern: its tables and tensors lie in its data, every tensor in the skein below 0x7_0000. -/
def tidyPatternOk (r : List Byte) : Bool :=
  let d := patternDesc r
  let t := tidyD d
  let data := r.drop 192
  let chain := slice data t.chain (16 * t.n)
  let tens := slice data t.tensors (32 * (t.nIn + t.nOut))
  let ts := tensorsOf t tens
  let ps := (chainOf (stagesOf t chain)).1
  checkTidy d == 0 && checkTidyStart d chain tens == 0 && ts.all (·.skein)
  && (tidyIns 0 t ts ++ tidyOuts 0 t ps ts).all (fun b => b.base - skeinAddr 0 0 + b.extent ≤ 0x10000) && zeroBytes r 112 191

/-- A pattern record has its form (R464). -/
def patternOk (r : List Byte) : Bool :=
  bits (le r 0 1) 7 1 == 0 && le r 1 1 == 0 && le r 2 2 % 64 == 0 && 1 ≤ le r 8 4 && le r 8 4 ≤ 28500 && zeroBytes r 12 63
  && (if patternTidy r then tidyPatternOk r else twillPatternOk r)

/-- The patterns of a pack. -/
def packPatterns (b : List Byte) : List (List Byte) := patternsOf (le b 12 2) ((b.take (le b 16 4)).drop 64)

/-- A pack's header and records have their form and keep the limits (R463, R464). -/
def packForm (b : List Byte) : Bool :=
  let n := le b 12 2
  let len := le b 16 4
  let ps := packPatterns b
  le b 0 2 == 0x5357 && le b 2 1 == 1 && bits (le b 3 1) 7 4 == 0 && 1 ≤ n && n ≤ 341 && zeroBytes b 14 15 && len % 64 == 0 && len ≤ 65536 && zeroBytes b 20 63
  && ps.all (fun r => r.length == 192 + le r 2 2 && patternOk r) && sumNat (ps.map (·.length)) + 64 ≤ len && sumNat (ps.map fun r => le r 8 4) ≤ 950000

/-- The highest version loaded of a PACK_ID since power-on reset. -/
def State.packVersion (s : State) (id : Nat) : Nat := ((s.sec.packs.find? (·.1 == id)).map (·.2)).getD 0

/-- What a write of TAL_SW_SLOT does (R465): LOAD with ADDR 0 empties the slot; otherwise the security core checks the pack. -/
def State.afterPackLoad (k : Nat) (v : Word) (s : State) : State :=
  let a := s.rd64 (Reg.TAL_SW_ADDR k) % 2 ^ 40
  if !v.getLsbD 29 then s
  else if a = 0 then
    ((((s.wr (Reg.TAL_SW_SLOT k) 0#32).wr (Reg.TAL_SW_ID k) 0#32).wr (Reg.TAL_SW_VER k) 0#32).updSwr
      fun r => { r with slots := r.slots.set k [], loads := r.loads.set k none })
  else s.updSwr fun r => { r with loads := r.loads.set k (some a) }

/-- A pack is refused: the slot keeps its previous pack (R465). -/
def State.refusePack (s : State) (k version : Nat) : State :=
  (s.setBit (Reg.TAL_SW_SLOT k) 30 true).report 0x174 Kind.SWATCH_PACK_BAD 0 (k * 2 ^ 32 + version)

/-- SWATCH_PACK_VERIFIED (R465): the security core has read and checked the pack. -/
def execSwatchPackVerified (slot : Fin 4) (s : State) : Host.Outcome State Fault Refusal :=
  .next (
    let k := slot.val
    match s.swr.loads.getD k none with
    | none => s
    | some a =>
      if !s.securityUp then s
      else
        let s := s.updSwr fun r => { r with loads := r.loads.set k none }
        match s.secRead a 64 with
        | (none, s) => s.refusePack k 0
        | (some h, s) =>
          let len := min (le h 16 4) 65536
          match s.secRead a (len + 2420) with
          | (none, s) => s.refusePack k (le h 8 4)
          | (some b, s) =>
            let key := le b 3 1 % 16
            let body := b.take len
            if a % 64 = 0 ∧ packForm body ∧ s.vkeyServes key 0
                ∧ Config.mldsaVerify (s.sec.vkeys.getD key []) (leBytes 32 (sha3 body).toNat) (slice b len 2420)
                ∧ s.packVersion (le b 4 4) ≤ le b 8 4 then
              let s := s.updSec fun x => { x with packs := (le b 4 4, le b 8 4) :: x.packs.filter (·.1 != le b 4 4) }
              let s := s.updSwr fun r => { r with slots := r.slots.set k body }
              let s := ((s.setBit (Reg.TAL_SW_SLOT k) 31 true).setBit (Reg.TAL_SW_SLOT k) 30 false).wr (Reg.TAL_SW_ID k) (BitVec.ofNat 32 (le b 4 4))
              (s.wr (Reg.TAL_SW_VER k) (BitVec.ofNat 32 (le b 8 4))).report 0x174 Kind.SWATCH_PACK_LOADED 0 (k * 2 ^ 32 + le b 8 4)
            else s.refusePack k (le h 8 4))

/-! ### Cycles (R458 to R462) -/

/-- The packs loaded now, as a cycle that begins takes them: slot, PACK_ID, PACK_VERSION, patterns (R461). -/
def State.loadedPacks (s : State) : List (Nat × Nat × Nat × List (List Byte)) :=
  (List.range 4).filterMap fun k =>
    let b := s.swr.slots.getD k []
    if b.isEmpty then none else some (k, le b 4 4, le b 8 4, packPatterns b)

/-- Segments and patterns of a core's cycle. -/
def CoreTest.total (t : CoreTest) : Nat := 40 + sumNat (t.packs.map fun p => p.2.2.2.length)

/-- A cycle of the core begins. -/
def State.beginCycle (s : State) (g : Nat) : State :=
  s.updTest g fun t => { t with at_ := 0, packs := s.loadedPacks }

/-- A core's cycle is abandoned; it begins again from its first segment (R460, R461). -/
def State.abandonCycle (s : State) (g : Nat) : State := s.updTest g fun t => { t with at_ := 0, packs := [] }

/-- A core's interval restarts (R461, R462, R518). -/
def State.restartInterval (s : State) (g : Nat) : State := (s.abandonCycle g).updTest g fun t => { t with since := s.refNs, starvedAt := s.refNs }

/-- A core that the runner may test: enabled, not suspect, its cluster powered and not gated (R459). -/
def State.testable (s : State) (g : Nat) : Bool :=
  !(s.core g).disabled && !s.suspect g && s.clusterUp (g / 8) && !s.bit (Reg.PWR_CLUSTER_C (g / 8)) 31
  && !((s.core g).escal.any Option.isSome)

/-- The core to ask next: the oldest last cycle, the lower index on a tie; not one that deferred within 100 µs (R459). -/
def State.nextTest (s : State) : Option Nat :=
  (List.range 32).foldl (fun (b : Option Nat) g =>
    if s.testable g && (s.core g).testDefer.isNone then
      match b with
      | none => some g
      | some k => if (s.test g).since < (s.test k).since then some g else b
    else b) none

/-- SWATCH_SLICE_REQUEST (R459, R498): one slice on the die at a time; none is requested in STANDBY. -/
def execSwatchSliceRequest (s : State) : Host.Outcome State Fault Refusal :=
  .next (
    if s.phase = .live ∧ s.pwr.boot = .done ∧ s.bit Reg.TAL_SW_CTRL 31 ∧ s.fld Reg.PWR_STATE 25 24 = 0 ∧ s.pwr.warm = false
        ∧ s.sch.testAsk = none ∧ s.sch.testCore = none then
      match s.nextTest with
      | some g =>
        let s := if (s.test g).at_ = 0 then s.beginCycle g else s
        s.updSched fun c => { c with testAsk := some g }
      | none => s
    else s)

/-- SWATCH_DEFER_RETRY (R459): 100 µs after a deferral the core may be asked again. -/
def execSwatchDeferRetry (core : CoreId) (s : State) : Host.Outcome State Fault Refusal :=
  .next (match (s.core core.val).testDefer with
    | some d => if d ≤ s.refNs then s.updCore core.val fun c => { c with testDefer := none } else s
    | none => s)

/-- The result entry's address (R466). -/
def testEntryAt (g e : Nat) : Nat := 0x4000580000 + (g * 8 + e) * 4096

/-- Write the result of an entry of a cycle (R466): counts saturate; a failed cycle has its first failure. An entry that cannot be read (R262) counts as one of zeros. [DESIGN CHOICE, log entry 110] -/
def State.writeEntry (s : State) (g e id ver : Nat) (x : TestEntry) : State :=
  let a := testEntryAt g e
  let r := runOn (readUnit (s.tagOf 0 0x174) a 32) s
  let old := match r.1 with | .ok b => b | .error _ => List.replicate 32 0
  let s := r.2
  let same := e == 0 || (le old 0 4 == id && le old 4 4 == ver)
  let pass := if same then le old 8 4 else 0
  let fail := if same then le old 12 4 else 0
  let b := leBytes 4 id ++ leBytes 4 ver ++ leBytes 4 (satAdd 32 pass (b2n !x.fails)) ++ leBytes 4 (satAdd 32 fail (b2n x.fails))
    ++ leBytes 8 (if x.fails then le old 16 8 else s.timeWord) ++ leBytes 2 (if x.fails then x.first else if same then le old 24 2 else 0xFFFF)
    ++ leBytes 2 x.skipped ++ leBytes 4 (if x.fails then x.got else if same then le old 28 4 else 0)
  (s.poke a b).freshWords a 32

/-- Patterns of a pack that a core's width skips (R461). -/
def State.skippedOn (s : State) (g : Nat) (ps : List (List Byte)) : Nat :=
  (ps.filter fun r => !patternTidy r && s.width g < (twillD (patternDesc r)).cols).length

/-- A cycle is complete: every part's result is written, and the next cycle begins (R462, R466). -/
def State.cycleDone (s : State) (g : Nat) : State :=
  let t := s.test g
  let s := s.writeEntry g 0 0 0 {}
  let s := t.packs.foldl (fun s p => s.writeEntry g (p.1 + 1) p.2.1 p.2.2.1 { skipped := s.skippedOn g p.2.2.2 }) s
  let s := s.sat Reg.TAL_SW_CYCLES 31 0 1
  (s.abandonCycle g).updTest g fun t => { t with since := s.refNs, starvedAt := s.refNs }

/-- A failing unit is treated as R460 says: an engine, feeder or tidy unit becomes suspect; any other unit's failure disables the core. -/
def State.testFails (s : State) (g unit : Nat) : State :=
  if unit ≤ 1 then s.makeSuspect (engineOf g) 0
  else if unit = 2 ∨ unit = 3 then s.makeSuspect ⟨Fin.ofNat 32 g, Fin.ofNat 8 unit⟩ 0
  else (s.mapEntry g (true, (s.core g).bypassed)).report (unitSrc g 0) Kind.LEDGER_DISABLE 0 0

/-- The core of a slice returns: what the slice left in its own areas is not stated (R458). [DESIGN CHOICE, log entry 98] -/
def State.releaseTest (s : State) (g : Nat) : State :=
  let s := s.updSched fun c => { c with testCore := none }
  ((((s.updCore g fun c => { c with testing := false }).setBit Reg.TAL_SW_STATUS 31 false).stage g).loseChunks g).fillLine g 196608

/-- A slice is abandoned without result; the cycle goes on later at its first segment or pattern (R461). -/
def State.abandonSlice (s : State) (g : Nat) : State :=
  let s := if s.sch.testAsk = some g then s.updSched fun c => { c with testAsk := none } else s
  if s.sch.testCore = some g then s.releaseTest g else s

/-- SWATCH_SLICE_END (R459, R460, R466): a slice has run some bit-steps, never more than SCH_TEST_SLICE (R60). -/
def execSwatchSliceEnd (core : CoreId) (result : SliceResult) (s : State) : Host.Outcome State Fault Refusal :=
  .next (
    let g := core.val
    if s.sch.testCore ≠ some g ∨ s.fld Reg.SCH_TEST_SLICE 17 0 < result.steps then s
    else
      let s := s.releaseTest g
      let t := s.test g
      match result.fail with
      | some (e, idx, unit, crc) =>
        let addr := g * 2 ^ 32 + unit.val * 2 ^ 24 + e % 16 * 2 ^ 16 + idx % 2 ^ 16
        let s := s.report 0x174 (if e = 0 then Kind.SELFTEST_FAIL else Kind.SWATCH_MISMATCH) 0 addr
        let x : TestEntry := { fails := true, first := idx % 2 ^ 16, got := crc.toNat }
        let s := match t.packs.find? (·.1 + 1 == e) with
          | some p => s.writeEntry g e p.2.1 p.2.2.1 { x with skipped := s.skippedOn g p.2.2.2 }
          | none => s.writeEntry g 0 0 0 x
        (s.abandonCycle g).testFails g unit.val
      | none =>
        let n := t.at_ + result.ran
        if t.total ≤ n then s.cycleDone g else s.updTest g fun t => { t with at_ := n })

/-- SELFTEST_STARVED (R462): the diagnostic interval has passed for an enabled core of a powered cluster, once per interval. -/
def execSelftestStarved (core : CoreId) (s : State) : Host.Outcome State Fault Refusal :=
  .next (
    let g := core.val
    let t := s.test g
    if s.phase = .live ∧ s.pwr.boot = .done ∧ (s.core g).disabled = false ∧ s.clusterUp (g / 8)
        ∧ max t.since t.starvedAt + s.testInterval ≤ s.refNs then
      ((s.report 0x174 Kind.SELFTEST_STARVED 0 (g * 2 ^ 32)).sat Reg.TAL_SW_STARVED 31 0 1).updTest g fun t => { t with starvedAt := s.refNs }
    else s)

/-- What a write of TAL_SW_CTRL leaves: 100 to 60,000 ms, or the old value (R468). -/
def State.afterSwCtrl (old s : State) : State :=
  let v := s.fld Reg.TAL_SW_CTRL 15 0
  if 100 ≤ v ∧ v ≤ 60000 then s else s.setFld Reg.TAL_SW_CTRL 15 0 (old.fld Reg.TAL_SW_CTRL 15 0)

end Sys2Proof.Machine
end

