-- ==== Sys2Proof/Machine/Reset.lean ====
section
/-!
DEFINITION. Resets and power states: stall reset (R306), core and cluster reset (R295, R513), warm reset and journal replay
(R293, R294, R297, R512 to R515, R518), clusters in IDLE and the device in STANDBY (R494 to R500), power-on reset, alignment
and boot (R54, R55, R475, R476), and the release of a restarted processor (R481, R296).
-/
namespace Sys2Proof.Machine

/-! ### The alignment counter (R54, R57) -/

/-- The next wrap of the alignment counter after now: the next alignment edge. [DESIGN CHOICE, log entry 71] -/
def State.nextWrap (s : State) : Nat :=
  match s.pwr.alignT1 with
  | none => s.refNs
  | some t => s.refNs + 960 - (s.refNs - t) % 960

/-- The exit from STANDBY begins (R497): the islands that stopped restart at the next alignment edge (R57). -/
def State.beginExit (s : State) : State := (s.setFld Reg.PWR_STATE 25 24 3).updPwr fun p => { p with edgeAt := s.nextWrap }

/-! ### Stopping work -/

/-- Stop what runs of a job (R87, R392): its pass is abandoned, its feeder stands still, its queued frames are removed, its contexts given up. [DESIGN CHOICE, log entry 63] -/
def State.stopJob (s : State) (j : Job) : State :=
  let s := if (s.core j.core).pass.any fun p => p.job == j.id then s.abandonPass j.core else s
  let s := s.dropInjection j
  let s := j.cmds.foldl (fun s c =>
    if c.stage = .running ∧ !j.preempted ∧ (opcodeOf c.desc = 2 ∨ opcodeOf c.desc = 3) then s.feederDone j.core c.desc else s) s
  let s := s.removeFrames fun x => x.job == j.id
  { s with holds := s.holds.filter fun h => h.job != j.id }

/-- Every command of a job that is not complete ends with STALL_RESET (R285); those in progress are charged. -/
def State.endReset (s : State) (j : Job) : State :=
  let s := j.cmds.foldl (fun (s : State) c => if c.inProgress then s.chargeCmd j c else s) s
  (s.updJob j.id fun j => { j with
    preempted := false, spilled := [],
    cmds := if j.cmds.isEmpty then fixedCmds j.nCmds St.STALL_RESET j.deadlinePassed
      else j.cmds.map fun c => if c.stage = .done then c else { c with stage := .done, status := St.STALL_RESET, late := j.deadlinePassed } }).nodeSignals j.id

/-- The nodes of a stall's instances that have not become jobs become jobs, for the reset to end. [DESIGN CHOICE, log entry 63] -/
def State.placeNodes (s : State) (n : Nat) : State :=
  (List.range 64).foldl (fun s g =>
    (s.graph g).insts.foldl (fun s i =>
      if s.instStall g i ≠ n then s
      else (s.instNodes g i).zipIdx.foldl (fun s p => if i.placed.contains p.2 then s else s.makeNodeJob g i p.2 p.1) s) s) s

/-- A pre-emption that concerns a job of the stall. -/
def State.preemptOf (s : State) (n : Nat) (p : Preempt) : Bool :=
  let mine := fun id => (s.job? id).any fun j => j.stall == n
  mine p.victim || p.winner.any mine

/-- Settings that are still queued are dropped without being issued (R355); one whose frame has begun keeps what has reached that frame. -/
def Stream.dropQueued (x : Stream) : Stream :=
  let goes := fun (y : Setting) => y.phase == .queued
  { x with queue := x.queue.filter fun y => !goes y, tail := x.tail.filter fun y => !goes y, cur := x.cur.map fun f => { f with sets := f.sets.map fun y => if goes y then { y with phase := .sent } else y } }

/-- A stall reset (R306, R519): commands end, pending instances are dropped, spills discarded; cause 0 is the stall's register, 1 the Tally. [DESIGN CHOICE, log entry 63] -/
def State.stallReset (s : State) (n cause : Nat) : State :=
  if n = 0 then s
  else
    let s := s.placeNodes n
    let js := s.cmd.jobs.filter fun j => j.stall == n && !j.ended
    let s := s.updSched fun c => { c with preempt := c.preempt.map fun o => o.filter fun p => !s.preemptOf n p }
    let s := js.foldl (fun s j => (s.stopJob j).endReset j) s
    let s := (List.range 64).foldl (fun (s : State) g => if s.graphStall g = n then s.updGraph g fun x => { x with pend := none } else s) s
    let s : State := { s with streams := s.streams.mapIdx fun k x => if s.fld (Reg.ING_STR_CTRL k) 27 24 = n then x.dropQueued else x }
    ((s.setFld (Reg.SCH_STALL_DEBT n) 23 0 0).restStalls).report 0x100 Kind.STALL_RESET n (n + cause * 2 ^ 8)

/-- Injection arms of a core return to 0 (R518). -/
def State.disarmCore (s : State) (g : Nat) : State :=
  let s := (s.setBit (Reg.TW_LEDGER_INJECT g) 31 false).setBit (Reg.BT_ECC_INJECT g) 31 false
  (s.setBit (Reg.TD_INJECT g 0) 31 false).setBit (Reg.TD_INJECT g 1) 31 false

/-- What a core, cluster or warm reset does to a core beside its commands (R461, R513, R518): pre-emption and self-test slice end, injection arms clear, a probe that ran is run again. -/
def State.resetUnits (s : State) (g : Nat) : State :=
  let s := (((s.setPreempt g none).abandonSlice g).disarmCore g)
  s.updCore g fun c => { c with escal := c.escal.map fun o => o.map fun e => if e.phase = .probing then { e with phase := .probeDue } else e }

/-- A core reset (R295, R298, R513, R515): the jobs that have begun on the core and not ended are executed again; a disabled core ignores it. [DESIGN CHOICE, log entry 64] -/
def State.resetCore (s : State) (g : Nat) : State :=
  if (s.core g).disabled then s
  else
    let js := s.cmd.jobs.filter fun j => j.phase = .placed && j.core == g && j.cmds.any (·.began) && !j.ended
    let s := js.foldl (fun s j => (s.stopJob j).replayJob j.id) s
    (s.resetUnits g).restStalls

/-- A cluster reset (R512): every core of the cluster, and its control core with cause request. [DESIGN CHOICE, log entry 64] -/
def State.resetCluster (s : State) (c : Nat) : State :=
  ((List.range 8).foldl (fun s k => s.resetCore (c * 8 + k)) s).startRestart (3 + c) 1 none

/-! ### Warm reset (R512, R513, R515, R518) -/

/-- Every session, claim and window binding ends; an ownership ends and the generation rises (R409). [DEDUCED, log entry 67] -/
def State.dropSessions (s : State) : State :=
  let s := if s.bar.owner.isSome then s.inc Reg.BAR_OWNER_GEN 1 else s
  let s := (List.range 256).foldl (fun (s : State) w => (s.setBit (Reg.BAR_WIN w) 31 false).setFld (Reg.BAR_WIN w) 15 0 0) s
  s.updBar fun b => { b with slots := List.replicate 8 none, owner := none, elect := none, nextNum := 1 }

/-- Open frames of a stream are dropped and counted; its setting queue empties (R512, R336). [DESIGN CHOICE, log entry 65] -/
def State.dropOpen (s : State) (n : Nat) : State :=
  let x := s.stream n
  let isp := (match s.isp.run with | some r => if r.1 = n then [r.2.1] else [] | none => []) ++ (match s.isp.copy with | some r => if r.1 = n then [r.2] else [] | none => [])
  let fs := x.cur.toList ++ x.raws ++ x.inl.toList ++ x.done ++ isp
  let s := fs.foldl (fun s f => s.dropFrame n f.frame) s
  s.updStream n fun y => { y with cur := none, raws := [], inl := none, done := [], queue := [], tail := [], ignoring := y.ignoring || x.cur.isSome }

/-- Instances in flight end without publishing, and the pending instance is dropped (R294, R518). -/
def State.dropInstances (s : State) (g : Nat) : State := s.updGraph g fun x => { x with insts := [], pend := none }

/-- A warm reset begins (R512): everything that it reaches stops. cause: 1 WRST_N, 2 PWR_RESET, 3 the Tally. [DESIGN CHOICE, log entry 65] -/
def State.beginWarm (s : State) (cause : Nat) : State :=
  let s := ((s.setFld Reg.PWR_RESET_CAUSE 3 0 cause).sat Reg.PWR_RESET_CAUSE 31 16 1).setFld Reg.PWR_STATE 25 24 0
  let s := (s.cmd.jobs.filter fun j => j.phase = .placed).foldl (fun s j => s.stopJob j) s
  let s := (List.range 32).foldl (fun s g => s.resetUnits g) s
  let s := s.updCmdPlane fun c => { c with jobs := [], rings := List.replicate 64 {}, after := [], replayLeft := [], scanDue := false }
  let s := (List.range 64).foldl (fun s g => s.dropInstances g) s
  let s := s.updSched fun c => { c with active := [], slice := List.replicate 32 none }
  let s := (List.range 64).foldl (fun (s : State) n => s.setBit (Reg.CMD_RING_CTRL n) 31 false) s
  let s := (List.range 16).foldl (fun (s : State) n => s.setFld (Reg.SCH_STALL_DEBT n) 23 0 0) s
  let s := s.dropSessions
  let s : State := { s with holds := [], eth := s.eth.map fun e => { e with ctrl := e.ctrl.filter CtlFrame.isFault, queues := List.replicate 8 [], rx := [] } }
  let s := (List.range 128).foldl (fun s n => s.dropOpen n) s
  let s := s.updIsp fun _ => {}
  let s := (List.range 3).foldl (fun s p => s.linkDown p) s
  let s : State := { s with age := List.replicate 64 {} }
  let s := s.setBit Reg.MEM_ECC_INJECT 31 false
  let s := (List.range 7).foldl (fun (s : State) n =>
    ((s.setBit (Reg.FW_PROC n) 28 false).updProc n fun p => { p with restart := none, test := none }).startRestart n 3 none) s
  s.updPwr fun p => { p with warm := true, warmNext := none }

/-- A warm reset is requested (R512, R515, R554): merged into one in progress; in STANDBY the device leaves it first; none before boot has completed. [DESIGN CHOICE, log entries 65, 66] -/
def State.startWarm (s : State) (cause : Nat) : State :=
  if s.phase ≠ .live ∨ s.pwr.boot ≠ .done ∨ s.pwr.warm then s
  else match s.fld Reg.PWR_STATE 25 24 with
    | 2 => s.beginExit.updPwr fun p => { p with warmNext := some cause }
    | 3 => s.updPwr fun p => { p with warmNext := some (p.warmNext.getD cause) }
    | _ => s.beginWarm cause

/-- A new epoch begins for the command plane (R297). -/
def State.newEpoch (s : State) : State :=
  let s := s.updBoard fun b => { b with norEpoch := (b.norEpoch + 1) % 2 ^ 32 }
  let s := s.wr Reg.CMD_EPOCH (BitVec.ofNat 32 s.board.norEpoch)
  let s := (List.range 64).foldl (fun (s : State) n => (s.wr64 (Reg.CMD_RING_SEQ n) 0).wr64 (Reg.CMD_RING_PUB n) 0) s
  s.updJournal fun _ => {}

/-- The warm reset ends: t0 of R293. Counts come from the journal, or a new epoch begins where it is down; the enabled links train. [DESIGN CHOICE, log entry 66] -/
def State.endWarm (s : State) : State :=
  let s := s.updPwr fun p => { p with warm := false, warmPin := false }
  let s : State := { s with fw := s.fw.map fun p => { p with restart := p.restart.map fun r => (r.1, s.refNs) } }
  let s := if s.journalOk then
      let s := (List.range 64).foldl (fun (s : State) n =>
        let r := s.cmd.journal.ring n
        (s.wr64 (Reg.CMD_RING_SEQ n) r.accepted).wr64 (Reg.CMD_RING_PUB n) r.published) s
      (s.setBit Reg.CMD_STATUS 30 true).updCmdPlane fun c => { c with scanDue := true, replayCount := 0 }
    else (s.setBit Reg.CMD_STATUS 30 false).newEpoch
  (List.range 3).foldl (fun s p => s.startTraining p) s

/-- WRST_N_ASSERT (R512, R553, R554): low for 1 µs it starts a warm reset, for 200 ns or less nothing; between them it starts one or none. [DESIGN CHOICE, log entries 44, 101] -/
def execWrstNAssert (ns : Nat) (s : State) : Host.Outcome State Fault Refusal :=
  .next (
    let taken : Bool := if 1000 ≤ ns then true else if ns ≤ 200 then false else Config.free 1 s.freeN = 1#1
    let s : State := if 200 < ns ∧ ns < 1000 then { s with freeN := s.freeN + 1 } else s
    if taken ∧ s.phase ≠ .held then (s.updPwr fun p => { p with warmPin := true }).startWarm 1 else s)

/-- WARM_RESET_END (R512, R293): after the rise of WRST_N, or after the write or reaction. [DESIGN CHOICE, log entry 66] -/
def execWarmResetEnd (s : State) : Host.Outcome State Fault Refusal :=
  .next (if s.pwr.warm then s.endWarm else s.updPwr fun p => { p with warmPin := false })

/-- What a write of PWR_RESET does (R514): the most extensive of WARM, CLUSTER and CORE. -/
def State.afterPwrReset (v : Word) (s : State) : State :=
  let t := s.fld Reg.PWR_RESET 4 0
  if v.getLsbD 31 then s.startWarm 2
  else if s.pwr.warm ∨ s.fld Reg.PWR_STATE 25 24 ≠ 0 then s
  else if v.getLsbD 30 then s.resetCluster (t % 4)
  else if v.getLsbD 29 then s.resetCore t
  else s

/-! ### Replay (R293, R294) -/

/-- The job that a log record gives: one to execute again, or one whose completion record is kept byte for byte. [DESIGN CHOICE, log entry 68] -/
def State.logJob (s : State) (id : Nat) (r : LogRec) : Job :=
  let stall := s.ringStall r.ring
  match r.completed with
  | some rec_ =>
    { jobOf id r.ring stall false r.time r.epoch r.entry none with
      phase := .completed, record := rec_, early := some (le rec_ 8 1, le rec_ 10 2), cmds := r.statuses.map fun b => { desc := [], stage := .done, status := b.toNat } }
  | none =>
    let st := if le r.entry 60 4 = (crc32c (slice r.entry 0 60)).toNat then s.entryStatus r.ring r.entry else St.CRC_MISMATCH
    { jobOf id r.ring stall (s.deadlineStall stall) r.time r.epoch r.entry (if st = 0 then none else some st) with replayed := true }

/-- The acceptance journal's part of the HyperRAM (R260). [DESIGN CHOICE, log entry 60] -/
def inJournal (a : Nat) : Bool := 0x4000000000 ≤ a && a < 0x4000400000

/-- The log is scanned (R293, t1 to t3): its jobs wait again, in acceptance order; an uncorrectable word of the journal takes it down (R290). [DESIGN CHOICE, log entry 68] -/
def State.scanJournal (s : State) : State :=
  let s := s.updCmdPlane fun c => { c with scanDue := false }
  let marks := s.ecc.filter fun m => inJournal m.1
  let s := marks.foldl (fun (s : State) m => match m.2 with | .single => s.correctable m.1 0 | .double => s.uncorrectable m.1 0) s
  match marks.find? fun m => m.2 == .double with
  | some m => ((s.journalDown m.1).setBit Reg.CMD_STATUS 30 false).newEpoch
  | none =>
    let log := s.cmd.journal.log
    let jobs := log.zipIdx.map fun p => s.logJob (s.cmd.nextJob + p.2) p.1
    let again := (log.filter fun r => r.completed.isNone).length
    let left := (log.filter fun r => r.completed.isSome).map fun r => (r.ring, r.seq)
    let s := s.updCmdPlane fun c => { c with jobs := c.jobs ++ jobs, nextJob := c.nextJob + jobs.length, replayCount := again, replayLeft := left }
    (s.inc Reg.CMD_REPLAYED again).endReplay.fetchAll

/-- FW_RESTART_COMPLETE (R481, R296, R293): the restart controller releases a processor; the scheduler core then takes up the journal or the doorbells that waited. -/
def execFwRestartComplete (proc : Fin 7) (reloaded damaged : Bool) (s : State) : Host.Outcome State Fault Refusal :=
  .next (
    let n := proc.val
    if s.phase ≠ .live ∨ s.pwr.warm ∨ (s.proc n).restart = none ∨ (2 ≤ n ∧ s.fld Reg.PWR_STATE 25 24 ≠ 0) then s
    else
      let s := s.endRestart n reloaded damaged
      if n ≠ 2 then s
      else
        let s := if s.cmd.scanDue then s.scanJournal else s
        ((List.range 64).foldl (fun s k => s.resumeDoors k) s).fetchAll)

/-! ### Clusters (R495, R500) -/

/-- The pace meter of a cluster returns to its reset state (R495, R518). -/
def State.resetPace (s : State) (c : Nat) : State :=
  let s := (s.wr (Reg.PWR_PACE_C c) (resetWord (Reg.PWR_PACE_C c))).wr (Reg.PWR_PACE_MIN_C c) (resetWord (Reg.PWR_PACE_MIN_C c))
  s.updPwr fun p => { p with pace := p.pace.set c [], paceLow := p.paceLow.set c 0, paceLowAt := p.paceLowAt.set c none }

/-- What a write of PWR_CLUSTER_Cc does (R495): GATE = 1 stops placement and re-homes nodes, once no escalation of the cluster runs; GATE = 0 returns an IDLE cluster to ON. [DESIGN CHOICE, log entry 70] -/
def State.afterCluster (c : Nat) (s : State) : State :=
  let r := Reg.PWR_CLUSTER_C c
  if s.bit r 31 then s.gateTakes c
  else
    let s := s.updPwr fun p => { p with gated := p.gated.set c false }
    if s.fld r 25 24 = 2 then (List.range 8).foldl (fun s k => s.restartInterval (c * 8 + k)) ((s.setFld r 25 24 0).resetPace c) else s

/-- A core of the cluster runs a command, has begun a job that has not ended, or runs a self-test slice. [DESIGN CHOICE, log entry 70] -/
def State.clusterBusy (s : State) (c : Nat) : Bool :=
  (List.range 8).any (fun k => (s.core (c * 8 + k)).testing || (s.core (c * 8 + k)).pass.isSome)
  || s.cmd.jobs.any fun j => j.phase = .placed && j.core / 8 == c && !j.ended && j.cmds.any (·.began)

/-- CLUSTER_IDLE_ENTER (R495): a gated cluster with nothing running and no escalation enters IDLE. [DESIGN CHOICE, log entry 70] -/
def execClusterIdleEnter (cluster : ClusterId) (s : State) : Host.Outcome State Fault Refusal :=
  .next (
    let c := cluster.val
    let r := Reg.PWR_CLUSTER_C c
    if s.phase = .live ∧ s.pwr.gated.getD c false ∧ s.fld r 25 24 < 2 ∧ !s.clusterBusy c ∧ !s.escalating c then s.setFld r 25 24 2 else s)

/-! ### STANDBY (R496 to R498) -/

/-- The refusal of entry to STANDBY (R496): 0 where it is accepted. [DESIGN CHOICE, log entry 69] -/
def State.standbyErr (s : State) : Nat :=
  if (List.range 64).any (fun n => s.bit (Reg.CMD_RING_CTRL n) 31) ∨ s.outstanding ≠ 0 then 1
  else if (List.range 64).any fun n => s.bit (Reg.SCH_GRAPH_CTRL n) 31 then 2
  else if (List.range 128).any s.strOn then 3
  else if (List.range 64).any fun n => s.digOn n && (match regionOf (s.digRegion n).1 with | .bolt _ _ => true | _ => false) then 4
  else if s.pwr.warm ∨ s.fld Reg.PWR_STATE 25 24 = 3 ∨ s.bit Reg.CMD_STATUS 30 ∨ (List.range 7).any (fun n => (s.proc n).restart.isSome) then 5
  else 0

/-- What a write of PWR_STATE does (R496, R497, R499): REQUEST 1 from ON begins entry or is refused; REQUEST 2 in STANDBY begins the exit. [DESIGN CHOICE, log entry 69] -/
def State.afterPwrState (v : Word) (s : State) : State :=
  let r := Reg.PWR_STATE
  let st := s.fld r 25 24
  match bits v.toNat 29 28 with
  | 1 =>
    if st = 0 ∨ st = 3 then
      let e := s.standbyErr
      let s := s.setFld r 3 0 e
      if e = 0 then s.setFld r 25 24 1 else s
    else s
  | 2 => if st = 2 then s.beginExit else s
  | _ => s

/-- Per-core registers that do not return to their reset values in STANDBY (R518): the escalation state and the map's; of TW_LEDGER_STATUS the stages. [DESIGN CHOICE, log entry 69] -/
def keptInStandby (g off : Nat) : Bool :=
  off == Reg.TW_STATUS g || off == Reg.TD_STATUS g 0 || off == Reg.TD_STATUS g 1 || (Reg.TW_LEDGER_HIST g 0 ≤ off && off ≤ Reg.TW_LEDGER_HIST g 15)
  || (Reg.BT_CARVE g 0 ≤ off && off ≤ Reg.BT_CARVE g 7) || (Reg.SK_CARVE g 0 ≤ off && off ≤ Reg.SK_CARVE g 3)

/-- A core's domain is switched off (R518): settings of the ledger, arms, counters and status return to their reset values. -/
def State.switchOff (s : State) (g : Nat) : State :=
  let stages := s.fld (Reg.TW_LEDGER_STATUS g) 15 8
  let lo := Reg.TW_STATUS g
  let s : State := { s with regs := s.regs.filter fun r => !(lo ≤ r.1 && r.1 < lo + 0x100000) || keptInStandby g r.1 }
  let s := s.setFld (Reg.TW_LEDGER_STATUS g) 15 8 stages
  let s := (s.wr (Reg.TD_STATUS g 0) (s.rd (Reg.TD_STATUS g 0) &&& 0x40000000#32)).wr (Reg.TD_STATUS g 1) (s.rd (Reg.TD_STATUS g 1) &&& 0x40000000#32)
  (s.updCore g fun c => { c with stagedBytes := 0 }).setFld (Reg.PWR_CLUSTER_C (g / 8)) 25 24 3

/-- STANDBY_ENTER_COMPLETE (R497, R498, R518): cores held, ports off, sessions on ports 0 and 1 ended, compute domains off. -/
def execStandbyEnterComplete (s : State) : Host.Outcome State Fault Refusal :=
  .next (
    if s.phase ≠ .live ∨ s.fld Reg.PWR_STATE 25 24 ≠ 1 then s
    else
      let s := (s.cmd.jobs.filter fun j => j.phase = .placed).foldl (fun s j => s.stopJob j) s
      let s := (List.range 32).foldl (fun s g => (s.resetUnits g).switchOff g) s
      let s := s.updCmdPlane fun c => { c with jobs := c.jobs.filter fun j => j.ring?.isSome, after := [] }
      let s := (List.range 64).foldl (fun s g => s.dropInstances g) s
      let s := s.restStalls
      let s := [2, 3, 4, 5, 6].foldl (fun (s : State) n =>
        ((s.setBit Reg.FW_STATUS n false).setBit (Reg.FW_PROC n) 30 false).updProc n fun p => { p with restart := none, test := none }) s
      let s := (List.range 3).foldl (fun s p => s.linkDown p) s
      let s := (List.range 3).foldl (fun (s : State) p => s.setBit (Reg.TIM_BIL_STATUS p) 31 false) s
      let s := (List.range 12).foldl (fun (s : State) p => s.setBit (Reg.ING_CSI_CTRL p) 30 false) s
      let s := [0, 1].foldl (fun (s : State) p => (s.setBit (Reg.ETH_PORT_CTRL p) 30 false).dropEligible p) s
      let s := s.updTim fun t => { t with ptp := [[], []] ++ t.ptp.drop 2, bil := List.replicate 3 {} }
      let s := (s.sessions.filter fun x => x.port < 2).foldl (fun s x => s.endSession x.num) s
      s.setFld Reg.PWR_STATE 25 24 2)

/-- Carve-outs as the stall settings give them (R305, R518): every other entry is disabled. -/
def State.restoreCarves (s : State) (g : Nat) : State :=
  let has := fun (skein : Bool) (k : Nat) => (s.sch.carves ++ s.sch.oldCarves).any fun c => c.2.1 == g && c.2.2.1 == skein && c.2.2.2 == k
  let s := (List.range 8).foldl (fun (s : State) k => if has false k then s else s.wr (Reg.BT_CARVE g k) 0#32) s
  (List.range 4).foldl (fun (s : State) k => if has true k then s else s.wr (Reg.SK_CARVE g k) 0#32) s

/-- A core's scratchpads come back as zeros, and contexts in its bolt are LOST (R238, R221, R497). [DESIGN CHOICE, log entry 43] -/
def State.wakeCore (s : State) (g : Nat) : State :=
  let s := (s.zeroMem (coreBase g) 0x1000000).loseBolt g
  let s := s.updCore g fun c => { c with staged := 0, chunkLost := 0, chunkNew := [], lined := 0, lineNew := [], lineHeld := [], scrubAt := 0, scrubSince := s.refNs, scrubLateSent := false }
  (s.restoreCarves g).restartInterval g

/-- STANDBY_EXIT_COMPLETE (R57, R497, R498, R515, R518): the islands have restarted on an alignment edge and everything is powered again; a warm reset that waited follows. -/
def execStandbyExitComplete (s : State) : Host.Outcome State Fault Refusal :=
  .next (
    if s.phase ≠ .live ∨ s.fld Reg.PWR_STATE 25 24 ≠ 3 ∨ s.refNs < s.pwr.edgeAt then s
    else
      let s := s.setFld Reg.PWR_STATE 25 24 0
      let s := (List.range 32).foldl (fun s g => s.wakeCore g) s
      let s := (List.range 4).foldl (fun (s : State) c => (s.setFld (Reg.PWR_CLUSTER_C c) 25 24 (if s.pwr.gated.getD c false then 2 else 0)).resetPace c) s
      let s := [2, 3, 4, 5, 6].foldl (fun (s : State) n => s.startRestart n 3 none) s
      let s := (List.range 3).foldl (fun s p => s.startTraining p) s
      let s := s.updDig fun d => { d with start := s.refNs, late := false }
      match s.pwr.warmNext with
      | some cause => s.beginWarm cause
      | none => s)

/-! ### Power-on reset and alignment (R54, R55, R475, R518) -/

/-- What the OTP shows in registers (R412, R473, R492), and the straps in BIL_DEVICE (R521). -/
def State.otpRegs (s : State) : State :=
  let b := s.board
  let s := (s.wr Reg.SEC_LIFECYCLE (BitVec.ofNat 32 b.lifecycle)).wr64 Reg.SEC_SERIAL b.serial
  let s := s.wr Reg.SEC_OTP_STATUS (BitVec.ofNat 32 (b2n b.seed.isSome * 64 + b2n b.prov.isSome * 32 + b2n b.cfgHash.isSome * 16 + b2n b.revoked0))
  let s := (List.range 7).foldl (fun (s : State) n => s.wr (Reg.SEC_ROLLBACK n) (BitVec.ofNat 32 (b.rollback.getD n 0))) s
  let s := (List.range 3).foldl (fun (s : State) p => s.wr64 (Reg.ETH_MAC_ADDR p) ((b.macBase + p) % 2 ^ 48)) s
  s.wr Reg.BIL_DEVICE (BitVec.ofNat 32 b.devnum)

/-- Cells of the boot NOR. -/
def norCells (m : List Host.Cell) : List Host.Cell := m.filter fun c => 0x5000000000 ≤ c.1 && c.1 < 0x5010000000

/-- A NOR operation that power loss interrupts leaves its target's bytes unstated. [DESIGN CHOICE, log entry 45] -/
def State.cutNor (s : State) : State :=
  match s.sec.nor with
  | some (.erase off n) => s.undefine (norAddr off) (n * 65536)
  | some (.program off d) => s.undefine (norAddr off) d.length
  | none => s

/-- PORST_N_ASSERT (R452, R515, R518): everything stops; the fuses, the straps' device and the boot NOR stay. -/
def execPorstNAssert (s : State) : Host.Outcome State Fault Refusal :=
  .next (
    let was := s.faultLow
    let s := s.cutNor
    let tal : Tally := { lowUntil := if was then s.tal.lowUntil else some (s.refNs + 1000000) }
    { tal := tal, phase := .held, pending := s.pending, refNs := s.refNs, freeN := s.freeN, out := s.out, board := s.board, mem := norCells s.mem, tap := s.tap })

/-- What waited for a power-on reset takes effect in the board (R480, R521). -/
def Board.afterReset (b : Board) (straps : Straps) : Board :=
  let back := b.lcNext == some 3
  { b with
    devnum := straps.devnum.val, service := if b.mapClear then List.replicate 32 (false, []) else b.service, mapClear := false,
    lifecycle := b.lcNext.getD b.lifecycle, lcNext := none, revoked0 := b.revoked0 || b.revokeNext, revokeNext := false, prov := if back then none else b.prov }

/-- POWER_ON_RESET (R54, R475, R521, R84): PORST_N rises; straps are sampled, the fused map is in force. [DESIGN CHOICE, log entries 71, 101] -/
def execPowerOnReset (straps : Straps) (s : State) : Host.Outcome State Fault Refusal :=
  .next (
    if s.phase ≠ .held then s
    else
      let back := s.board.lcNext == some 3
      let b := s.board.afterReset straps
      let mem := if back then s.mem.filter fun c => !(norAddr 0x20000 ≤ c.1 && c.1 < norAddr 0x100000) else s.mem
      let cores := b.fused.map fun f => { disabled := f.1, bypass := f.2 : Core }
      ({ s with phase := .started, board := b, mem := mem, cores := cores } : State).otpRegs)

/-- PLL_LOCK (R54): the alignment counter starts at 0; its next wrap is the alignment edge. -/
def execPllLock (s : State) : Host.Outcome State Fault Refusal :=
  .next (if s.phase = .started then ({ s with phase := .locked } : State).updPwr fun p => { p with alignT1 := some s.refNs, edgeAt := s.refNs + 960 } else s)

/-- ALIGNMENT_EDGE (R54, R364): at the counter's wrap the dividers are released, the time unit's island with them, and compared. [DESIGN CHOICE, log entry 71] -/
def execAlignmentEdge (s : State) : Host.Outcome State Fault Refusal :=
  .next (
    if s.phase = .locked ∧ s.pwr.edgeAt ≤ s.refNs then
      let s := s.setFld Reg.PWR_ALIGN_STATUS 5 4 (s.fld Reg.PWR_ALIGN_STATUS 5 4 + 1)
      ({ s with phase := .aligned } : State).updTim fun t => { t with on := true }
    else s)

/-- ALIGNMENT_DONE (R54, R55): after 16 comparisons, one at each wrap, the security core is released; an attempt that fails at one of them is repeated from the next wrap, the third raises ALIGN_FAIL. [DESIGN CHOICE, log entry 71] -/
def execAlignmentDone (ok : Bool) (s : State) : Host.Outcome State Fault Refusal :=
  .next (
    if s.phase ≠ .aligned ∨ s.refNs < s.pwr.edgeAt + (if ok then 16 else 1) * 960 then s
    else if ok then { s.setBit Reg.PWR_ALIGN_STATUS 0 true with phase := .live }
    else
      let s := s.updTim fun t => { t with on := false, now := 0, prev := 0, stepped := false }
      let s := s.updPwr fun p => { p with edgeAt := s.nextWrap }
      if s.fld Reg.PWR_ALIGN_STATUS 5 4 < 3 then { s with phase := .locked }
      else { (s.setBit Reg.PWR_ALIGN_STATUS 8 true).report 0x102 Kind.ALIGN_FAIL 0 0 with phase := .failed })

/-! ### Boot (R475, R476) -/

/-- Show the images of a set in the FW_ registers. -/
def State.showSet (s : State) (set : Nat) : State := (s.imageSet set).zipIdx.foldl (fun s p => s.showImage p.2 p.1) s

/-- BOOT_IMAGE_CHECK (R475, R476): all seven images of the active set, else of the other set. -/
def execBootImageCheck (s : State) : Host.Outcome State Fault Refusal :=
  .next (
    if s.phase ≠ .live ∨ s.pwr.boot ≠ .start then s
    else
      let set := s.activeSet
      let fails := s.setFails set
      let boot := fun (s : State) (n : Nat) => ((s.showSet n).setFld Reg.FW_STATUS 24 24 n).updPwr fun p => { p with boot := .checked }
      if fails.all (· == 0) then boot s set
      else
        let s := s.reportSet set fails
        let other := 1 - set
        let fails := s.setFails other
        if fails.all (· == 0) then boot (s.setBit Reg.FW_STATUS 23 true) other
        else (s.reportSet other fails).updPwr fun p => { p with boot := .failed })

/-- The security image's part of boot (R475, t4): epoch, configuration, key blobs, the in-service map. [DESIGN CHOICE, log entry 71] -/
def State.bootSecurity (s : State) : State :=
  let s := s.updBoard fun b => { b with norEpoch := (b.norEpoch + 1) % 2 ^ 32 }
  let s := s.wr Reg.CMD_EPOCH (BitVec.ofNat 32 s.board.norEpoch)
  let cfg := s.peek (norAddr 0x10000) configBytes
  let s := if s.configOk cfg then s.useConfig cfg else s.noConfig
  let s := (s.setBit (Reg.ETH_PORT_CTRL 2) 31 true).loadNorKeys
  let map := fun (g : Nat) (c : Core) =>
    let f := s.board.fused.getD g (false, [])
    let e := s.board.service.getD g (false, [])
    { c with disabled := f.1 || e.1, bypass := e.2.foldl (fun l k => insertCol k l) f.2 }
  { s with cores := s.cores.mapIdx map }

/-- A cluster's regulator reaches its setpoint; the voltage as measured is not stated. [DESIGN CHOICE, log entry 43] -/
def State.bootRail (s : State) (c : Nat) : State :=
  let mv := (Config.free 12 s.freeN).toNat
  ({ s with freeN := s.freeN + 1 } : State).wr (Reg.PWR_REG_C c) (BitVec.ofNat 32 (2 ^ 31 + mv))

/-- BOOT_COMPLETE (R475): every processor runs, the journal is in use once the HyperRAM is ready, BOOTED is set; a WRST_N held low then begins a warm reset (R554). [DESIGN CHOICE, log entry 73] -/
def execBootComplete (s : State) : Host.Outcome State Fault Refusal :=
  .next (
    if s.phase ≠ .live ∨ s.pwr.boot ≠ .checked then s
    else
      let s := s.bootSecurity
      let s := (List.range 4).foldl (fun s c => s.bootRail c) s
      let s := (s.setFld Reg.FW_STATUS 6 0 0x7F).setBit Reg.FW_STATUS 31 true
      let s := s.setBit Reg.CMD_STATUS 31 (s.bit Reg.MEM_HR_STATUS 0 && !s.bit Reg.MEM_HR_STATUS 31 && !s.cmd.journalLost)
      let s := (List.range 32).foldl (fun s g => (s.restartInterval g).updCore g fun c => { c with scrubSince := s.refNs }) s
      let s := (s.updDig fun d => { d with start := s.refNs }).updPwr fun p => { p with boot := .done }
      if s.pwr.warmPin then s.startWarm 1 else s)

end Sys2Proof.Machine
end

