-- ==== Sys2Proof/Machine/Tally.lean ====
section
/-!
DEFINITION. The Tally (R439 to R457): arrival of fault messages, pending bits and reactions, coalescing windows, the first
record and the histories, FAULT_N and ALIVE, fault and status frames, and what leaves for the partners (R534).
-/
namespace Sys2Proof.Machine

/-- Change the Tally's state. -/
def State.updTal (s : State) (f : Tally → Tally) : State := { s with tal := f s.tal }

/-! ### Pending bits, FAULT_N and ALIVE -/

/-- Pending bits of a class. -/
def State.pendingOf (s : State) (cls : Nat) : List Nat := (kindTable.filter fun r => r.2.1 == cls && s.isPending r.1).map (·.1)

/-- FAULT_N after a change (R452, R534): its minimum low time begins at a fall, and a new level goes to the partner of every link that is up. [DEDUCED, log entry 85] -/
def State.noteFall (s : State) (was : Bool) : State :=
  let now := s.faultLow
  if now = was then s
  else
    let s := if now then s.updTal fun t => { t with lowUntil := some (s.refNs + 1000000) } else s
    s.forwardFault (.level now)

/-- ALIVE changes level while READY is 1 and no ISLAND_CHECK or REF_CLOCK_LOST is pending (R453). -/
def State.aliveOk (s : State) : Bool := s.talReady && !s.isPending Kind.ISLAND_CHECK && !s.isPending Kind.REF_CLOCK_LOST

/-- TAL_STATUS as it reads (R467). -/
def State.readTalStatus (s : State) : Word :=
  BitVec.ofNat 32 (b2n s.talReady * 2 ^ 31 + b2n s.faultLow * 2 ^ 30 + b2n s.aliveOk * 2 ^ 29
    + min (s.pendingOf 0).length 255 * 2 ^ 8 + min (s.pendingOf 1).length 255)

/-- ALIVE_TOGGLE (R453). -/
def execAliveToggle (s : State) : Host.Outcome State Fault Refusal :=
  .next (if s.aliveOk ∧ s.phase ≠ .held ∧ s.tal.aliveAt + 1000000 ≤ s.refNs then s.updTal fun t => { t with alive := !t.alive, aliveAt := s.refNs } else s)

/-- FAULT_N_MIN_LOW_END (R452). -/
def execFaultNMinLowEnd (s : State) : Host.Outcome State Fault Refusal :=
  .next (match s.tal.lowUntil with
    | some t => if t ≤ s.refNs then (s.updTal fun x => { x with lowUntil := none }).noteFall s.faultLow else s
    | none => s)

/-- REF_CLOCK_LOST (R452): FAULT_N goes low without delay; the record follows. -/
def execRefClockLost (s : State) : Host.Outcome State Fault Refusal :=
  .next (if s.phase = .held then s else
    (if s.faultLow then s else (s.updTal fun t => { t with lowUntil := some (s.refNs + 1000000) }).forwardFault (.level true)).report 0x170 Kind.REF_CLOCK_LOST 0 0)

/-- ISLAND_CHECK (R452): the duplicated logic disagrees. -/
def execIslandCheck (s : State) : Host.Outcome State Fault Refusal :=
  .next (if s.phase = .held then s else s.report 0x170 Kind.ISLAND_CHECK 0 0)

/-- TALLY_READY (R452, R453): the island runs; the HyperRAM is ready, or HRAM_NO_RESPONSE is raised. [DESIGN CHOICE, log entries 72, 73] -/
def execTallyReady (hram : Bool) (s : State) : Host.Outcome State Fault Refusal :=
  .next (
    if s.phase = .held ∨ s.talReady then s
    else
      let s := (s.setBit Reg.TAL_STATUS 31 true).updTal fun t => { t with aliveAt := s.refNs, lastFrame := s.refNs }
      if hram then
        let s := s.setBit Reg.MEM_HR_STATUS 0 true
        if s.pwr.boot = .done ∧ !s.cmd.journalLost then s.setBit Reg.CMD_STATUS 31 true else s
      else ((s.setBit Reg.MEM_HR_STATUS 31 true).report 0x172 Kind.HRAM_NO_RESPONSE 0 0x4000000000).journalDown 0x4000000000)

/-! ### Records (R449 to R451, R455) -/

/-- A record's bits (R439). -/
def Msg.record (m : Msg) (time : Nat) : BitVec 128 :=
  BitVec.ofNat 128 (time % 2 ^ 48 * 2 ^ 80 + m.source % 2 ^ 12 * 2 ^ 68 + m.kind % 2 ^ 8 * 2 ^ 60 + m.stall % 16 * 2 ^ 56 + m.cls % 4 * 2 ^ 54 + m.count % 2 ^ 14 * 2 ^ 40 + m.addr % 2 ^ 40)

/-- TAL_FIRST takes the first class A or B record since it was re-armed (R449). -/
def State.loadFirst (s : State) (cls : Nat) (r : BitVec 128) : State :=
  if cls < 2 && !s.bit Reg.TAL_FIRST_CTRL 31 then (s.wrN Reg.TAL_FIRST 4 r.toNat).setBit Reg.TAL_FIRST_CTRL 31 true else s

/-- The on-die history takes a record (R450). -/
def State.pushDie (s : State) (r : BitVec 128) : State :=
  let n := (s.rd Reg.TAL_HIST_WR).toNat
  let s := (s.wrN (Reg.TAL_HIST (n % 64)) 4 r.toNat).inc Reg.TAL_HIST_WR 1
  if 64 < (s.rd Reg.TAL_HIST_WR - s.rd Reg.TAL_HIST_RD).toNat then s.sat Reg.TAL_HIST_OVERFLOW 31 0 1 else s

/-- Write whole words of device memory with fresh check bits. -/
def State.putWords (s : State) (a : Nat) (b : List Byte) : State :=
  (s.poke a b).freshWords a b.length

/-- The fault history in HyperRAM takes a record, then its count (R451). -/
def State.pushHram (s : State) (r : BitVec 128) : State :=
  if s.tal.histStopped || s.bit Reg.MEM_HR_STATUS 31 then s
  else
    let n := s.tal.histTotal
    ((s.putWords (0x4000401000 + 16 * (n % 98048)) (leBytes 16 r.toNat)).putWords 0x4000400000 (leBytes 8 (n + 1))).updTal fun t => { t with histTotal := n + 1 }

/-- The fault-history area of the HyperRAM (R451). -/
def inHistory (a : Nat) : Bool := 0x4000400000 ≤ a && a < 0x4000580000

/-- A record leaves its window (R449 to R451, R455, R534). -/
def State.enterRecord (s : State) (m : Msg) (time : Nat) : State :=
  let r := m.record time
  let s := ((s.loadFirst m.cls r).pushDie r).pushHram r
  let s := if s.bit (Reg.TAL_REACT m.kind) 8 && s.bit Reg.TAL_FRAME_CTRL 31 then s.updTal fun t => { t with batch := t.batch ++ [(r, s.refNs)] } else s
  if m.cls < 2 then s.forwardFault (.record r) else s

/-! ### Arrival (R440, R444 to R448) -/

/-- A message sets its kind's pending bit and joins its stalls to the bit's set (R444, R445). -/
def State.setPending (s : State) (m : Msg) : State :=
  if 2 ≤ m.cls then s
  else
    let new := if m.stall = 0 then List.range 16 else [m.stall]
    let s := s.setBit (Reg.TAL_PENDING (m.kind / 32)) (m.kind % 32) true
    let l := (s.tal.silence.find? (·.1 == m.kind)).elim [] (·.2)
    s.updTal fun t => { t with silence := t.silence.filter (·.1 != m.kind) ++ [(m.kind, (l ++ new).eraseDups)] }

/-- A message matches an open window (R446). -/
def Win.matches (w : Win) (m : Msg) : Bool :=
  w.msg.addr == m.addr && (w.msg.kind == m.kind || w.msg.source == 0x180 || m.source == 0x180)

/-- A message merges into a window (R446, R447). -/
def Win.merge (w : Win) (m : Msg) : Win :=
  let r := w.msg
  let root := if r.source == 0x180 && m.source != 0x180 then { r with source := m.source, kind := m.kind } else r
  { w with msg := { root with count := satAdd 14 r.count m.count, cls := min r.cls m.cls }, kinds := m.kind :: w.kinds }

/-- The message joins the oldest window that it matches, opens one, or is entered at once (R446, R448): also whether it is the first of its kind there. -/
def State.coalesce (s : State) (m : Msg) : Bool × State :=
  match s.tal.windows.findIdx? (·.matches m) with
  | some i =>
    let first := !((s.tal.windows[i]?).any fun w => w.kinds.contains m.kind)
    (first, s.updTal fun t => { t with windows := updAt (·.merge m) i t.windows })
  | none =>
    if s.tal.windows.length < 16 then
      (true, s.updTal fun t => { t with windows := t.windows ++ [{ msg := m, time := s.ns, due := s.refNs + 10000, kinds := [m.kind] }] })
    else (true, (s.sat Reg.TAL_COALESCE_FULL 31 0 1).enterRecord m s.ns)

/-- The reaction of a kind is applied (R444). -/
def State.react (s : State) (m : Msg) : State :=
  match s.fld (Reg.TAL_REACT m.kind) 1 0 with
  | 1 => s.silenceFrames
  | 2 => s.stallReset m.stall 1
  | 3 => s.startWarm 3
  | _ => s

/-- FAULT_MESSAGE_ARRIVE (R440, R444 to R448, R452): the Tally takes the source's oldest message. [DESIGN CHOICE, log entry 92] -/
def execFaultMessageArrive (source : BitVec 12) (s : State) : Host.Outcome State Fault Refusal :=
  .next (match s.tal.waiting.find? fun m => m.source == source.toNat with
    | none => s
    | some m =>
      let was := s.faultLow
      let s := s.updTal fun t => { t with waiting := t.waiting.erase m }
      let s := (s.setPending m).noteFall was
      let s := if m.kind = Kind.HRAM_NO_RESPONSE ∨ (m.kind = Kind.HRAM_UE ∧ inHistory m.addr) then s.updTal fun t => { t with histStopped := true } else s
      let s := if m.kind = Kind.HRAM_UE ∧ inJournal m.addr then s.journalDown m.addr else s
      let r := s.coalesce m
      if r.1 ∨ s.fld (Reg.TAL_REACT m.kind) 1 0 = 1 then r.2.react m else r.2)

/-- COALESCE_WINDOW_CLOSE (R446): 10 µs after its first message. -/
def execCoalesceWindowClose (s : State) : Host.Outcome State Fault Refusal :=
  .next (match s.tal.windows with
    | [] => s
    | w :: t => if w.due ≤ s.refNs then (s.updTal fun x => { x with windows := t }).enterRecord w.msg w.time else s)

/-! ### Fault frames (R455 to R457) -/

/-- The body of a fault frame (R456). -/
def State.faultBody (s : State) (l : List (BitVec 128)) : List Byte :=
  let flags := b2n s.faultLow + b2n s.aliveOk * 2 + b2n s.synced * 4 + b2n (s.tal.ovfAtFrame < (s.rd Reg.TAL_HIST_OVERFLOW).toNat) * 8
  beBytes 1 l.length ++ beBytes 1 s.board.devnum ++ beBytes 2 flags ++ beBytes 4 (s.rd Reg.SEC_DEVICE_ID).toNat ++ beBytes 8 s.timeWord
    ++ beBytes 2 (s.pendingOf 0).length ++ beBytes 2 (s.pendingOf 1).length ++ beBytes 4 (s.rd Reg.TAL_HIST_WR).toNat
    ++ beBytes 4 (s.rd Reg.TAL_FRAMES_LOST).toNat ++ beBytes 4 0 ++ l.flatMap fun r => beBytes 16 r.toNat

/-- IPV6 of the fault frames. -/
def State.faultV6 (s : State) : Bool := s.bit Reg.TAL_FRAME_CTRL 30

/-- Where fault frames go (R457): none where the destination is not allowed. -/
def State.faultDest (s : State) : Option HostAddr :=
  let a := s.rdN Reg.TAL_DEST_IP 4
  if s.faultV6 then (if a = 0 then none else some ⟨true, BitVec.ofNat 128 a⟩)
  else some ⟨false, BitVec.ofNat 128 (if a % 2 ^ 32 = 0 then 0xFFFFFFFF else a % 2 ^ 32)⟩

/-- A copy of a fault frame falls due (R455): it goes to queue 1 of the management port where the link is up; the last copy settles whether the frame is lost. -/
def State.sendCopy (s : State) (f : FaultFrame) : State :=
  let up := s.portUp 2
  let sent : Bool := match s.faultDest with | some _ => up | none => false
  let s := match s.faultDest with
    | some d => if up then s.updEth 2 fun e => { e with ctrl := e.ctrl ++ [.fault (s.rd64 Reg.TAL_DEST_MAC % 2 ^ 48) d (s.fld Reg.TAL_DEST_UDP 15 0) f.bytes] } else s
    | none => s
  let f := { f with sent := f.sent || sent, left := f.left - 1, due := f.due + 1000000 }
  if f.left = 0 then (if f.sent then s else s.sat Reg.TAL_FRAMES_LOST 31 0 1)
  else s.updTal fun t => { t with frames := t.frames ++ [f] }

/-- A fault or status frame starts (R455, R456): it takes the next fault sequence number. -/
def State.startFrameOf (s : State) (l : List (BitVec 128)) : State :=
  let n := (s.rd Reg.TAL_FRAME_SEQ).toNat
  let seq := if n = 2 ^ 32 - 1 then 1 else n + 1
  let s := s.wr Reg.TAL_FRAME_SEQ (BitVec.ofNat 32 seq)
  let f : FaultFrame := { seq := seq, bytes := barFrame 1 0x0B 0 seq 0 s.epoch (s.faultBody l), left := s.fld Reg.TAL_FRAME_CTRL 25 24 + 1, due := s.refNs, sent := false }
  let s := s.updTal fun t => { t with lastFrame := s.refNs, ovfAtFrame := (s.rd Reg.TAL_HIST_OVERFLOW).toNat }
  s.sendCopy f

/-- Fault frames may start: the island is ready and ENABLE is 1. [DESIGN CHOICE, log entry 72] -/
def State.framesOn (s : State) : Bool := s.talReady && s.phase != .held && s.bit Reg.TAL_FRAME_CTRL 31

/-- FAULT_FRAME_SEND (R455): 8 records wait, or 50 µs have passed since the oldest entered the batch. [DESIGN CHOICE, log entry 100] -/
def execFaultFrameSend (s : State) : Host.Outcome State Fault Refusal :=
  .next (match s.tal.batch with
    | [] => s
    | (_, t) :: _ =>
      let b := s.tal.batch
      if s.framesOn && (8 ≤ b.length || decide (t + 50000 ≤ s.refNs)) then
        (s.updTal fun x => { x with batch := b.drop 8 }).startFrameOf ((b.take 8).map (·.1))
      else s)

/-- STATUS_FRAME_SEND (R455): no fault frame for STATUS_MS. [DESIGN CHOICE, log entry 100] -/
def execStatusFrameSend (s : State) : Host.Outcome State Fault Refusal :=
  .next (
    let ms := s.fld Reg.TAL_FRAME_CTRL 15 0
    if s.framesOn && ms != 0 && decide (s.tal.lastFrame + ms * 1000000 ≤ s.refNs) then s.startFrameOf [] else s)

/-- FAULT_FRAME_REPEAT (R455): the first repeat copy that is due. [DESIGN CHOICE, log entry 100] -/
def execFaultFrameRepeat (s : State) : Host.Outcome State Fault Refusal :=
  .next (match s.tal.frames.find? fun f => f.due ≤ s.refNs with
    | some f => (s.updTal fun t => { t with frames := t.frames.erase f }).sendCopy f
    | none => s)

/-! ### Register writes -/

/-- What a write of TAL_PENDINGw leaves (R445): POR bits stay, and a cleared bit's set of stalls empties. -/
def State.afterPending (w : Nat) (old s : State) : State :=
  let r := Reg.TAL_PENDING w
  let s := kindTable.foldl (fun (s : State) k => if k.1 / 32 = w ∧ k.2.2.2 = 2 then s.setBit r (k.1 % 32) (old.bit r (k.1 % 32)) else s) s
  s.updTal fun t => { t with silence := t.silence.filter fun e => s.isPending e.1 }

/-- What a write of TAL_REACTk leaves (R443): reserved kinds keep 0, class A has no MASK, class C no SILENCE; a kind that comes to hold SILENCE silences at once. -/
def State.afterReact (k : Nat) (old s : State) : State :=
  let r := Reg.TAL_REACT k
  match kindInfo k with
  | none => s.wr r 0#32
  | some (cls, _, _) =>
    let s := if cls = 0 then s.setBit r 4 false else s
    let s := if cls = 2 ∧ s.fld r 1 0 = 1 then s.setFld r 1 0 (old.fld r 1 0) else s
    s.silenceFrames

/-- What a write of TAL_FRAME_CTRL leaves (R455, R467): REPEAT 3 keeps the field; ENABLE = 0 empties the batch, ENABLE = 1 begins the status interval. -/
def State.afterFrameCtrl (old s : State) : State :=
  let r := Reg.TAL_FRAME_CTRL
  let s := if s.fld r 25 24 = 3 then s.setFld r 25 24 (old.fld r 25 24) else s
  if s.bit r 31 then (if old.bit r 31 then s else s.updTal fun t => { t with lastFrame := s.refNs })
  else s.updTal fun t => { t with batch := [] }

end Sys2Proof.Machine
end

