-- ==== Sys2Proof/Machine/RegAccess.lean ====
section
/-!
DEFINITION. Access to the register space: who may read and write what (R26, R32, R45, R244, R402, R416, R418, R498), the
access codes and locks (R9 to R11, R417), the snapshots of wide registers (R8), what each register reads and what a write does.
-/
namespace Sys2Proof.Machine

/-! ### Who may -/

/-- The register blocks that STANDBY switches off (R498). [DESIGN CHOICE, log entry 25] -/
def standbyBlock (b : Nat) : Bool := b == 6 || b == 7 || b == 10 || b == 11 || b == 14 || 32 ≤ b

/-- Where the STALL that a ring's, graph's or stream context's registers belong to is held: its register and the field's lowest bit (R418). -/
def stallField (off : Nat) : Option (Nat × Nat) :=
  if 0x601000 ≤ off ∧ off < 0x602000 then some (Reg.CMD_RING_CTRL ((off - 0x601000) / 0x40), 8)
  else if 0x704000 ≤ off ∧ off < 0x705000 then some (Reg.SCH_GRAPH_CTRL ((off - 0x704000) / 0x40), 20)
  else if 0xA10000 ≤ off ∧ off < 0xA12000 then some (Reg.ING_STR_CTRL ((off - 0xA10000) / 0x40), 24)
  else none

/-- In the CMD_, SCH_ and ING_ blocks a stall other than 0 writes only what belongs to it, and no STALL field (R418). -/
def State.stallMayWrite (s : State) (stall off : Nat) (v : Word) : Bool :=
  if stall == 0 || !(off / 0x100000 == 6 || off / 0x100000 == 7 || off / 0x100000 == 10) then true
  else match stallField off with
    | some (r, lo) => s.fld r (lo + 3) lo == stall && (off != r || bits v.toNat (lo + 3) lo == stall)
    | none => false

/-- The offset is PWR_PACE_CAP of a cluster (R45). -/
def isPaceCap (off : Nat) : Bool := off == Reg.PWR_PACE_CAP_C 0 || off == Reg.PWR_PACE_CAP_C 1 || off == Reg.PWR_PACE_CAP_C 2 || off == Reg.PWR_PACE_CAP_C 3

/-- The offset is a carve-out entry of a core: the core's unit that holds it (R244). [DESIGN CHOICE, log entry 30] -/
def carveUnit (off : Nat) : Option Nat :=
  let o := off % 0x100000
  if 0x2000000 ≤ off ∧ 0x50100 ≤ o ∧ o < 0x50120 then some (unitSrc ((off - 0x2000000) / 0x100000) 7)
  else if 0x2000000 ≤ off ∧ 0x40100 ≤ o ∧ o < 0x40110 then some (unitSrc ((off - 0x2000000) / 0x100000) 6)
  else none

/-- The refusal of a register permission (R416, R418). -/
def denyReg : Option Deny := some ⟨0x180, Kind.REG_REFUSED⟩

/-- The session that makes the access is the owner's (R402, R403). -/
def State.ownerSession (s : State) (session : Nat) : Bool := s.bar.owner.isSome && s.bar.owner == some session

/-- Judge a register access; a write carries its value (R26, R32, R34, R45, R244, R328, R402, R403, R416, R418, R498). A disabled core's status registers answer every access, a write there without effect (R9, R32). [DESIGN CHOICE, log entries 25, 30] -/
def State.regDeny (s : State) (t : Tag) (session off : Nat) (write : Option Word) : Option Deny :=
  let b := off / 0x100000
  let st := t.stall.val
  if (regAt off).isNone then denyFabric
  else if standbyBlock b && 2 ≤ s.fld Reg.PWR_STATE 25 24 then denyFabric
  else if 32 ≤ b && (s.core (b - 32)).disabled then (if off % 0x100000 < 0x100 then none else denyFabric)
  else match write with
    | none => if s.bit (Reg.SAF_PERM b) st then none else denyReg
    | some v =>
      if !s.bit (Reg.SAF_PERM b) (16 + st) || !s.stallMayWrite st off v then denyReg
      else if isPaceCap off && t.initiator != 0x102 then denyReg
      else if 0xD01010 ≤ off && off < 0xD02000 && !s.ownerSession session then denyReg
      else if 0x704000 ≤ off && off < 0x705000 && !s.ownerSession session then denyReg
      else if off == Reg.BAR_OWNER && v.getLsbD 30 && !s.ownerSession session then denyReg
      else match carveUnit off with
        | some u => if st == 0 then none else some ⟨u, Kind.CARVE_REFUSED⟩
        | none => none

/-! ### What a register reads -/

/-- Jobs whose command list waits on a window that is not bound (R403). -/
def State.waitingLists (s : State) : List Job :=
  s.cmd.jobs.filter fun j => j.phase == .accepted && j.cmds.isEmpty && j.early.isNone && !j.listDev && refWin j.list != 0 && (s.winSession (refWin j.list)).isNone

/-- A ring's completion window is not bound to the owner's session, or the host refused it: its records are held (R403). -/
def State.ringHolds (s : State) (n : Nat) : Bool :=
  (s.ring n).refusedHold || (match s.winSession (refWin (s.rd64 (Reg.CMD_RING_COMP n))) with
    | some x => !s.ownerSession x
    | none => true)

/-- BAR_HELD as it reads (R413). [DESIGN CHOICE, log entry 31] -/
def State.readHeld (s : State) : Word :=
  let held := s.cmd.jobs.filter fun j => j.phase == .completed && (match j.ring? with | some n => s.ringHolds n | none => false)
  BitVec.ofNat 32 (min s.waitingLists.length 65535 * 2 ^ 16 + min held.length 1024)

/-- SCH_RING_JOBSn as it reads (R326). -/
def State.readRingJobs (s : State) (n : Nat) : Word :=
  let mine := s.cmd.jobs.filter fun j => j.ring? == some n && !j.ended
  BitVec.ofNat 32 ((mine.filter fun j => j.phase == .placed).length % 2 ^ 16 * 2 ^ 16 + (mine.filter fun j => j.phase == .accepted).length % 2 ^ 16)

/-- Word i of a list of bytes, its first byte lowest. -/
def wordOf (l : List Byte) (i : Nat) : Word := BitVec.ofNat 32 (le l (4 * i) 4)

/-- MEM_PORT_STATUS of porter k of core g as it reads (R264): a command runs on it, or a pass that both stage; it holds a pre-empted DECRYPT's state. [DESIGN CHOICE, log entries 31, 109] -/
def State.readPorter (s : State) (g k : Nat) : Word :=
  let busy := (s.seated g 3).contains (k == 1) || s.engineBusy g
  BitVec.ofNat 32 (b2n busy * 2 ^ 31 + b2n ((s.keptPorters g).contains (k == 1)) * 2 ^ 30)

/-- MEM_PORT_BYTES of porter k of core g as it reads (R264): what it has written for commands, and its share of what both have staged. [DESIGN CHOICE, log entry 33] -/
def State.readPortBytes (s : State) (g k : Nat) : Nat :=
  let n := (s.core g).stagedBytes
  let x := (Config.stagedShare g n).val
  s.rd64 (Reg.MEM_PORT_BYTES g k) + (if k = 0 then x else n - x)

/-- A counter of waiting bit-steps as it reads (R233): 0 until the device is up. [DESIGN CHOICE, log entry 15] -/
def State.readWaited (s : State) (off : Nat) : Nat := if s.phase = .live then (Config.waited off s.refNs).toNat else 0

/-- A word of a 64-bit value: the low one, or the high one. -/
def wordAt (v : Nat) (high : Bool) : Word := BitVec.ofNat 32 (if high then v / 2 ^ 32 else v)

/-- TD_STATUS of tidy unit m of core g as it reads (R186): SUSPECT as stored; the chain or CONV_TILE work that holds the unit. Rows run whole, so SWEEP and STAGE read 0. [DESIGN CHOICE, log entry 107] -/
def State.readTdStatus (s : State) (g m : Nat) : Word :=
  let v := s.rd (Reg.TD_STATUS g m)
  let runs := (s.jobsOn g).findSome? fun j => j.cmds.find? fun c =>
    c.holds && (2 ≤ opcodeOf c.desc && opcodeOf c.desc ≤ 4) && (s.seats g 2 c).contains (m == 1)
  match runs with
  | none => v
  | some c =>
    let t := tidyD c.desc
    let row := if opcodeOf c.desc ≠ 4 then 0 else c.progress + (if t.both && m == 1 then turnsOf t.rows true else 0)
    BitVec.ofNat 32 (b2n (bitOf v.toNat 30) * 2 ^ 30 + 2 ^ 29 + (if opcodeOf c.desc = 4 then t.ct else 0) * 2 ^ 20 + row % 65536)

/-- The present value of a register word, as software reads it: most are stored, the others follow from the state. [DESIGN CHOICE, log entry 31] -/
def State.regNow (s : State) (off : Nat) : Word :=
  if 0x2000000 ≤ off then
    let g := (off - 0x2000000) / 0x100000
    let o := off % 0x100000
    if o = 0 then s.readTwStatus g
    else if 0x10 ≤ o ∧ o < 0x50 then s.readColmap g ((o - 0x10) / 4)
    else if o = 0x20000 ∨ o = 0x30000 then s.readTdStatus g (o / 0x10000 - 2)
    else if o = 0x50018 ∨ o = 0x5001C then wordAt (s.readWaited (Reg.BT_INBOUND_WAIT g)) (o == 0x5001C)
    else if 0x60000 ≤ o ∧ o < 0x80000 then
      let k := o / 0x10000 - 6
      let p := o % 0x10000
      if p = 0 then s.readPorter g k
      else if p = 8 ∨ p = 12 then wordAt (s.readPortBytes g k) (p == 12)
      else if p = 16 ∨ p = 20 then wordAt (s.readWaited (Reg.MEM_PORT_STARVE g k)) (p == 20)
      else s.rd off
    else s.rd off
  else
    let o := off % 0x100000
    match off / 0x100000 with
    | 0 => if 0x2000 ≤ o then wordOf s.idPublic ((o - 0x2000) / 4) else s.rd off
    | 2 =>
      if isPaceCap off then s.readPaceCap ((o - 0x108) / 0x10)
      else if 0x300 ≤ o ∧ o < 0x310 then s.readCluster ((o - 0x300) / 4)
      else s.rd off
    | 4 => if o = 4 then s.readTalStatus else s.rd off
    | 5 => if o < 12 then BitVec.ofNat 32 (s.tim.now / 2 ^ (8 * o)) else s.rd off
    | 6 => if o = 0 then BitVec.ofNat 32 (putBits (s.rd off).toNat 14 0 s.outstanding) else s.rd off
    | 7 =>
      if off = Reg.SCH_STALL_CTRL 0 then 0x800003E8#32
      else if off = Reg.SCH_STALL_CORES 0 then 0xFFFFFFFF#32
      else if 0x2000 ≤ o ∧ o < 0x2100 then s.readRingJobs ((o - 0x2000) / 4)
      else s.rd off
    | 8 => if o = 4 then BitVec.ofNat 32 s.ctxActive else s.rd off
    | 11 => if o = 4 then s.readIspLoad else if o = 8 then s.readIspQueue else s.rd off
    | 12 =>
      let p := o / 0x1000
      let k := o % 0x1000
      if 0x40 ≤ k ∧ k < 0x60 then BitVec.ofNat 32 (putBits (s.rd off).toNat 22 16 ((s.ethPort p).queues.getD ((k - 0x40) / 4) []).length)
      else if k = 0x200 then s.readMgmtStatus p
      else if 0x400 ≤ k ∧ k < 0x600 then s.readMgmtData p ((k - 0x400) / 4)
      else s.rd off
    | 13 =>
      if o = 0x14 then s.readBarOwner
      else if o = 0x1C then s.readHeld
      else if 0x3000 ≤ o then
        let k := (o - 0x3000) / 0x20
        if o % 0x20 = 0 then s.readBarSess k else if o % 0x20 = 4 then s.readBarInfo k else s.readBarStats k
      else s.rd off
    | 14 => if o = 0 then BitVec.ofNat 32 s.board.devnum else s.rd off
    | _ => s.rd off

/-- Keep the snapshot of a wide register's high words (R8). -/
def State.latchWords (s : State) (base : Nat) (l : List Word) : State :=
  { s with latch := (base, l) :: s.latch.filter (fun e => e.1 != base) }

/-- Read a register word (R8, R9, R374, R534): the low word of a wide register latches its high words, and word 0 of a FIFO's record removes the oldest record. -/
def State.regRead (s : State) (off : Nat) : Word × State :=
  match regAt off with
  | none => (0#32, s)
  | some (r, b, w) =>
    if r.words = 1 then (s.regNow off, s)
    else if w = 0 then
      if 0x500110 ≤ b ∧ b < 0x500180 then s.popRecord false ((b - 0x500110) / 0x20)
      else if 0x500610 ≤ b ∧ b < 0x500660 then s.popRecord true ((b - 0x500610) / 0x20)
      else if 0xE00120 ≤ b ∧ b < 0xE001B0 then s.popPeer ((b - 0xE00120) / 0x40)
      else (s.regNow off, s.latchWords b ((List.range (r.words - 1)).map fun i => s.regNow (b + 4 * (i + 1))))
    else match s.latch.find? (·.1 == b) with
      | some (_, l) => (l.getD (w - 1) 0#32, s)
      | none => (s.regNow off, s)

/-! ### Locks (R9, R11, R417) -/

/-- The lock bit that governs a register's RWL fields: its register and bit. [DEDUCED, log entry 27] -/
def lockBit (off : Nat) : Option (Nat × Nat) :=
  if 0x2000000 ≤ off then (if off % 0x100000 = 0x100 then some (off, 31) else none)
  else if off = Reg.SEC_KEY_CTRL then some (off, 9)
  else if 0x100400 ≤ off ∧ off < 0x100470 then some (Reg.FW_CTRL, 31)
  else if off = Reg.PWR_CAP ∨ off = Reg.PWR_THERM ∨ off = Reg.MEM_DDR_CFG then some (off, 31)
  else if 0x300100 ≤ off ∧ off < 0x300200 ∨ off = Reg.SAF_DIG_CTRL then some (Reg.SAF_PERM_CTRL, 31)
  else if 0x301000 ≤ off ∧ off < 0x301400 then some (Reg.SAF_FWR_CTRL ((off - 0x301000) / 0x10), 31)
  else if 0x400000 ≤ off ∧ off < 0x500000 then some (Reg.TAL_CTRL, 31)
  else if 0x800100 ≤ off ∧ off < 0x800140 then some (Reg.CX_CTRL, 31)
  else if 0xD00100 ≤ off ∧ off < 0xD00200 then some (Reg.BAR_HOST ((off - 0xD00100) / 0x20), 27)
  else none

/-- The lock bits that a register itself holds: once set, a write leaves them set. -/
def stickyBits (off : Nat) : Word :=
  if off = Reg.SAF_PERM_CTRL ∨ off = Reg.CX_CTRL ∨ off = Reg.FW_CTRL then 0x80000000#32
  else match lockBit off with
    | some (r, b) => if r = off then BitVec.ofNat 32 (2 ^ b) else 0#32
    | none => 0#32

/-- Bits of RW and RWL fields that ignore writes: SAF_PERM's (R416), TAL_REACT's (R443), the low bits of references and sizes (R301, R413), the high bits of the spill base (R327) and of a trigger's start (R384). -/
def fixedBits (off : Nat) : Word :=
  if 0x300100 ≤ off ∧ off < 0x300200 then (if off = Reg.SAF_PERM 0 ∨ off = Reg.SAF_PERM 3 then 0xFFFF0001#32 else 0x00010001#32)
  else if 0x400100 ≤ off ∧ off < 0x4003C0 then
    match kindInfo ((off - 0x400100) / 4) with
    | none => 0xFFFFFFFF#32
    | some (cls, _, _) => if cls = 0 then 0x10#32 else 0#32
  else if 0x601000 ≤ off ∧ off < 0x602000 then (if off % 0x40 = 8 then 0x3F#32 else if off % 0x40 = 0x10 then 0x1F#32 else 0#32)
  else if 0x701000 ≤ off ∧ off < 0x701400 ∧ off % 0x40 = 0x14 then 0xFFFFFF00#32
  else if 0xD01010 ≤ off ∧ off < 0xD02000 ∧ off % 0x10 = 8 then 0x3F#32
  else if 0x500200 ≤ off ∧ off < 0x500400 ∧ off % 0x40 = 0xC then 0x80000000#32
  else 0#32

/-- The locked bits of a register word. -/
def State.lockedBits (s : State) (r : RegDesc) (off w : Nat) : Word :=
  match lockBit off with
  | some (l, b) => if s.bit l b then r.mask w [.rwl] &&& ~~~fixedBits off else 0#32
  | none => 0#32

/-- What the access codes make of a write (R9, R10): RW and unlocked RWL fields take the value, W1C bits clear, set lock bits stay. -/
def State.codedValue (s : State) (r : RegDesc) (off w : Nat) (v : Word) : Word :=
  let old := s.rd off
  let set := r.mask w [.rw, .rwl] &&& ~~~fixedBits off &&& ~~~s.lockedBits r off w
  ((old &&& ~~~set) ||| (v &&& set) ||| (old &&& stickyBits off)) &&& ~~~(v &&& r.mask w [.w1c])

/-- Count a write that would have changed a locked field, with the offset of its register's first word (R417). [DEDUCED, log entry 27] -/
def State.lockViolation (s : State) (stall off : Nat) : State :=
  (s.sat Reg.SAF_LOCK_VIOL 31 0 1).wr Reg.SAF_LOCK_LAST (BitVec.ofNat 32 (stall * 2 ^ 28 + off))

/-! ### What a write does -/

/-- A field that a write leaves unchanged where its new value is out of range. [DESIGN CHOICE, log entry 28] -/
def State.keepUnless (s old : State) (off hi lo low high : Nat) : State :=
  let x := s.fld off hi lo
  if low ≤ x ∧ x ≤ high then s else s.setFld off hi lo (old.fld off hi lo)

/-- What a write of PWR_THERM leaves (R511). [DESIGN CHOICE, log entry 28] -/
def State.afterTherm (old s : State) : State :=
  let r := Reg.PWR_THERM
  let s := (s.keepUnless old r 23 16 110 135).keepUnless old r 7 0 85 125
  if s.fld r 23 16 < s.fld r 7 0 + 5 then (s.setFld r 23 16 (old.fld r 23 16)).setFld r 7 0 (old.fld r 7 0) else s

/-- The rings whose completion window is w publish again (R403). [DESIGN CHOICE, log entry 29] -/
def State.releaseHolds (s : State) (w : Nat) : State :=
  (List.range 64).foldl (fun s n => if refWin (s.rd64 (Reg.CMD_RING_COMP n)) = w then s.updRing n fun r => { r with refusedHold := false } else s) s

/-- What a write of BAR_WINw does (R402, R403): rights stand while the window is bound; BIND binds an unbound window to the owner's session; UNBIND unbinds a bound one. [DESIGN CHOICE, log entry 29] -/
def State.afterWindow (w : Nat) (v : Word) (old s : State) : State :=
  let r := Reg.BAR_WIN w
  if old.bit r 31 then
    let s := s.wr r (old.rd r)
    let s := if v.getLsbD 30 then s.releaseHolds w else s
    if v.getLsbD 29 then s.unbind w else s
  else if v.getLsbD 30 then
    match s.bar.owner with
    | some n => (((s.setBit r 31 true).setFld r 15 0 n).releaseHolds w)
    | none => s
  else s

/-- What a write of DISCARD does (R403): every job that waits on an unbound window ends with FIREWALL. [DESIGN CHOICE, log entries 29, 103] -/
def State.discardJobs (s : State) : State := s.waitingLists.foldl (fun s j => (s.reportRefusal j.stall (hostAddrField j.list)).listFailed j.id St.FIREWALL) s

/-- Writes of the SEC_ block (R492). -/
def State.afterSec (o : Nat) (v : Word) (s : State) : State :=
  if o = 0x10 then s.afterLcCtrl v
  else if o = 0x60 then s.afterRollback v
  else if o = 0x100 then s.afterNorCtrl v
  else if o = 0x200 then s.afterKeyCtrl v
  else if o = 0x400 then s.afterAttest v
  else s

/-- Writes of the FW_ block (R493). -/
def State.afterFw (o : Nat) (v : Word) (old s : State) : State :=
  if o = 4 then s.afterActivate v
  else if 0x400 ≤ o ∧ o < 0x470 ∧ o % 0x10 = 0 then State.afterFwProc ((o - 0x400) / 0x10) v old s
  else s

/-- Writes of the PWR_ block (R42 to R45, R494 to R515). -/
def State.afterPwr (o : Nat) (v : Word) (old s : State) : State :=
  if o = 0 then s.afterPwrState v
  else if o = 4 then s.keepUnless old Reg.PWR_CAP 6 0 30 115
  else if o = 0x10 then s.afterPwrReset v
  else if 0x100 ≤ o ∧ o < 0x140 then
    let c := (o - 0x100) / 0x10
    if o % 0x10 = 4 then State.afterPaceMin c v s else if o % 0x10 = 8 then (s.keepUnless old (Reg.PWR_PACE_CAP_C c) 11 0 95 1500).underEscCap c else s
  else if 0x300 ≤ o ∧ o < 0x310 then State.afterCluster ((o - 0x300) / 4) s
  else if o = 0x500 then State.afterTherm old s
  else if o = 0x504 then State.afterTempClear 4 v s
  else if 0x510 ≤ o ∧ o < 0x520 then State.afterTempClear ((o - 0x510) / 4) v s
  else s

/-- Writes of the SAF_ block (R250, R430, R436). -/
def State.afterSaf (o : Nat) (v : Word) (old s : State) : State :=
  if 0x1000 ≤ o ∧ o < 0x1400 then State.afterRegion ((o - 0x1000) / 0x10) (o % 0x10 / 4) v old s
  else if 0x2000 ≤ o ∧ o < 0x2800 then
    let m := (o - 0x2000) / 0x20
    if o % 0x20 = 0 then State.afterAgeCtrl m old s else State.afterAgeReg m (0x300000 + o) old s
  else if o = 0x3000 then State.afterDigCtrl old s
  else s

/-- Writes of the TAL_ block (R443, R445, R467, R468); a pending bit cleared, or a mask, may move FAULT_N (R452). -/
def State.afterTal (o : Nat) (v : Word) (old s : State) : State :=
  if o = 0x40 then State.afterFrameCtrl old s
  else if 0x80 ≤ o ∧ o < 0x98 then (State.afterPending ((o - 0x80) / 4) old s).noteFall old.faultLow
  else if 0x100 ≤ o ∧ o < 0x3C0 then (State.afterReact ((o - 0x100) / 4) old s).noteFall old.faultLow
  else if o = 0x2000 then State.afterSwCtrl old s
  else if 0x2100 ≤ o ∧ o < 0x2180 ∧ o % 0x20 = 0 then State.afterPackLoad ((o - 0x2100) / 0x20) v s
  else s

/-- Writes of the TIM_ block (R365 to R384). -/
def State.afterTim (o : Nat) (v : Word) (old s : State) : State :=
  if o = 0x14 then State.afterIncrement old s
  else if o = 0x30 then State.afterTimCtrl v s
  else if 0x200 ≤ o ∧ o < 0x400 then
    let n := (o - 0x200) / 0x40
    if o % 0x40 = 0 then State.afterTrigCtrl n v old s
    else if old.bit (Reg.TIM_TRIG_CTRL n) 31 then s.wr (0x500000 + o) (old.rd (0x500000 + o))
    else s
  else if o = 0x400 then State.afterPpsCtrl v old s
  else s

/-- Writes of the CMD_ block (R301). -/
def State.afterCmd (o : Nat) (v : Word) (old s : State) : State :=
  if 0x1000 ≤ o ∧ o < 0x2000 then
    let n := (o - 0x1000) / 0x40
    let k := o % 0x40
    if k = 0 then State.afterRingCtrl n v old s
    else if k < 0x18 then State.afterRingRef n (0x600000 + o) old s
    else if k < 0x20 then State.afterRingSeq n old s
    else s
  else s

/-- Writes of the SCH_ block (R304, R306, R310, R326 to R328). -/
def State.afterSch (o : Nat) (v : Word) (old s : State) : State :=
  if o = 0 then State.afterSlice Reg.SCH_BE_SLICE 9500 old s
  else if o = 4 then State.afterSlice Reg.SCH_TEST_SLICE 28500 old s
  else if 0x1000 ≤ o ∧ o < 0x1400 then
    let n := (o - 0x1000) / 0x40
    if o % 0x40 = 0 then
      let s := State.afterStallCtrl n old s
      if v.getLsbD 29 ∧ n ≠ 0 then s.stallReset n 0 else s
    else State.afterStallReg n (0x700000 + o) old s
  else if 0x4000 ≤ o ∧ o < 0x5000 then
    let n := (o - 0x4000) / 0x40
    if o % 0x40 = 0 then State.afterGraphCtrl n old s else State.afterGraphReg n (0x700000 + o) old s
  else s

/-- Writes of the ING_ block (R331, R362). -/
def State.afterIng (o : Nat) (old s : State) : State :=
  if 0x10000 ≤ o ∧ o < 0x12000 then
    let n := (o - 0x10000) / 0x40
    if o % 0x40 = 0 then State.afterStrCtrl n old s else State.afterStrReg n (0xA00000 + o) old s
  else if 0x40000 ≤ o ∧ o < 0x40C00 ∧ o % 0x100 = 0 then State.afterCsiCtrl ((o - 0x40000) / 0x100) old s
  else s

/-- Writes of the ETH_ block (R394, R412). -/
def State.afterEth (o : Nat) (v : Word) (old s : State) : State :=
  let p := o / 0x1000
  match o % 0x1000 with
  | 0 => State.afterPortCtrl p old s
  | 0x80 => State.afterMacsec p old s
  | 0x200 => State.afterMgmtPop p v s
  | 0x204 => State.afterMgmtTx p old s
  | _ => s

/-- Writes of the BAR_ block (R413). -/
def State.afterBar (o : Nat) (v : Word) (old s : State) : State :=
  if o = 8 then (s.keepUnless old Reg.BAR_RTO 19 16 1 15).keepUnless old Reg.BAR_RTO 15 0 50 60000
  else if o = 0xC then s.keepUnless old Reg.BAR_IDLE 15 0 100 60000
  else if o = 0x10 then s.keepUnless old Reg.BAR_ELECT 9 0 10 1000
  else if o = 0x14 then (if v.getLsbD 30 then s.discardJobs else s)
  else if 0x1010 ≤ o ∧ o < 0x2000 then
    let w := (o - 0x1000) / 0x10
    if o % 0x10 = 0 then State.afterWindow w v old s
    else if old.bit (Reg.BAR_WIN w) 31 then s.wr (0xD00000 + o) (old.rd (0xD00000 + o))
    else s
  else s

/-- Writes of a core's block (R118, R152, R244). -/
def State.afterCore (off : Nat) (v : Word) (old s : State) : State :=
  let g := (off - 0x2000000) / 0x100000
  let o := off % 0x100000
  if o = 0x100 then s.keepUnless old (Reg.TW_LEDGER_MODE g) 15 8 1 255
  else if o = 0x10020 then State.afterLineClear g v s
  else if 0x40100 ≤ o ∧ o < 0x40110 then State.afterCarve g true ((o - 0x40100) / 4) old s
  else if 0x50100 ≤ o ∧ o < 0x50120 then State.afterCarve g false ((o - 0x50100) / 4) old s
  else s

/-- What a write of v to a register does once its fields are set; old is the state before it. -/
def State.afterWrite (off : Nat) (v : Word) (old s : State) : State :=
  let o := off % 0x100000
  if 0x2000000 ≤ off then State.afterCore off v old s
  else match off / 0x100000 with
    | 0 => State.afterSec o v s
    | 1 => State.afterFw o v old s
    | 2 => State.afterPwr o v old s
    | 3 => State.afterSaf o v old s
    | 4 => State.afterTal o v old s
    | 5 => State.afterTim o v old s
    | 6 => State.afterCmd o v old s
    | 7 => State.afterSch o v old s
    | 9 => if o = 0 then State.afterDdrCfg v old s else s
    | 10 => State.afterIng o old s
    | 11 => if o = 0 then State.afterInline old s else s
    | 12 => State.afterEth o v old s
    | 13 => State.afterBar o v old s
    | 14 => if 0x100 ≤ o ∧ o < 0x1C0 ∧ o % 0x40 = 0 then State.afterBilCtrl ((o - 0x100) / 0x40) old s else s
    | _ => s

/-- Set a register's fields by their access codes, and drop the snapshot of a wide register (R8, R9, R417). -/
def State.storeReg (s : State) (stall off : Nat) (v : Word) : State :=
  match regAt off with
  | none => s
  | some (r, b, w) =>
    let s' := (s.wr off (s.codedValue r off w v))
    let s' : State := { s' with latch := s'.latch.filter fun e => e.1 != b }
    if (s.rd off ^^^ v) &&& s.lockedBits r off w = 0#32 then s' else s'.lockViolation stall b

/-- Write a register word that no barrier refuses. -/
def State.regWrite (s : State) (stall off : Nat) (v : Word) : State := State.afterWrite off v s (s.storeReg stall off v)

/-! ### Accesses -/

/-- The device address of a register offset (R30). -/
def regAddr (off : Nat) : Nat := 0x3000000000 + off

/-- A read of a register word by a tag: the word, or none where it receives ERROR, which is reported (R26). -/
def State.accessRead (s : State) (t : Tag) (session off : Nat) : Option Word × State :=
  match (if off % 4 = 0 then s.regDeny t session off none else denyFabric) with
  | some d => (none, s.refuse d t.stall.val (regAddr off))
  | none =>
    let r := s.regRead off
    (some r.1, r.2)

/-- A write of a register word by a tag: whether it received OKAY. -/
def State.accessWrite (s : State) (t : Tag) (session off : Nat) (v : Word) : Bool × State :=
  match (if off % 4 = 0 then s.regDeny t session off (some v) else denyFabric) with
  | some d => (false, s.refuse d t.stall.val (regAddr off))
  | none => (true, s.regWrite t.stall.val off v)

/-- A write by a command of the table: while the device lives, with the answer of a refused one recorded. -/
def State.writeRow (s : State) (t : Tag) (session off : Nat) (v : Word) : State :=
  s.whenLive fun s =>
    let r := s.accessWrite t session off v
    if r.1 then r.2 else r.2.emit (.error (regAddr off))

/-- A read by a command of the table. -/
def State.readRow (s : State) (t : Tag) (off : Nat) : State :=
  s.whenLive fun s =>
    let r := s.accessRead t 0 off
    match r.1 with
    | some v => r.2.emit (.read (regAddr off) v)
    | none => r.2.emit (.error (regAddr off))

/-! ### REG_READ and REG_WRITE (R404) -/

/-- The first bad field of a REG_READ or REG_WRITE body: its offset (R398, R404). [DESIGN CHOICE, log entry 25; DEDUCED, log entry 26] -/
def regBodyBad (body : List Byte) (words : Bool) : Option Nat :=
  let addr := be body 0 8
  let n := be body 8 2
  if body.length < 10 then some body.length
  else match badReserved body [0, 1, 2] with
    | some i => some i
    | none =>
      if addr % 4 ≠ 0 ∨ addr < 0x3000000000 ∨ 0x3004000000 ≤ addr then some 0
      else if n < 1 ∨ 256 < n then some 8
      else if 0x3004000000 < addr + 4 * n then some 0
      else match badReserved body [10, 11] with
        | some i => some i
        | none => if words ∧ body.length < 12 + 4 * n then some body.length else none

/-- Read words from an offset on: those read, and the index of the first that received ERROR. -/
def State.readWords (t : Tag) (session : Nat) : Nat → Nat → Nat → State → List Byte → Option Nat × List Byte × State
  | 0, _, _, s, acc => (none, acc, s)
  | n + 1, off, i, s, acc =>
    match s.accessRead t session off with
    | (none, s) => (some i, acc, s)
    | (some v, s) => State.readWords t session n (off + 4) (i + 1) s (acc ++ beBytes 4 v.toNat)

/-- Write words from an offset on: the index of the first that received ERROR. -/
def State.writeWords (t : Tag) (session off : Nat) : List Nat → Nat → State → Option Nat × State
  | [], _, s => (none, s)
  | v :: l, i, s =>
    match s.accessWrite t session (off + 4 * i) (BitVec.ofNat 32 v) with
    | (false, s) => (some i, s)
    | (true, s) => State.writeWords t session off l (i + 1) s

/-- The tag of a session's register accesses (R23, R404). -/
def State.sessionTag (s : State) (x : Session) : Tag := s.tagOf x.stall (0x140 + x.port)

/-- REG_READ (R404). [DEDUCED, log entry 26] -/
def execRegRead (session : BitVec 16) (seq : Word) (body : List Byte) (s : State) : Host.Outcome State Fault Refusal :=
  .next (s.request session.toNat seq.toNat fun x s =>
    match regBodyBad body false with
    | some i => (s, nack 6 i)
    | none =>
      match State.readWords (s.sessionTag x) x.num (be body 8 2) (be body 0 8 - 0x3000000000) 0 s [] with
      | (some i, _, s) => (s, nack 5 i)
      | (none, l, s) => (s, some (4, l)))

/-- REG_WRITE (R404). [DEDUCED, log entry 26] -/
def execRegWrite (session : BitVec 16) (seq : Word) (body : List Byte) (s : State) : Host.Outcome State Fault Refusal :=
  .next (s.request session.toNat seq.toNat fun x s =>
    if !s.ownerSession x.num then (s, nack 2 s.ownerGen)
    else match regBodyBad body true with
    | some i => (s, nack 6 i)
    | none =>
      let l := (List.range (be body 8 2)).map fun i => be body (12 + 4 * i) 4
      match State.writeWords (s.sessionTag x) x.num (be body 0 8 - 0x3000000000) l 0 s with
      | (some i, s) => (s, nack 5 i)
      | (none, s) => (s, some (4, [])))

end Sys2Proof.Machine
end

