-- ==== Sys2Proof/Machine/MoveRun.lean ====
section
/-!
DEFINITION. MOVE (R253 to R258, R532): copies, strides, transposes and decryption, within the device and into the window of
another device. Bytes are read and written in the order of the destination's rows.
-/
namespace Sys2Proof.Machine

/-- The four bytes of a register word. -/
def wordBytes (v : Word) : List Byte := leBytes 4 v.toNat

/-- Read bytes as a porter: device memory, or one aligned register word (R8). [DESIGN CHOICE, log entry 32] -/
def portRead (t : Tag) (a n : Nat) : Run (List Byte) :=
  match regionOf a with
  | .regs off =>
    if a % 4 = 0 ∧ n = 4 then do
      let s ← get
      let r := s.accessRead t 0 off
      set r.2
      match r.1 with
      | some v => pure (wordBytes v)
      | none => throw St.FIREWALL
    else denied ⟨0x180, Kind.FABRIC_ERROR⟩ t a
  | _ => readMem t a n

/-- Write bytes as a porter: device memory, or one aligned register word (R8). [DESIGN CHOICE, log entry 32] -/
def portWrite (t : Tag) (a : Nat) (b : List Byte) : Run Unit :=
  match regionOf a with
  | .regs off =>
    if a % 4 = 0 ∧ b.length = 4 then do
      let s ← get
      let r := s.accessWrite t 0 off (BitVec.ofNat 32 (le b 0 4))
      set (if r.1 then r.2.countPorter t 4 else r.2)
      if r.1 then pure () else throw St.FIREWALL
    else denied ⟨0x180, Kind.FABRIC_ERROR⟩ t a
  | _ => writeMem t a b

/-- Element r of every source row, in row order: a row of the transposed destination (R253). -/
def columnOf (e r : Nat) (rows : List (List Byte)) : List Byte := rows.flatMap fun x => slice x (r * e) e

/-- The source rows of a transpose: where each begins. -/
def MoveD.srcRows (m : MoveD) : List Nat := (List.range m.rows).map fun r => m.src + r * m.srcStride

/-- Read every source row in turn. -/
def readRows (t : Tag) (n : Nat) : List Nat → Run (List (List Byte))
  | [] => pure []
  | a :: l => do
    let b ← portRead t a n
    let r ← readRows t n l
    pure (b :: r)

/-- Rows that a MOVE writes (R253). -/
def MoveD.height (m : MoveD) : Nat := if m.mode = 0 then 1 else if m.mode = 1 then m.rows else m.c

/-- Bytes of each row that a MOVE writes (R253). -/
def MoveD.width (m : MoveD) : Nat := if m.mode = 2 then m.rows * m.e else m.rowBytes

/-- Bytes of destination that a MOVE writes. -/
def MoveD.bytes (m : MoveD) : Nat := m.height * m.width

/-- The pieces of rows that bytes lo to hi − 1 of what a MOVE writes lie in: row, first byte, length. -/
def MoveD.pieces (m : MoveD) (lo hi : Nat) : List (Nat × Nat × Nat) :=
  (List.range m.height).filterMap fun r =>
    let a := max lo (r * m.width)
    let b := min hi ((r + 1) * m.width)
    if a < b then some (r, a - r * m.width, b - a) else none

/-- Read each piece of MODES 0 and 1 from its source row: where it goes, and its bytes. -/
def readPieces (t : Tag) (m : MoveD) : List (Nat × Nat × Nat) → Run (List (Nat × List Byte))
  | [] => pure []
  | (r, o, n) :: l => do
    let b ← portRead t (m.src + r * m.srcStride + o) n
    let rest ← readPieces t m l
    pure ((m.dst + r * m.dstStride + o, b) :: rest)

/-- Bytes lo to hi − 1 of what a MOVE without DECRYPT writes, in pieces: where each goes, and its bytes (R253). A transpose reads every source row. [DESIGN CHOICE, log entry 33] -/
def moveRows (t : Tag) (m : MoveD) (lo hi : Nat) : Run (List (Nat × List Byte)) := do
  if m.mode = 2 then
    let rows ← readRows t m.rowBytes m.srcRows
    pure ((m.pieces lo hi).map fun p => (m.dst + p.1 * m.dstStride + p.2.1, slice (columnOf m.e p.1 rows) p.2.1 p.2.2))
  else readPieces t m (m.pieces lo hi)

/-- Bytes lo to hi − 1 of a DECRYPT (R256): the text, and GHASH after them. [DESIGN CHOICE, log entry 36] -/
def moveDecrypt (t : Tag) (m : MoveD) (lo hi hash : Nat) : Run (List Byte × Nat) := do
  let s ← get
  if !s.dkeyServes m.key t.stall.val then do
    change fun s => s.report t.initiator.toNat Kind.KEY_SLOT_REFUSED t.stall.val m.src
    throw St.FIREWALL
  let key := s.sec.dkeys.getD m.key []
  let cipher ← portRead t (m.src + lo) (hi - lo)
  pure (gcmTextFrom (lo / 16) key (leBytes 12 m.iv) cipher, gcmHash key cipher hash)

/-- The tag after the ciphertext is the one that GHASH over all of it gives (R256). -/
def moveTagOk (t : Tag) (m : MoveD) (hash : Nat) : Run Bool := do
  let tag ← portRead t (m.src + m.rowBytes) 16
  let s ← get
  pure (gcmTagOf (s.sec.dkeys.getD m.key []) (leBytes 12 m.iv) 0 m.rowBytes hash == tag)

/-- The tag did not match: the destination has been overwritten with zero (R256). [DESIGN CHOICE, log entry 36] -/
def moveBadTag (t : Tag) (m : MoveD) : Run Unit := do
  change fun s => s.report t.initiator.toNat Kind.BLOB_AUTH_FAIL t.stall.val m.src
  throw St.CRC_MISMATCH

/-- The destination rows lie one behind the other: no byte of the extent is left as it was. -/
def MoveD.dense (m : MoveD) : Bool := m.mode == 0 || (m.mode == 1 && m.dstStride == m.rowBytes) || (m.mode == 2 && m.dstStride == m.rows * m.e) || m.dstExtent == (if m.mode == 1 then m.rowBytes else m.rows * m.e)

/-- Send writes into another device's window, line by line; the command waits for their responses (R530, R532). [DESIGN CHOICE, log entry 35] -/
def sendRows (id i p : Nat) (t : Tag) (rows : List (Nat × List Byte)) : Run Unit :=
  eachDo (fun r => eachDo (fun l => do
    let s ← get
    match s.barrier t .write l.1 l.2 with
    | some d => denied d t l.1
    | none => set ((s.countPorter t l.2).bilWrite p t.stall.val l.1 ((r.2.drop (l.1 - r.1)).take l.2) (some (id, i)))) (lines r.1 r.2.length)) rows

/-- A MOVE to another device (R530, R532): the provisional selvage and the payload leave; the rest follows their responses. [DESIGN CHOICE, log entry 35] -/
def moveRemote (id i dev : Nat) (t : Tag) (m : MoveD) (rows : List (Nat × List Byte)) : Run Unit := do
  let s ← get
  match s.barrier t .write m.dst (min 64 m.dstExtent) with
  | some d => denied d t m.dst
  | none =>
    match s.portTo dev with
    | none => denied ⟨0x180, Kind.FABRIC_ERROR⟩ t m.dst
    | some p =>
      let sel := if m.selvage = 0 then [] else [(selvageAt m.dst m.dstExtent, selvageOpen {} t.stall.val m.dstExtent 0)]
      let all := sel ++ rows
      let n := sumNat (all.map fun r => (lines r.1 r.2.length).length)
      let crc := if m.dense then (crc32c (rows.flatMap (·.2))).toNat else (Config.free 32 s.freeN).toNat
      change fun s => ({ s with freeN := if m.dense then s.freeN else s.freeN + 1 } : State).updCmd id i fun c => { c with stage := .running, progress := n, aux := 0, target := crc }
      sendRows id i p t all

/-- The source's PAYLOAD_CRC is right, where SELVAGE 1 has it checked as the extent is copied (R425). [DESIGN CHOICE, log entry 34] -/
def State.movePayloadOk (s : State) (m : MoveD) : Bool :=
  m.selvage != 1 || (crc32c (s.peek m.src m.srcExtent)).toNat == le (s.peek (selvageAt m.src m.srcExtent) 32) 24 4

/-- The source's payload did not match: the copy stands and its selvage stays inverted (R425). [DESIGN CHOICE, log entry 34] -/
def moveBadPayload (t : Tag) (m : MoveD) : Run Unit := do
  change fun s => s.report t.initiator.toNat Kind.PAYLOAD_CRC t.stall.val m.src
  throw St.CRC_MISMATCH

/-- A MOVE to another device reads all of its source at once. [DESIGN CHOICE, log entry 35] -/
def moveAbroad (id i dev : Nat) (t : Tag) (m : MoveD) (payload : Bool) : Run Unit := do
  if m.decrypt then do
    let x ← moveDecrypt t m 0 m.bytes 0
    let ok ← moveTagOk t m x.2
    moveRemote id i dev t m [(m.dst, if ok then x.1 else List.replicate m.bytes 0#8)]
    if !ok then moveBadTag t m
  else do
    let x ← moveRows t m 0 m.bytes
    moveRemote id i dev t m x
  if !payload then moveBadPayload t m

/-- A MOVE within the device writes bytes lo to hi − 1; with the last of them it ends, else it stands where a pre-emption stops it (R257). [DESIGN CHOICE, log entry 33] -/
def movePart (id i : Nat) (t : Tag) (m : MoveD) (payload : Bool) (lo hi hash : Nat) : Run Unit := do
  let x ← (if m.decrypt then do
      let x ← moveDecrypt t m lo hi hash
      pure ([(m.dst + lo, x.1)], x.2)
    else do
      let x ← moveRows t m lo hi
      pure (x, 0))
  eachDo (fun r => portWrite t r.1 r.2) x.1
  if hi < m.bytes then change fun s => s.updCmd id i fun c => { c with progress := hi, hash := x.2 }
  else do
    let ok ← if m.decrypt then moveTagOk t m x.2 else pure true
    if !ok then do
      portWrite t m.dst (List.replicate m.bytes 0#8)
      moveBadTag t m
    if payload then change fun s => s.finishCmd id i St.OK else moveBadPayload t m

/-- The effect of a MOVE, from the byte where a pre-emption stopped it; one that waits lets it write 4,096 bytes more (R257). [DESIGN CHOICE, log entry 33] -/
def moveBody (id i : Nat) (j : Job) (c : Cmd) : Run Unit := do
  let s ← get
  let m := moveD c.desc
  let t := j.portTag s c
  let payload := s.movePayloadOk m
  match regionOf m.dst with
  | .remote dev _ => moveAbroad id i dev t m payload
  | _ => movePart id i t m payload c.progress (if s.yieldDue j.core then min (c.progress + 4096) m.bytes else m.bytes) c.hash

/-- MOVE (R253 to R258): a DECRYPT waits while the security core restarts (R296). -/
def execMove (job idx : Nat) (s : State) : Host.Outcome State Fault Refusal :=
  .next (
    let waits : Bool := match (s.job? job).bind (·.cmd? idx) with
      | some c => (moveD c.desc).decrypt && !s.securityUp
      | none => false
    if waits then s else runPart s job idx 0x0A .started (moveBody job idx))

end Sys2Proof.Machine
end

