-- ==== Sys2Proof/Machine/Receive.lean ====
section
/-!
DEFINITION. What an Ethernet port does with a received frame (R386): FCS, MACsec validation (R387), address filter, gPTP,
replies, Barrow datagrams (R395 to R400), stream ingest (R340), the management path (R394).
-/
namespace Sys2Proof.Machine

/-! ### Frames -/

/-- One bit of the Ethernet CRC of IEEE 802.3. -/
def fcsStep (c : BitVec 32) : BitVec 32 := if c.getLsbD 0 then (c >>> 1) ^^^ 0xEDB88320#32 else c >>> 1

/-- One byte into a running Ethernet CRC. -/
def fcsByte (c : BitVec 32) (b : Byte) : BitVec 32 :=
  let c := c ^^^ b.setWidth 32
  fcsStep (fcsStep (fcsStep (fcsStep (fcsStep (fcsStep (fcsStep (fcsStep c)))))))

/-- The frame check sequence of a frame's bytes as a number whose low byte is sent first. PRESUMED: IEEE 802.3, which the manual names for the ports (R385) without repeating it. [PRESUMED, log entry 80] -/
def fcsOf (l : List Byte) : Nat := (~~~ (l.foldl fcsByte 0xFFFFFFFF#32)).toNat

/-- The destination address of a frame. -/
def destMac (f : List Byte) : Nat := be f 0 6
/-- The source address of a frame. -/
def srcMac (f : List Byte) : Nat := be f 6 6

/-- The VLAN ID of a tagged frame. -/
def frameVid (f : List Byte) : Option Nat := if be f 12 2 = 0x8100 then some (be f 14 2 % 4096) else none

/-- A frame counted in RX_DROP.OTHER. [DESIGN CHOICE, log entry 81] -/
def State.dropOther (s : State) (p : Nat) : State := s.sat (Reg.ETH_RX_DROP p) 15 0 1

/-- A frame on its way to the management receive FIFO (R394): at most 512 bytes, at most 16 frames. -/
def State.toManagement (s : State) (p : Nat) (f : List Byte) : State :=
  if 512 < f.length ∨ 16 ≤ (s.ethPort p).rx.length then s.dropOther p else s.updEth p fun e => { e with rx := e.rx ++ [f] }

/-! ### MACsec validation (R387) -/

/-- Count a frame that validation drops; MACSEC_RX_FAIL at most once in 1 ms. -/
def State.macsecDrop (s : State) (p : Nat) : State :=
  let s := (s.sat (Reg.ETH_MACSEC_FAIL p) 31 0 1).updEth p fun e => { e with failSince := e.failSince + 1 }
  let e := s.ethPort p
  let due : Bool := match e.failAt with
    | none => true
    | some t => decide (t + 1000000 ≤ s.refNs)
  if due then (s.report (0x140 + p) Kind.MACSEC_RX_FAIL 0 e.failSince).updEth p fun e => { e with failSince := 0, failAt := some s.refNs } else s

/-- VALIDATE: 0 Disabled, 1 Check, 2 Strict. -/
def State.validate (s : State) (p : Nat) : Nat := s.fld (Reg.ETH_MACSEC_CTRL p) 29 28

/-- A receive association of a port. -/
def State.rxSa (s : State) (p ch an : Nat) : SecAssoc := ((s.ethPort p).rxSec.getD ch []).getD an {}

/-- Change a receive association. -/
def State.updRxSa (s : State) (p ch an : Nat) (f : SecAssoc → SecAssoc) : State :=
  s.updEth p fun e => { e with rxSec := updAt (updAt f an) ch e.rxSec }

/-- The full packet number of a frame: its low 32 bits are sent, XPN suites recover the others from the next one expected. -/
def State.fullPn (s : State) (p next low : Nat) : Nat :=
  if s.xpn p then
    let hi := next / 2 ^ 32
    if next % 2 ^ 32 ≥ 2 ^ 31 ∧ low < 2 ^ 31 then (hi + 1) * 2 ^ 32 + low else hi * 2 ^ 32 + low
  else low

/-- A protected frame, taken apart. -/
structure SecFrame where
  an : Nat
  sci : Nat
  pn : Nat
  encrypted : Bool
  changed : Bool
  tag : List Byte
  body : List Byte
  icv : List Byte
  deriving DecidableEq, Repr

/-- Take a protected frame apart; none where its SecTAG is malformed. [PRESUMED, log entry 80] -/
def secFrame (f : List Byte) : Option SecFrame :=
  let tci := be f 14 1
  let sc := bitOf tci 5
  let n := if sc then 16 else 8
  if bitOf tci 7 ∨ f.length < 12 + n + 16 ∨ (sc ∧ bits tci 6 6 = 1) then none
  else some { an := tci % 4, sci := if sc then be f 20 8 else srcMac f * 2 ^ 16 + 1, pn := be f 16 4, encrypted := bitOf tci 3, changed := bitOf tci 2,
              tag := slice f 12 n, body := slice f (12 + n) (f.length - 12 - n - 16), icv := f.drop (f.length - 16) }

/-- Validate a frame on a port with MACsec: the frame that goes on, none where it is dropped. PRESUMED: the checks and their order are those of IEEE 802.1AE-2018. [DESIGN CHOICE, log entry 23; PRESUMED, log entry 80] -/
def State.macsecIn (s : State) (p : Nat) (f : List Byte) : Option (List Byte) × State :=
  let strict := s.validate p == 2
  if be f 12 2 ≠ 0x88E5 then (if uncontrolled f ∨ !strict then (some f, s) else (none, s.macsecDrop p))
  else match secFrame f with
    | none => (none, s.macsecDrop p)
    | some x =>
      let plain := f.take 12 ++ x.body
      match (Config.macsecChannel p x.sci).filter fun ch => (s.rxSa p ch.val x.an).installed with
      | none => if strict ∨ x.changed then (none, s.macsecDrop p) else (some plain, s)
      | some ch =>
        let sa := s.rxSa p ch.val x.an
        let pn := s.fullPn p sa.pn x.pn
        let late := s.bit (Reg.ETH_MACSEC_CTRL p) 27 && pn + (s.rd (Reg.ETH_MACSEC_WINDOW p)).toNat < sa.pn
        if late ∨ pn = 0 then (none, s.macsecDrop p)
        else if s.validate p = 0 then (if x.changed then (none, s.macsecDrop p) else (some plain, s))
        else
          let off := if x.encrypted then min (s.confOffset p) x.body.length else x.body.length
          let key := sa.sak.take (s.sakBytes p)
          let iv := s.gcmIv p sa x.sci pn
          let cipher := x.body.drop off
          let good : Bool := slice (gcmTag key iv (f.take 12 ++ x.tag ++ x.body.take off) cipher) 0 16 == x.icv
          let out := f.take 12 ++ x.body.take off ++ slice (gcmText key iv cipher) 0 cipher.length
          if good then (some out, s.updRxSa p ch.val x.an fun a => { a with pn := max a.pn (pn + 1) })
          else if strict ∨ x.changed then (none, s.macsecDrop p)
          else (some plain, s)

/-! ### The address filter (R386, rule 3) -/

/-- The port's own IPv4 address; 0: none. -/
def State.ownIp4 (s : State) (p : Nat) : Nat := (s.rd (Reg.ETH_IPV4 p)).toNat
/-- The port's own IPv6 address; 0: none. -/
def State.ownIp6 (s : State) (p : Nat) : Nat := s.rdN (Reg.ETH_IPV6 p) 4

/-- A group address in a valid entry of the port's multicast table. -/
def State.inMcast (s : State) (p mac : Nat) : Bool :=
  (List.range 16).any fun n => s.bit (Reg.ETH_MCAST p n + 4) 31 && s.rd64 (Reg.ETH_MCAST p n) % 2 ^ 48 == mac

/-- The frame is addressed to the port. -/
def State.addressed (s : State) (p mac : Nat) : Bool :=
  mac == s.ownMac p || mac == 0xFFFFFFFFFFFF || mac == 0x0180C200000E || mac == 0x0180C2000003
  || (s.ownIp6 p != 0 && mac == 0x3333FF000000 + s.ownIp6 p % 2 ^ 24) || s.inMcast p mac

/-! ### Replies (R386, rule 6) -/

/-- The Ethernet header of a reply: VLAN-tagged where ETH_NET says so. -/
def State.replyHead (s : State) (p dst type_ : Nat) : List Byte :=
  let n := Reg.ETH_NET p
  beBytes 6 dst ++ beBytes 6 (s.ownMac p) ++ (if s.bit n 31 then beBytes 2 0x8100 ++ beBytes 2 (s.fld n 14 12 * 2 ^ 13 + s.fld n 27 16) else []) ++ beBytes 2 type_

/-- Put a reply on the control queue, padded to the shortest frame. -/
def State.sendReply (s : State) (p : Nat) (f : List Byte) : State :=
  s.updEth p fun e => { e with ctrl := e.ctrl ++ [.reply (f ++ List.replicate (60 - f.length) 0#8)] }

/-- An ARP request for the port's own address. -/
def State.isArp (s : State) (p : Nat) (f : List Byte) : Bool :=
  let h := ethHead f
  etherType f == 0x0806 && be f h 8 == 0x0001080006040001 && s.ownIp4 p != 0 && be f (h + 24) 4 == s.ownIp4 p

/-- The answer to an ARP request. -/
def State.arpReply (s : State) (p : Nat) (f : List Byte) : List Byte :=
  let h := ethHead f
  s.replyHead p (be f (h + 8) 6) 0x0806 ++ beBytes 8 0x0001080006040002 ++ beBytes 6 (s.ownMac p) ++ beBytes 4 (s.ownIp4 p) ++ slice f (h + 8) 10

/-- A received IP packet: where its header and its upper layer begin, its protocol, its ends, whether it is a fragment. -/
structure IpPacket where
  v6 : Bool
  src : Nat
  dst : Nat
  proto : Nat
  upper : List Byte
  fragment : Bool
  deriving DecidableEq, Repr

/-- The IP packet in a frame, none where there is none or it is cut short. -/
def ipPacket (f : List Byte) : Option IpPacket :=
  let h := ethHead f
  if etherType f = 0x0800 then
    let n := be f h 1 % 16 * 4
    let len := be f (h + 2) 2
    if be f h 1 / 16 = 4 ∧ 20 ≤ n ∧ n ≤ len ∧ h + len ≤ f.length then
      some { v6 := false, src := be f (h + 12) 4, dst := be f (h + 16) 4, proto := be f (h + 9) 1, upper := slice f (h + n) (len - n),
             fragment := be f (h + 6) 2 % 2 ^ 14 != 0 }
    else none
  else if etherType f = 0x86DD then
    let len := be f (h + 4) 2
    if be f h 1 / 16 = 6 ∧ h + 40 + len ≤ f.length then
      let nh := be f (h + 6) 1
      some { v6 := true, src := be f (h + 8) 16, dst := be f (h + 24) 16, proto := if nh = 44 then be f (h + 40) 1 else nh,
             upper := if nh = 44 then slice f (h + 48) (len - 8) else slice f (h + 40) len, fragment := nh == 44 }
    else none
  else none

/-- The packet is to the port's own address. -/
def State.ownPacket (s : State) (p : Nat) (x : IpPacket) : Bool :=
  if x.v6 then s.ownIp6 p != 0 && x.dst == s.ownIp6 p else s.ownIp4 p != 0 && x.dst == s.ownIp4 p

/-- An ICMP or ICMPv6 message with its checksum, the checksum field at byte 2. -/
def icmpSum (v6 : Bool) (src dst : Nat) (m : List Byte) : List Byte :=
  let m := putBe m 2 2 0
  putBe m 2 2 (checksum ((if v6 then beBytes 16 src ++ beBytes 16 dst ++ beBytes 4 m.length ++ beBytes 4 58 else []) ++ m))

/-- A packet of the port's own: IPv4 or IPv6 header and upper layer. -/
def ipOut (v6 : Bool) (src dst proto hops : Nat) (upper : List Byte) : List Byte :=
  if v6 then beBytes 4 0x60000000 ++ beBytes 2 upper.length ++ beBytes 1 proto ++ beBytes 1 hops ++ beBytes 16 src ++ beBytes 16 dst ++ upper
  else
    let h := beBytes 2 0x4500 ++ beBytes 2 (20 + upper.length) ++ beBytes 4 0 ++ beBytes 1 hops ++ beBytes 1 proto ++ beBytes 2 0 ++ beBytes 4 src ++ beBytes 4 dst
    ipSum h 0 ++ upper

/-- The reply to a packet that the port answers itself: an echo request, or a neighbour solicitation for its own address. PRESUMED: the reply formats are those of RFC 792, 4443 and 4861. -/
def State.ipReply (s : State) (p : Nat) (f : List Byte) (x : IpPacket) : Option (List Byte) :=
  let t := be x.upper 0 2
  let type_ := if x.v6 then 0x86DD else 0x0800
  if x.fragment then none
  else if !x.v6 && x.proto == 1 && t == 0x0800 && s.ownPacket p x then
    some (s.replyHead p (srcMac f) type_ ++ ipOut false x.dst x.src 1 64 (icmpSum false 0 0 (putBe x.upper 0 2 0)))
  else if x.v6 && x.proto == 58 && t == 0x8000 && s.ownPacket p x then
    some (s.replyHead p (srcMac f) type_ ++ ipOut true x.dst x.src 58 64 (icmpSum true x.dst x.src (putBe x.upper 0 2 0x8100)))
  else if x.v6 && x.proto == 58 && t == 0x8700 && s.ownIp6 p != 0 && be x.upper 8 16 == s.ownIp6 p then
    let own := s.ownIp6 p
    let dest := if x.src = 0 then 0xFF020000000000000000000000000001 else x.src
    let m := beBytes 4 0x88000000 ++ beBytes 4 (if x.src = 0 then 0x20000000 else 0x60000000) ++ beBytes 16 own ++ beBytes 2 0x0201 ++ beBytes 6 (s.ownMac p)
    some (s.replyHead p (if x.src = 0 then 0x333300000001 else srcMac f) type_ ++ ipOut true own dest 58 255 (icmpSum true own dest m))
  else none

/-! ### Barrow (R386, rule 7; R396 to R400) -/

/-- The state after a command that always goes on. -/
def onward (s : State) (o : Host.Outcome State Fault Refusal) : State := match o with | .next t => t | _ => s

/-- A DOORBELL frame: its body's checks, and the doorbell (R273, R398). -/
def State.doorbellFrame (s : State) (n seq : Nat) (body : List Byte) : State :=
  let refuse := fun (i : Nat) => s.request n seq fun _ s => (s, nack 6 i)
  if body.length < 16 then refuse body.length
  else if 64 ≤ be body 0 1 then refuse 0
  else match badReserved body [1, 2, 3, 4, 5, 6, 7] with
    | some i => refuse i
    | none => onward s (execDoorbell (BitVec.ofNat 16 n) (BitVec.ofNat 32 seq) (Fin.ofNat 64 (be body 0 1)) (BitVec.ofNat 64 (be body 8 8)) s)

/-- A frame of an open session, by KIND (R397). [DESIGN CHOICE, log entry 82] -/
def State.sessionFrame (s : State) (x : Session) (kind seq ack : Nat) (body : List Byte) : State :=
  let n := BitVec.ofNat 16 x.num
  let q := BitVec.ofNat 32 seq
  match kind with
  | 1 => onward s (execHostReadWrite n q body s)
  | 2 => onward s (execHostReadWrite n q body s)
  | 3 => s.doorbellFrame x.num seq body
  | 4 => onward s (execBarrowAck n (BitVec.ofNat 32 ack) body s)
  | 5 => onward s (execBarrowNack n (BitVec.ofNat 32 ack) body s)
  | 6 => onward s (execClaim n q body s)
  | 7 => onward s (execRelease n q body s)
  | 8 => onward s (execHeartbeat n q body s)
  | 9 => onward s (execRegRead n q body s)
  | 10 => onward s (execRegWrite n q body s)
  | _ => s.dropBarrow

/-- A Barrow datagram from a host on a port (R396 to R400). [DESIGN CHOICE, log entry 82] -/
def State.barrowDatagram (s : State) (port : PortId) (src : HostAddr) (b : List Byte) : State :=
  let p := port.val
  let body := b.drop 24
  let kind := be b 3 1
  let n := be b 4 2
  let seq := be b 8 4
  let hi := s.fld Reg.BAR_VERSION 15 8
  let crc := (crc32c (b.take 20 ++ beBytes 4 0 ++ body)).toNat
  if b.length < 24 ∨ be b 0 2 ≠ 0xB7A0 ∨ be b 6 2 ≠ body.length ∨ be b 20 4 ≠ crc ∨ s.pwr.boot ≠ .done then s.dropBarrow
  else if kind = 0 ∨ 10 < kind then s.dropBarrow
  else if n = 0 ∧ kind = 8 then onward s (execBarrowOpen port src body s)
  else match (s.session? n).filter fun x => x.port == p && x.addr == src with
    | none => s.dropBarrow.sendBarrow p src (barFrame hi 5 n 0 seq s.epoch (nackBody 8 0 0))
    | some x =>
      if kind ≠ 4 ∧ kind ≠ 5 ∧ be b 2 1 ≠ x.version then
        s.sendBarrow p src (barFrame x.version 5 n 0 seq s.epoch (nackBody 1 0 (s.fld Reg.BAR_VERSION 7 0 * 256 + hi)))
      else s.sessionFrame x kind seq (be b 12 4) body

/-! ### Stream ingest (R386, rule 8; R340) -/

/-- A context's network filter agrees with the frame's VLAN tag. -/
def State.vlanFits (s : State) (n : Nat) (f : List Byte) : Bool :=
  let r := Reg.ING_STR_NET n
  match frameVid f with
  | some v => s.bit r 31 && s.fld r 27 16 == v
  | none => !s.bit r 31

/-- MATCH of a context. -/
def State.strMatch (s : State) (n : Nat) : Nat := s.rd64 (Reg.ING_STR_MATCH n)

/-- The UDP destination port and payload of a packet. -/
def udpOf (x : IpPacket) : Option (Nat × List Byte) :=
  let len := be x.upper 4 2
  if x.proto = 17 ∧ 8 ≤ x.upper.length ∧ 8 ≤ len then some (be x.upper 2 2, slice x.upper 8 (min len x.upper.length - 8)) else none

/-- The enabled context that a frame matches (R340): IEEE 1722 by stream_id (subtypes RVF, AAF and the compressed CVF), a lidar's datagram by port. -/
def State.streamOf (s : State) (p : Nat) (f : List Byte) (x : Option IpPacket) : Option Nat :=
  let h := ethHead f
  (List.range 128).find? fun n =>
    s.strOn n && s.strPort n == p && s.vlanFits n f && match s.strSource n with
      | 1 => etherType f == 0x22F0 && (be f h 1 == 0x07 || be f h 1 == 0x03) && be f (h + 4) 8 == s.strMatch n
      | 2 => etherType f == 0x22F0 && be f h 1 == 0x02 && be f (h + 4) 8 == s.strMatch n
      | 3 => match x with
        | some y => s.ownPacket p y && (udpOf y).any fun u => u.1 == s.strMatch n % 65536
        | none => false
      | _ => false

/-- The ingress time stamp of a port less its fixed latencies (R372); the management port's is fully compensated. -/
def State.ingress (s : State) (p : Nat) : Nat := if p = 2 then s.capture 0 0 else s.capture 6 (s.fld (Reg.TIM_PORT_LAT p) 15 0)

/-- An AVTP timestamp widened to the 64-bit value nearest the ingress stamp (R332). -/
def widenAvtp (stamp avtp : Nat) : Nat :=
  let d := signed 32 ((avtp + 2 ^ 32 - stamp % 2 ^ 32) % 2 ^ 32)
  ((stamp : Int) + d).toNat

/-- Pixel k of a raw row whose pixels of some bits follow each other, the first in the highest bits. -/
def pixelAt (b : List Byte) (depth k : Nat) : Nat :=
  let i := k * depth
  let w := be b (i / 8) 4
  bits w (31 - i % 8) (32 - i % 8 - depth)

/-- The bits per pixel of an RVF pixel_depth code; 0: not accepted. PRESUMED: IEEE 1722-2016's coding. -/
def rvfDepth (code : Nat) : Nat := match code with | 1 => 8 | 2 => 10 | 3 => 12 | 4 => 16 | _ => 0

/-- The rows of an RVF packet, which may hold several whole lines. -/
def rvfRows (pay : List Byte) (depth active lines : Nat) : List (List Nat) :=
  let one := ceilDiv (active * depth) 8
  (List.range (max 1 lines)).map fun i =>
    let b := pay.drop (i * one)
    (List.range (min active (b.length * 8 / depth))).map fun k => pixelAt b depth k

/-- Bytes of an AAF sample by format code; 0: not accepted. PRESUMED: IEEE 1722-2016's coding. -/
def aafBytes (code : Nat) : Nat := match code with | 1 => 4 | 2 => 4 | 3 => 3 | 4 => 2 | _ => 0

/-- A sample as a 32-bit word: integers sign-extended (R340). -/
def aafWord (code n v : Nat) : Nat := if code = 1 then v else unsigned 32 (signed (8 * n) v)

/-- An RVF packet of context n: progressive raw video of the context's depth; other formats are discarded and counted (R340). [DESIGN CHOICE, log entry 81] -/
def State.rvfFrame (s : State) (p n : Nat) (f : List Byte) (capture : Nat) : State :=
  let h := ethHead f
  let depth := rvfDepth (be f (h + 25) 1 / 16)
  let fmt := be f (h + 25) 1 % 16
  if be f h 1 ≠ 0x07 ∨ depth = 0 ∨ depth ≠ s.strDepth n ∨ bitOf (be f (h + 23) 1) 6 ∨ !(fmt == 0 || 8 ≤ fmt) then s.dropOther p
  else
    let active := be f (h + 16) 2
    let line := be f (h + 30) 2
    let ef := bitOf (be f (h + 22) 1) 4
    let pay := slice f (h + 32) (min (be f (h + 20) 2) (f.length - h - 32))
    let rows := rvfRows pay depth active (be f (h + 27) 1 % 16)
    rows.zipIdx.foldl (fun (s : State) r => s.rvfPacket n (line + r.2) r.1 (ef && r.2 + 1 == rows.length) capture s.synced s.stepGen) s

/-- A nominal sample rate from 8 to 192 kHz (R340). PRESUMED: IEEE 1722-2016's codes, of which 0 names no rate. -/
def aafRate (code : Nat) : Bool := 1 ≤ code && code ≤ 10

/-- An AAF packet of context n (R340). -/
def State.aafFrame (s : State) (p n : Nat) (f : List Byte) (capture : Nat) : State :=
  let h := ethHead f
  let code := be f (h + 16) 1
  let k := aafBytes code
  let ch := be f (h + 17) 2 % 1024
  if k = 0 ∨ !aafRate (be f (h + 17) 1 / 16) then s.dropOther p
  else
    let pay := slice f (h + 24) (min (be f (h + 20) 2) (f.length - h - 24))
    let m := if ch = 0 then 0 else pay.length / (k * ch)
    let samples := (List.range m).map fun i => (List.range ch).map fun c => aafWord code k (be pay ((i * ch + c) * k) k)
    s.aafPacket n (be f (h + 2) 1) ch samples capture s.synced s.stepGen

/-- A frame that matches context n goes to ingest (R332, R340). -/
def State.streamFrame (s : State) (p n : Nat) (f : List Byte) (x : Option IpPacket) : State :=
  let stamp := s.ingress p
  let capture := if s.bit (Reg.ING_STR_FMT n) 0 then widenAvtp stamp (be f (ethHead f + 12) 4) else stamp
  match s.strSource n with
  | 1 => s.rvfFrame p n f capture
  | 2 => s.aafFrame p n f capture
  | _ => match x with
    | some y => if y.fragment then s.dropOther p else s.lidarPacket n ((udpOf y).elim [] (·.2)) stamp s.synced s.stepGen
    | none => s

/-! ### The classifier (R386) -/

/-- Stamp a gPTP event message on reception (R375). -/
def State.stampIn (s : State) (p : Nat) (f : List Byte) : State :=
  let h := ethHead f
  let mt := bits (be f h 1) 3 0
  if mt = 0 ∨ mt = 2 ∨ mt = 3 then s.pushPtp p (s.captureRecord (s.ingress p) (be f (h + 30) 2 + be f (h + 4) 1 * 2 ^ 16 + mt * 2 ^ 24 + p * 2 ^ 29)) else s

/-- The Barrow datagram in a packet (R395): to the port's own address and UDP_PORT, unfragmented, on a port enabled in BAR_CTRL. -/
def State.barrowIn (s : State) (p : Nat) (x : IpPacket) : Option (List Byte) :=
  if s.ownPacket p x && !x.fragment && s.bit Reg.BAR_CTRL (28 + p) then
    ((udpOf x).filter fun u => u.1 == s.fld Reg.BAR_CTRL 15 0).map (·.2)
  else none

/-- Rules 3 to 9 of R386, on a frame without FCS. [DESIGN CHOICE, log entry 81] -/
def State.classify (s : State) (port : PortId) (f : List Byte) : State :=
  let p := port.val
  let other := fun (s : State) => if s.bit (Reg.ETH_PORT_CTRL p) 16 then s.toManagement p f else s.dropOther p
  if !s.addressed p (destMac f) then s.dropOther p
  else if etherType f = 0x88F7 then (s.stampIn p f).toManagement p f
  else if etherType f = 0x888E then s.toManagement p f
  else if etherType f = 0x8808 then s.dropOther p
  else if s.isArp p f then s.sendReply p (s.arpReply p f)
  else
    let ip := ipPacket f
    match ip.bind (s.ipReply p f) with
    | some r => s.sendReply p r
    | none =>
      match ip.bind fun x => (s.barrowIn p x).map fun b => (x, b) with
      | some (x, b) => s.barrowDatagram port ⟨x.v6, BitVec.ofNat 128 x.src⟩ b
      | none =>
        match (if p < 2 then s.streamOf p f ip else none) with
        | some n => s.streamFrame p n f ip
        | none => other s

/-- ETH_FRAME_RECEIVE (R386): a port in service with its link up takes a frame, FCS included. -/
def execEthFrameReceive (port : PortId) (frame : List Byte) (s : State) : Host.Outcome State Fault Refusal :=
  .next (
    let p := port.val
    let f := frame.take (frame.length - 4)
    if !s.portUp p then s
    else if frame.length < 64 ∨ s.fld (Reg.ETH_PORT_CTRL p) 13 0 < frame.length ∨ le frame (frame.length - 4) 4 ≠ fcsOf f then s.sat (Reg.ETH_RX_DROP p) 31 16 1
    else
      let s := s.inc64 (Reg.ETH_RX_FRAMES p) 1
      let r := if s.macsecOn p then s.macsecIn p f else (some f, s)
      match r.1 with
      | none => r.2
      | some f => r.2.classify port f)

end Sys2Proof.Machine
end

