-- ==== Sys2Proof/Machine/RegRows.lean ====
section
/-!
DEFINITION. The rows that are writes or reads of one register: each sets its own bit in the value written and goes through
the one access of RegAccess (R9, R26, R404, R416).
-/
namespace Sys2Proof.Machine

/-- TW_LEDGER_INJECT_ARM (R116, R121): ARM in TW_LEDGER_INJECT; the next pass takes it. -/
def execTwLedgerInjectArm (t : Tag) (core : CoreId) (v : Word) (s : State) : Host.Outcome State Fault Refusal := .next (s.writeRow t 0 (Reg.TW_LEDGER_INJECT core.val) (v ||| 0x80000000#32))

/-- TD_INJECT_ARM (R179, R188). -/
def execTdInjectArm (t : Tag) (core : CoreId) (unit : Fin 2) (v : Word) (s : State) : Host.Outcome State Fault Refusal := .next (s.writeRow t 0 (Reg.TD_INJECT core.val unit.val) (v ||| 0x80000000#32))

/-- WF_LINE_HWM_CLEAR (R152). -/
def execWfLineHwmClear (t : Tag) (core : CoreId) (v : Word) (s : State) : Host.Outcome State Fault Refusal := .next (s.writeRow t 0 (Reg.WF_LINE_HWM core.val) (v ||| 0x80000000#32))

/-- BT_ECC_INJECT_ARM (R243). -/
def execBtEccInjectArm (t : Tag) (core : CoreId) (v : Word) (s : State) : Host.Outcome State Fault Refusal := .next (s.writeRow t 0 (Reg.BT_ECC_INJECT core.val) (v ||| 0x80000000#32))

/-- MEM_ECC_INJECT_ARM (R243). -/
def execMemEccInjectArm (t : Tag) (v : Word) (s : State) : Host.Outcome State Fault Refusal := .next (s.writeRow t 0 (Reg.MEM_ECC_INJECT) (v ||| 0x80000000#32))

/-- CARVE_OUT_WRITE (R244): a skein has entries 0 to 3. -/
def execCarveOutWrite (t : Tag) (core : CoreId) (skein : Bool) (entry : Fin 8) (v : Word) (s : State) : Host.Outcome State Fault Refusal := .next (s.writeRow t 0 (if skein then Reg.SK_CARVE core.val entry.val else Reg.BT_CARVE core.val entry.val) v)

/-- FIREWALL_REGION_WRITE (R249, R250): BASE, LIMIT, MASK or CTRL of a region. -/
def execFirewallRegionWrite (t : Tag) (region : Fin 64) (reg : Fin 4) (v : Word) (s : State) : Host.Outcome State Fault Refusal := .next (s.writeRow t 0 (Reg.SAF_FWR_BASE region.val + 4 * reg.val) v)

/-- DDR_TRAINING_START (R246, R265). -/
def execDdrTrainingStart (t : Tag) (v : Word) (s : State) : Host.Outcome State Fault Refusal := .next (s.writeRow t 0 (Reg.MEM_DDR_CFG) (v ||| 0x20000000#32))

/-- RING_CTRL_WRITE (R301). -/
def execRingCtrlWrite (t : Tag) (ring : RingId) (v : Word) (s : State) : Host.Outcome State Fault Refusal := .next (s.writeRow t 0 (Reg.CMD_RING_CTRL ring.val) v)

/-- RING_SEQ_WRITE (R301): one word of SEQ. -/
def execRingSeqWrite (t : Tag) (ring : RingId) (high : Bool) (v : Word) (s : State) : Host.Outcome State Fault Refusal := .next (s.writeRow t 0 (Reg.CMD_RING_SEQ ring.val + (if high then 4 else 0)) v)

/-- STALL_ENABLE (R304). -/
def execStallEnable (t : Tag) (stall : StallId) (v : Word) (s : State) : Host.Outcome State Fault Refusal := .next (s.writeRow t 0 (Reg.SCH_STALL_CTRL stall.val) (v ||| 0x80000000#32))

/-- STALL_DISABLE (R304). -/
def execStallDisable (t : Tag) (stall : StallId) (v : Word) (s : State) : Host.Outcome State Fault Refusal := .next (s.writeRow t 0 (Reg.SCH_STALL_CTRL stall.val) (v &&& ~~~0x80000000#32))

/-- STALL_RESET (R306). -/
def execStallReset (t : Tag) (stall : StallId) (v : Word) (s : State) : Host.Outcome State Fault Refusal := .next (s.writeRow t 0 (Reg.SCH_STALL_CTRL stall.val) (v ||| 0x20000000#32))

/-- GRAPH_ENABLE (R310). -/
def execGraphEnable (t : Writer) (graph : GraphId) (v : Word) (s : State) : Host.Outcome State Fault Refusal := .next (s.writeRow t.tag t.session.toNat (Reg.SCH_GRAPH_CTRL graph.val) (v ||| 0x80000000#32))

/-- GRAPH_DISABLE (R310). -/
def execGraphDisable (t : Writer) (graph : GraphId) (v : Word) (s : State) : Host.Outcome State Fault Refusal := .next (s.writeRow t.tag t.session.toNat (Reg.SCH_GRAPH_CTRL graph.val) (v &&& ~~~0x80000000#32))

/-- STREAM_ENABLE (R331). -/
def execStreamEnable (t : Tag) (stream : StreamId) (v : Word) (s : State) : Host.Outcome State Fault Refusal := .next (s.writeRow t 0 (Reg.ING_STR_CTRL stream.val) (v ||| 0x80000000#32))

/-- STREAM_DISABLE (R331). -/
def execStreamDisable (t : Tag) (stream : StreamId) (v : Word) (s : State) : Host.Outcome State Fault Refusal := .next (s.writeRow t 0 (Reg.ING_STR_CTRL stream.val) (v &&& ~~~0x80000000#32))

/-- TIM_INCREMENT_COMMIT (R365). -/
def execTimIncrementCommit (t : Tag) (v : Word) (s : State) : Host.Outcome State Fault Refusal := .next (s.writeRow t 0 (Reg.TIM_INCREMENT_NS) v)

/-- TIM_STEP_REQUEST (R367). -/
def execTimStepRequest (t : Tag) (v : Word) (s : State) : Host.Outcome State Fault Refusal := .next (s.writeRow t 0 (Reg.TIM_CTRL) (v ||| 0x80000000#32))

/-- TIM_DECLARE (R370). -/
def execTimDeclare (t : Tag) (v : Word) (s : State) : Host.Outcome State Fault Refusal := .next (s.writeRow t 0 (Reg.TIM_CTRL) (v ||| 0x40000000#32))

/-- TIM_UNDECLARE (R370). -/
def execTimUndeclare (t : Tag) (v : Word) (s : State) : Host.Outcome State Fault Refusal := .next (s.writeRow t 0 (Reg.TIM_CTRL) (v ||| 0x20000000#32))

/-- TRIG_OUT_ARM (R377). -/
def execTrigOutArm (t : Tag) (pin : Fin 8) (v : Word) (s : State) : Host.Outcome State Fault Refusal := .next (s.writeRow t 0 (Reg.TIM_TRIG_CTRL pin.val) (v ||| 0x80000000#32))

/-- TRIG_OUT_DISARM (R377). -/
def execTrigOutDisarm (t : Tag) (pin : Fin 8) (v : Word) (s : State) : Host.Outcome State Fault Refusal := .next (s.writeRow t 0 (Reg.TIM_TRIG_CTRL pin.val) (v &&& ~~~0x80000000#32))

/-- PPS_ENABLE (R378). -/
def execPpsEnable (t : Tag) (v : Word) (s : State) : Host.Outcome State Fault Refusal := .next (s.writeRow t 0 (Reg.TIM_PPS_CTRL) (v ||| 0x80000000#32))

/-- MGMT_RX_POP (R394). -/
def execMgmtRxPop (t : Tag) (port : PortId) (v : Word) (s : State) : Host.Outcome State Fault Refusal := .next (s.writeRow t 0 (Reg.ETH_MGMT_RX_STATUS port.val) (v ||| 0x40000000#32))

/-- MGMT_TX_SEND (R394). -/
def execMgmtTxSend (t : Tag) (port : PortId) (v : Word) (s : State) : Host.Outcome State Fault Refusal := .next (s.writeRow t 0 (Reg.ETH_MGMT_TX_CTRL port.val) (v ||| 0x80000000#32))

/-- WINDOW_BIND (R402). -/
def execWindowBind (t : Tag) (session : BitVec 16) (win : BitVec 8) (v : Word) (s : State) : Host.Outcome State Fault Refusal := .next (s.writeRow t session.toNat (Reg.BAR_WIN win.toNat) (v ||| 0x40000000#32))

/-- WINDOW_UNBIND (R402, R403). -/
def execWindowUnbind (t : Tag) (session : BitVec 16) (win : BitVec 8) (v : Word) (s : State) : Host.Outcome State Fault Refusal := .next (s.writeRow t session.toNat (Reg.BAR_WIN win.toNat) (v ||| 0x20000000#32))

/-- OWNER_DISCARD (R403). -/
def execOwnerDiscard (t : Tag) (session : BitVec 16) (v : Word) (s : State) : Host.Outcome State Fault Refusal := .next (s.writeRow t session.toNat (Reg.BAR_OWNER) (v ||| 0x40000000#32))

/-- AGE_MONITOR_ENABLE (R430). -/
def execAgeMonitorEnable (t : Tag) (monitor : Fin 64) (v : Word) (s : State) : Host.Outcome State Fault Refusal := .next (s.writeRow t 0 (Reg.SAF_AGE_CTRL monitor.val) (v ||| 0x80000000#32))

/-- TAL_PENDING_CLEAR (R445). -/
def execTalPendingClear (t : Tag) (n : Fin 6) (v : Word) (s : State) : Host.Outcome State Fault Refusal := .next (s.writeRow t 0 (Reg.TAL_PENDING n.val) v)

/-- TAL_FIRST_REARM (R449). -/
def execTalFirstRearm (t : Tag) (v : Word) (s : State) : Host.Outcome State Fault Refusal := .next (s.writeRow t 0 (Reg.TAL_FIRST_CTRL) (v ||| 0x80000000#32))

/-- TAL_FRAME_DISABLE (R455). -/
def execTalFrameDisable (t : Tag) (v : Word) (s : State) : Host.Outcome State Fault Refusal := .next (s.writeRow t 0 (Reg.TAL_FRAME_CTRL) v)

/-- SWATCH_PACK_LOAD (R465). -/
def execSwatchPackLoad (t : Tag) (slot : Fin 4) (v : Word) (s : State) : Host.Outcome State Fault Refusal := .next (s.writeRow t 0 (Reg.TAL_SW_SLOT slot.val) (v ||| 0x20000000#32))

/-- FW_ACTIVATE (R478). -/
def execFwActivate (t : Tag) (v : Word) (s : State) : Host.Outcome State Fault Refusal := .next (s.writeRow t 0 (Reg.FW_ACTIVATE) (v ||| 0x80000000#32))

/-- NOR_ERASE (R477): START with OP 1. -/
def execNorErase (t : Tag) (v : Word) (s : State) : Host.Outcome State Fault Refusal := .next (s.writeRow t 0 (Reg.SEC_NOR_CTRL) ((v ||| 0x81000000#32) &&& ~~~0x02000000#32))

/-- NOR_PROGRAM (R477): START with OP 2. -/
def execNorProgram (t : Tag) (v : Word) (s : State) : Host.Outcome State Fault Refusal := .next (s.writeRow t 0 (Reg.SEC_NOR_CTRL) ((v ||| 0x82000000#32) &&& ~~~0x01000000#32))

/-- ROLLBACK_COMMIT (R479). -/
def execRollbackCommit (t : Tag) (v : Word) (s : State) : Host.Outcome State Fault Refusal := .next (s.writeRow t 0 (Reg.SEC_ROLLBACK_COMMIT) (v ||| 0x80000000#32))

/-- LIFECYCLE_REQUEST (R480). -/
def execLifecycleRequest (t : Tag) (v : Word) (s : State) : Host.Outcome State Fault Refusal := .next (s.writeRow t 0 (Reg.SEC_LC_CTRL) (v ||| 0x80000000#32))

/-- MAP_CLEAR (R480). -/
def execMapClear (t : Tag) (v : Word) (s : State) : Host.Outcome State Fault Refusal := .next (s.writeRow t 0 (Reg.SEC_LC_CTRL) (v ||| 0x40000000#32))

/-- FW_RESTART_REQUEST (R481). -/
def execFwRestartRequest (t : Tag) (proc : Fin 7) (v : Word) (s : State) : Host.Outcome State Fault Refusal := .next (s.writeRow t 0 (Reg.FW_PROC proc.val) (v ||| 0x80000000#32))

/-- FW_TEST_RESTART (R483). -/
def execFwTestRestart (t : Tag) (proc : Fin 7) (v : Word) (s : State) : Host.Outcome State Fault Refusal := .next (s.writeRow t 0 (Reg.FW_PROC proc.val) (v ||| 0x20000000#32))

/-- KEY_LOAD (R487). -/
def execKeyLoad (t : Tag) (v : Word) (s : State) : Host.Outcome State Fault Refusal := .next (s.writeRow t 0 (Reg.SEC_KEY_CTRL) (v ||| 0x80000000#32))

/-- ATTEST_START (R490). -/
def execAttestStart (t : Tag) (v : Word) (s : State) : Host.Outcome State Fault Refusal := .next (s.writeRow t 0 (Reg.SEC_ATTEST_CTRL) (v ||| 0x80000000#32))

/-- STANDBY_ENTER_REQUEST (R496): REQUEST = 1. -/
def execStandbyEnterRequest (t : Tag) (v : Word) (s : State) : Host.Outcome State Fault Refusal := .next (s.writeRow t 0 (Reg.PWR_STATE) ((v ||| 0x10000000#32) &&& ~~~0x20000000#32))

/-- STANDBY_EXIT_REQUEST (R497): REQUEST = 2. -/
def execStandbyExitRequest (t : Tag) (v : Word) (s : State) : Host.Outcome State Fault Refusal := .next (s.writeRow t 0 (Reg.PWR_STATE) ((v ||| 0x20000000#32) &&& ~~~0x10000000#32))

/-- CLUSTER_GATE (R495). -/
def execClusterGate (t : Tag) (cluster : ClusterId) (v : Word) (s : State) : Host.Outcome State Fault Refusal := .next (s.writeRow t 0 (Reg.PWR_CLUSTER_C cluster.val) (v ||| 0x80000000#32))

/-- CLUSTER_UNGATE (R495). -/
def execClusterUngate (t : Tag) (cluster : ClusterId) (v : Word) (s : State) : Host.Outcome State Fault Refusal := .next (s.writeRow t 0 (Reg.PWR_CLUSTER_C cluster.val) (v &&& ~~~0x80000000#32))

/-- PACE_MIN_CLEAR (R43). -/
def execPaceMinClear (t : Tag) (cluster : ClusterId) (v : Word) (s : State) : Host.Outcome State Fault Refusal := .next (s.writeRow t 0 (Reg.PWR_PACE_MIN_C cluster.val) (v ||| 0x80000000#32))

/-- PACE_CAP_WRITE (R45): by the power core. -/
def execPaceCapWrite (t : Tag) (cluster : ClusterId) (v : Word) (s : State) : Host.Outcome State Fault Refusal := .next (s.writeRow t 0 (Reg.PWR_PACE_CAP_C cluster.val) v)

/-- WARM_RESET_REQUEST (R514). -/
def execWarmResetRequest (t : Tag) (v : Word) (s : State) : Host.Outcome State Fault Refusal := .next (s.writeRow t 0 (Reg.PWR_RESET) (v ||| 0x80000000#32))

/-- CLUSTER_RESET (R514): without WARM, which would prevail. -/
def execClusterReset (t : Tag) (v : Word) (s : State) : Host.Outcome State Fault Refusal := .next (s.writeRow t 0 (Reg.PWR_RESET) ((v ||| 0x40000000#32) &&& ~~~0x80000000#32))

/-- CORE_RESET (R514): without WARM and CLUSTER, which would prevail. -/
def execCoreReset (t : Tag) (v : Word) (s : State) : Host.Outcome State Fault Refusal := .next (s.writeRow t 0 (Reg.PWR_RESET) ((v ||| 0x20000000#32) &&& ~~~0xC0000000#32))

/-- BIL_PORT_ENABLE (R525). -/
def execBilPortEnable (t : Tag) (port : PortId) (v : Word) (s : State) : Host.Outcome State Fault Refusal := .next (s.writeRow t 0 (Reg.BIL_PORT_CTRL port.val) (v ||| 0x80000000#32))

/-- BIL_PORT_DISABLE (R528). -/
def execBilPortDisable (t : Tag) (port : PortId) (v : Word) (s : State) : Host.Outcome State Fault Refusal := .next (s.writeRow t 0 (Reg.BIL_PORT_CTRL port.val) (v &&& ~~~0x80000000#32))

/-- CAPTURE_RECORD_READ (R374): a read of word 0 of a TS_IN or 802.1AS record register; there are three of the latter. -/
def execCaptureRecordRead (t : Tag) (ptp : Bool) (n : Fin 4) (s : State) : Host.Outcome State Fault Refusal :=
  .next (s.readRow t (if ptp then Reg.TIM_PTP_REC n.val else Reg.TIM_TSIN_REC n.val))

/-- BIL_PEER_FAULT_READ (R534): a read of word 0 of a forwarded record. -/
def execBilPeerFaultRead (t : Tag) (port : PortId) (s : State) : Host.Outcome State Fault Refusal := .next (s.readRow t (Reg.BIL_PEER_FAULT port.val))

/-- REGISTER_WRITE (R9): a write of any register; an address outside the register space names none. [DESIGN CHOICE, log entry 12] -/
def execRegisterWrite (t : Tag) (session : BitVec 16) (addr : BitVec 40) (v : Word) (s : State) : Host.Outcome State Fault Refusal :=
  .next (match regionOf addr.toNat with
    | .regs off => s.writeRow t session.toNat off v
    | _ => s)

end Sys2Proof.Machine
end

