-- ==== Sys2Proof/Machine/Dispatch.lean ====
section
/-! DEFINITION. One arm per command: the meaning it calls. -/
namespace Sys2Proof.Machine

/-- What a command does to everything but the queue. -/
def exec (i : Instr) (s : State) : Host.Outcome State Fault Refusal :=
  match i with
  | .twillPass job idx => Sys2Proof.Machine.execTwillPass job idx s
  | .convTile job idx => Sys2Proof.Machine.execConvTile job idx s
  | .fusedTiles job idx => Sys2Proof.Machine.execFusedTiles job idx s
  | .tidyChain job idx faults => Sys2Proof.Machine.execTidyChain job idx faults s
  | .attnBlock job idx faults lanes => Sys2Proof.Machine.execAttnBlock job idx faults lanes s
  | .decodeBatch job idx faults => Sys2Proof.Machine.execDecodeBatch job idx faults s
  | .kvScatter job idx => Sys2Proof.Machine.execKvScatter job idx s
  | .ctxCreate job idx => Sys2Proof.Machine.execCtxCreate job idx s
  | .ctxReset job idx => Sys2Proof.Machine.execCtxReset job idx s
  | .move job idx => Sys2Proof.Machine.execMove job idx s
  | .fence job idx => Sys2Proof.Machine.execFence job idx s
  | .signal job idx => Sys2Proof.Machine.execSignal job idx s
  | .waitTime job idx => Sys2Proof.Machine.execWaitTime job idx s
  | .publish job idx => Sys2Proof.Machine.execPublish job idx s
  | .statsRead job idx => Sys2Proof.Machine.execStatsRead job idx s
  | .sensorWrite job idx => Sys2Proof.Machine.execSensorWrite job idx s
  | .digestRegister job idx => Sys2Proof.Machine.execDigestRegister job idx s
  | .digestCheck job idx => Sys2Proof.Machine.execDigestCheck job idx s
  | .digestPeer job idx peer => Sys2Proof.Machine.execDigestPeer job idx peer s
  | .digestRelease job idx => Sys2Proof.Machine.execDigestRelease job idx s
  | .chunkReady core waited => Sys2Proof.Machine.execChunkReady core waited s
  | .passDrainComplete core faults => Sys2Proof.Machine.execPassDrainComplete core faults s
  | .ledgerRerun core => Sys2Proof.Machine.execLedgerRerun core s
  | .warp16LowPass core => Sys2Proof.Machine.execWarp16LowPass core s
  | .escalationStageEnter unit => Sys2Proof.Machine.execEscalationStageEnter unit s
  | .regulatorSettled cluster ok mv => Sys2Proof.Machine.execRegulatorSettled cluster ok mv s
  | .probe unit => Sys2Proof.Machine.execProbe unit s
  | .probeComplete unit passes steps bad known => Sys2Proof.Machine.execProbeComplete unit passes steps bad known s
  | .disabledMapApply core => Sys2Proof.Machine.execDisabledMapApply core s
  | .twLedgerInjectArm t core v => Sys2Proof.Machine.execTwLedgerInjectArm t core v s
  | .tdInjectArm t core unit v => Sys2Proof.Machine.execTdInjectArm t core unit v s
  | .convRunComplete core faults => Sys2Proof.Machine.execConvRunComplete core faults s
  | .lineStoreSlotFilled core waited => Sys2Proof.Machine.execLineStoreSlotFilled core waited s
  | .wfLineHwmClear t core v => Sys2Proof.Machine.execWfLineHwmClear t core v s
  | .contextGrant job idx => Sys2Proof.Machine.execContextGrant job idx s
  | .eccWriteback addr => Sys2Proof.Machine.execEccWriteback addr s
  | .patrolScrubRead core late => Sys2Proof.Machine.execPatrolScrubRead core late s
  | .scrubLate core => Sys2Proof.Machine.execScrubLate core s
  | .btEccInjectArm t core v => Sys2Proof.Machine.execBtEccInjectArm t core v s
  | .memEccInjectArm t v => Sys2Proof.Machine.execMemEccInjectArm t v s
  | .carveOutWrite t core skein entry v => Sys2Proof.Machine.execCarveOutWrite t core skein entry v s
  | .firewallRegionWrite t region reg v => Sys2Proof.Machine.execFirewallRegionWrite t region reg v s
  | .firewallInitDone region => Sys2Proof.Machine.execFirewallInitDone region s
  | .ddrTrainingStart t v => Sys2Proof.Machine.execDdrTrainingStart t v s
  | .ddrTrainingDone failed => Sys2Proof.Machine.execDdrTrainingDone failed s
  | .hramAccessTimeout addr => Sys2Proof.Machine.execHramAccessTimeout addr s
  | .doorbell session seq ring seqEnd => Sys2Proof.Machine.execDoorbell session seq ring seqEnd s
  | .entryFetched ring data => Sys2Proof.Machine.execEntryFetched ring data s
  | .entryReread ring => Sys2Proof.Machine.execEntryReread ring s
  | .entryJournalled ring => Sys2Proof.Machine.execEntryJournalled ring s
  | .jobPlace job data => Sys2Proof.Machine.execJobPlace job data s
  | .commandStart job idx errs links => Sys2Proof.Machine.execCommandStart job idx errs links s
  | .commandEnd job idx => Sys2Proof.Machine.execCommandEnd job idx s
  | .jobComplete job => Sys2Proof.Machine.execJobComplete job s
  | .completionPublish ring => Sys2Proof.Machine.execCompletionPublish ring s
  | .completionWriteAcked ring => Sys2Proof.Machine.execCompletionWriteAcked ring s
  | .jobDeadlinePassed job => Sys2Proof.Machine.execJobDeadlinePassed job s
  | .ringCtrlWrite t ring v => Sys2Proof.Machine.execRingCtrlWrite t ring v s
  | .ringSeqWrite t ring high v => Sys2Proof.Machine.execRingSeqWrite t ring high v s
  | .stallEnable t stall v => Sys2Proof.Machine.execStallEnable t stall v s
  | .stallDisable t stall v => Sys2Proof.Machine.execStallDisable t stall v s
  | .stallCarveRelease stall => Sys2Proof.Machine.execStallCarveRelease stall s
  | .stallReset t stall v => Sys2Proof.Machine.execStallReset t stall v s
  | .graphEnable t graph v => Sys2Proof.Machine.execGraphEnable t graph v s
  | .graphDisable t graph v => Sys2Proof.Machine.execGraphDisable t graph v s
  | .graphTriggerHoldEnd graph => Sys2Proof.Machine.execGraphTriggerHoldEnd graph s
  | .pendingInstanceStart graph => Sys2Proof.Machine.execPendingInstanceStart graph s
  | .nodeEligible graph inst node => Sys2Proof.Machine.execNodeEligible graph inst node s
  | .instanceEnd graph inst => Sys2Proof.Machine.execInstanceEnd graph inst s
  | .instanceDeadlinePassed graph inst node => Sys2Proof.Machine.execInstanceDeadlinePassed graph inst node s
  | .preemptionRequest core job => Sys2Proof.Machine.execPreemptionRequest core job s
  | .preemptionSwitch core => Sys2Proof.Machine.execPreemptionSwitch core s
  | .spillComplete core => Sys2Proof.Machine.execSpillComplete core s
  | .restoreComplete core job => Sys2Proof.Machine.execRestoreComplete core job s
  | .beSliceEnd slice => Sys2Proof.Machine.execBeSliceEnd slice s
  | .selftestSlicePlace core => Sys2Proof.Machine.execSelftestSlicePlace core s
  | .streamEnable t stream v => Sys2Proof.Machine.execStreamEnable t stream v s
  | .streamDisable t stream v => Sys2Proof.Machine.execStreamDisable t stream v s
  | .csiFrameStart port vc ecc => Sys2Proof.Machine.execCsiFrameStart port vc ecc s
  | .csiLongPacket port vc dt ecc codes crcOk => Sys2Proof.Machine.execCsiLongPacket port vc dt ecc codes crcOk s
  | .csiFrameEnd port vc ecc => Sys2Proof.Machine.execCsiFrameEnd port vc ecc s
  | .csiLinkError port lane lost => Sys2Proof.Machine.execCsiLinkError port lane lost s
  | .frameTimeout stream => Sys2Proof.Machine.execFrameTimeout stream s
  | .handoverStart stream => Sys2Proof.Machine.execHandoverStart stream s
  | .handoverComplete stream => Sys2Proof.Machine.execHandoverComplete stream s
  | .ispFrameStart => Sys2Proof.Machine.execIspFrameStart s
  | .ispFrameComplete inLine disagree => Sys2Proof.Machine.execIspFrameComplete inLine disagree s
  | .settingIssue stream => Sys2Proof.Machine.execSettingIssue stream s
  | .sensorBusDone stream ok => Sys2Proof.Machine.execSensorBusDone stream ok s
  | .timIncrementCommit t v => Sys2Proof.Machine.execTimIncrementCommit t v s
  | .timStepRequest t v => Sys2Proof.Machine.execTimStepRequest t v s
  | .timStepApply => Sys2Proof.Machine.execTimStepApply s
  | .timDeclare t v => Sys2Proof.Machine.execTimDeclare t v s
  | .timUndeclare t v => Sys2Proof.Machine.execTimUndeclare t v s
  | .syncLeaseExpire => Sys2Proof.Machine.execSyncLeaseExpire s
  | .tsInEdge pin rising => Sys2Proof.Machine.execTsInEdge pin rising s
  | .captureRecordRead t ptp n => Sys2Proof.Machine.execCaptureRecordRead t ptp n s
  | .trigOutArm t pin v => Sys2Proof.Machine.execTrigOutArm t pin v s
  | .trigOutDisarm t pin v => Sys2Proof.Machine.execTrigOutDisarm t pin v s
  | .trigOutActiveEdge pin => Sys2Proof.Machine.execTrigOutActiveEdge pin s
  | .trigOutInactiveEdge pin => Sys2Proof.Machine.execTrigOutInactiveEdge pin s
  | .ppsEnable t v => Sys2Proof.Machine.execPpsEnable t v s
  | .ppsPulse => Sys2Proof.Machine.execPpsPulse s
  | .ppsPulseEnd => Sys2Proof.Machine.execPpsPulseEnd s
  | .waitTimeReached job idx => Sys2Proof.Machine.execWaitTimeReached job idx s
  | .fenceConditionMet job idx => Sys2Proof.Machine.execFenceConditionMet job idx s
  | .statsRecordWritten job idx => Sys2Proof.Machine.execStatsRecordWritten job idx s
  | .sensorQueueSpace job idx => Sys2Proof.Machine.execSensorQueueSpace job idx s
  | .publishQueueSpace job idx => Sys2Proof.Machine.execPublishQueueSpace job idx s
  | .launchTimeReached port queue => Sys2Proof.Machine.execLaunchTimeReached port queue s
  | .ethTxFrameStart port => Sys2Proof.Machine.execEthTxFrameStart port s
  | .publishLastFrameSent job idx => Sys2Proof.Machine.execPublishLastFrameSent job idx s
  | .bilTimeExchange port flight phase t2 t3 stepped => Sys2Proof.Machine.execBilTimeExchange port flight phase t2 t3 stepped s
  | .bilTimeTimeout port => Sys2Proof.Machine.execBilTimeTimeout port s
  | .ethFrameReceive port frame => Sys2Proof.Machine.execEthFrameReceive port frame s
  | .ethLinkChange port up => Sys2Proof.Machine.execEthLinkChange port up s
  | .mgmtRxPop t port v => Sys2Proof.Machine.execMgmtRxPop t port v s
  | .mgmtTxSend t port v => Sys2Proof.Machine.execMgmtTxSend t port v s
  | .barrowOpen port src body => Sys2Proof.Machine.execBarrowOpen port src body s
  | .claim session seq body => Sys2Proof.Machine.execClaim session seq body s
  | .release session seq body => Sys2Proof.Machine.execRelease session seq body s
  | .heartbeat session seq body => Sys2Proof.Machine.execHeartbeat session seq body s
  | .regRead session seq body => Sys2Proof.Machine.execRegRead session seq body s
  | .regWrite session seq body => Sys2Proof.Machine.execRegWrite session seq body s
  | .hostReadWrite session seq body => Sys2Proof.Machine.execHostReadWrite session seq body s
  | .barrowAck session ackSeq body => Sys2Proof.Machine.execBarrowAck session ackSeq body s
  | .barrowNack session ackSeq body => Sys2Proof.Machine.execBarrowNack session ackSeq body s
  | .barrowRetransmit session => Sys2Proof.Machine.execBarrowRetransmit session s
  | .sessionIdleTimeout session => Sys2Proof.Machine.execSessionIdleTimeout session s
  | .claimLeaseExpire session => Sys2Proof.Machine.execClaimLeaseExpire session s
  | .electionWindowEnd => Sys2Proof.Machine.execElectionWindowEnd s
  | .windowBind t session win v => Sys2Proof.Machine.execWindowBind t session win v s
  | .windowUnbind t session win v => Sys2Proof.Machine.execWindowUnbind t session win v s
  | .ownerDiscard t session v => Sys2Proof.Machine.execOwnerDiscard t session v s
  | .ageWatchdogExpire monitor => Sys2Proof.Machine.execAgeWatchdogExpire monitor s
  | .ageMonitorEnable t monitor v => Sys2Proof.Machine.execAgeMonitorEnable t monitor v s
  | .digestRoundStart => Sys2Proof.Machine.execDigestRoundStart s
  | .digestRoundEnd => Sys2Proof.Machine.execDigestRoundEnd s
  | .faultMessageArrive source => Sys2Proof.Machine.execFaultMessageArrive source s
  | .coalesceWindowClose => Sys2Proof.Machine.execCoalesceWindowClose s
  | .faultNMinLowEnd => Sys2Proof.Machine.execFaultNMinLowEnd s
  | .aliveToggle => Sys2Proof.Machine.execAliveToggle s
  | .refClockLost => Sys2Proof.Machine.execRefClockLost s
  | .islandCheck => Sys2Proof.Machine.execIslandCheck s
  | .faultFrameSend => Sys2Proof.Machine.execFaultFrameSend s
  | .statusFrameSend => Sys2Proof.Machine.execStatusFrameSend s
  | .faultFrameRepeat => Sys2Proof.Machine.execFaultFrameRepeat s
  | .talPendingClear t n v => Sys2Proof.Machine.execTalPendingClear t n v s
  | .talFirstRearm t v => Sys2Proof.Machine.execTalFirstRearm t v s
  | .talFrameDisable t v => Sys2Proof.Machine.execTalFrameDisable t v s
  | .swatchSliceRequest => Sys2Proof.Machine.execSwatchSliceRequest s
  | .swatchDeferRetry core => Sys2Proof.Machine.execSwatchDeferRetry core s
  | .swatchSliceEnd core result => Sys2Proof.Machine.execSwatchSliceEnd core result s
  | .selftestStarved core => Sys2Proof.Machine.execSelftestStarved core s
  | .swatchPackLoad t slot v => Sys2Proof.Machine.execSwatchPackLoad t slot v s
  | .swatchPackVerified slot => Sys2Proof.Machine.execSwatchPackVerified slot s
  | .porstNAssert => Sys2Proof.Machine.execPorstNAssert s
  | .powerOnReset straps => Sys2Proof.Machine.execPowerOnReset straps s
  | .pllLock => Sys2Proof.Machine.execPllLock s
  | .alignmentEdge => Sys2Proof.Machine.execAlignmentEdge s
  | .alignmentDone ok => Sys2Proof.Machine.execAlignmentDone ok s
  | .bootImageCheck => Sys2Proof.Machine.execBootImageCheck s
  | .bootComplete => Sys2Proof.Machine.execBootComplete s
  | .fwActivate t v => Sys2Proof.Machine.execFwActivate t v s
  | .norErase t v => Sys2Proof.Machine.execNorErase t v s
  | .norProgram t v => Sys2Proof.Machine.execNorProgram t v s
  | .norOpComplete => Sys2Proof.Machine.execNorOpComplete s
  | .rollbackCommit t v => Sys2Proof.Machine.execRollbackCommit t v s
  | .lifecycleRequest t v => Sys2Proof.Machine.execLifecycleRequest t v s
  | .mapClear t v => Sys2Proof.Machine.execMapClear t v s
  | .fwRestartRequest t proc v => Sys2Proof.Machine.execFwRestartRequest t proc v s
  | .fwTestRestart t proc v => Sys2Proof.Machine.execFwTestRestart t proc v s
  | .fwWatchdogExpire proc => Sys2Proof.Machine.execFwWatchdogExpire proc s
  | .fwRestartComplete proc reloaded damaged => Sys2Proof.Machine.execFwRestartComplete proc reloaded damaged s
  | .fwRestartTimeout proc => Sys2Proof.Machine.execFwRestartTimeout proc s
  | .keyLoad t v => Sys2Proof.Machine.execKeyLoad t v s
  | .attestStart t v => Sys2Proof.Machine.execAttestStart t v s
  | .attestDone => Sys2Proof.Machine.execAttestDone s
  | .standbyEnterRequest t v => Sys2Proof.Machine.execStandbyEnterRequest t v s
  | .standbyEnterComplete => Sys2Proof.Machine.execStandbyEnterComplete s
  | .standbyExitRequest t v => Sys2Proof.Machine.execStandbyExitRequest t v s
  | .standbyExitComplete => Sys2Proof.Machine.execStandbyExitComplete s
  | .clusterGate t cluster v => Sys2Proof.Machine.execClusterGate t cluster v s
  | .clusterIdleEnter cluster => Sys2Proof.Machine.execClusterIdleEnter cluster s
  | .clusterUngate t cluster v => Sys2Proof.Machine.execClusterUngate t cluster v s
  | .paceWindow cluster count => Sys2Proof.Machine.execPaceWindow cluster count s
  | .paceMinClear t cluster v => Sys2Proof.Machine.execPaceMinClear t cluster v s
  | .paceCapWrite t cluster v => Sys2Proof.Machine.execPaceCapWrite t cluster v s
  | .powerSample deciwatts => Sys2Proof.Machine.execPowerSample deciwatts s
  | .capLoopPeriod => Sys2Proof.Machine.execCapLoopPeriod s
  | .thermalSample temps => Sys2Proof.Machine.execThermalSample temps s
  | .thermalShutdown => Sys2Proof.Machine.execThermalShutdown s
  | .supplyLow mv => Sys2Proof.Machine.execSupplyLow mv s
  | .warmResetRequest t v => Sys2Proof.Machine.execWarmResetRequest t v s
  | .clusterReset t v => Sys2Proof.Machine.execClusterReset t v s
  | .coreReset t v => Sys2Proof.Machine.execCoreReset t v s
  | .wrstNAssert ns => Sys2Proof.Machine.execWrstNAssert ns s
  | .warmResetEnd => Sys2Proof.Machine.execWarmResetEnd s
  | .bilPortEnable t port v => Sys2Proof.Machine.execBilPortEnable t port v s
  | .bilPortDisable t port v => Sys2Proof.Machine.execBilPortDisable t port v s
  | .bilTrainingDone port r => Sys2Proof.Machine.execBilTrainingDone port r s
  | .bilTrainRetry port => Sys2Proof.Machine.execBilTrainRetry port s
  | .bilPacketReceive port p => Sys2Proof.Machine.execBilPacketReceive port p s
  | .bilRetryTimeout port => Sys2Proof.Machine.execBilRetryTimeout port s
  | .bilPartnerSilence port => Sys2Proof.Machine.execBilPartnerSilence port s
  | .bilPeerFaultRead t port => Sys2Proof.Machine.execBilPeerFaultRead t port s
  | .registerWrite t session addr v => Sys2Proof.Machine.execRegisterWrite t session addr v s
  | .regFault cluster mv => Sys2Proof.Machine.execRegFault cluster mv s
  | .csiLanesLocked port => Sys2Proof.Machine.execCsiLanesLocked port s
  | .tallyReady hram => Sys2Proof.Machine.execTallyReady hram s
  | .activationComplete => Sys2Proof.Machine.execActivationComplete s
  | .keyLoadComplete => Sys2Proof.Machine.execKeyLoadComplete s
  | .jtagTckEdge tms tdi trst => Sys2Proof.Machine.execJtagTckEdge tms tdi trst s

end Sys2Proof.Machine
end

