-- ==== Sys2Proof/Machine/Step.lean ====
section
/-!
DEFINITION. One step of the block: the command at the front of the queue, or a tick of the reference clock.
-/
namespace Sys2Proof.Machine

/-- The state without the front of its queue. -/
def State.popped (s : State) : State := { s with pending := s.pending.tail }

/-- One step: the command that waits longest acts on the rest; on an empty queue one 8 ns tick passes (R60, R364). -/
def step (s : State) : Host.Outcome State Fault Refusal :=
  match s.pending with
  | [] => .next s.idleTick
  | c :: _ => exec c s.popped

/-- The state with the command that a word spells at the front of its queue; no word spells one. [DESIGN CHOICE, log entry 3] -/
def State.withFetchWord (s : State) (nbits w : Nat) : State :=
  match decodeTableWord nbits w with
  | some c => { s with pending := c :: s.pending }
  | none => s

end Sys2Proof.Machine
end

