-- ==== Sys2Proof/Safety.lean ====
section
/-!
DEFINITION. The terms that statements about the block are written in: the canonical forms that every step keeps, what a
command leaves as it was, and when a register write goes through.
-/
namespace Sys2Proof.Machine

/-- Device memory and the registers are in their canonical forms: addresses rise, and no entry repeats what an unlisted address reads as. -/
abbrev State.canon (s : State) : Prop := Memory.wf s.mem = true ∧ tabWf resetWord s.regs = true

/-- The parts that the manual counts are there in their number: cores, clusters, processors, ports, rings, streams, graphs, slots, pins. -/
abbrev State.shaped (s : State) : Prop :=
  s.cores.length = 32 ∧ s.swr.cores.length = 32 ∧ s.fw.length = 7 ∧ s.eth.length = 3 ∧ s.bil.length = 3 ∧ s.streams.length = 128
  ∧ s.graphs.length = 64 ∧ s.cmd.rings.length = 64 ∧ s.age.length = 64 ∧ s.bar.slots.length = 8
  ∧ s.pwr.gated.length = 4 ∧ s.pwr.escCap.length = 4 ∧ s.pwr.pace.length = 4
  ∧ s.tim.trig.length = 8 ∧ s.tim.tsin.length = 4 ∧ s.tim.ptp.length = 3 ∧ s.tim.bil.length = 3
  ∧ s.board.rollback.length = 7 ∧ s.board.fused.length = 32 ∧ s.board.service.length = 32

/-- Every byte of device memory reads in t as in s. -/
def State.sameMem (s t : State) : Prop := ∀ a, t.byte a = s.byte a

/-- Every register word but those listed reads in t as in s. -/
def State.sameRegs (offs : List Nat) (s t : State) : Prop := ∀ o, o ∉ offs → t.rd o = s.rd o

/-- From s to t no register word changed but those listed, and no byte of memory. -/
def State.onlyRegs (offs : List Nat) (s t : State) : Prop := s.sameRegs offs t ∧ s.sameMem t

/-- The messages that wait for the Tally in t are those of s after one detection (R440). -/
abbrev State.tells (s t : State) (src kind stall addr : Nat) : Prop := t.tal.waiting = (s.report src kind stall addr).tal.waiting

/-- The block runs, and no barrier or permission refuses the tag's write of v to a register (R26, R45, R402, R404, R416, R418). -/
abbrev State.grants (s : State) (t : Tag) (session off : Nat) (v : Word) : Prop :=
  s.phase = .live ∧ off % 4 = 0 ∧ s.regDeny t session off (some v) = none

/-- Command i of job id. -/
def State.cmdOf (s : State) (id i : Nat) : Option Cmd := (s.job? id).bind fun j => j.cmd? i

/-- The status with which command i of job id is about to end. -/
def State.endsAs (s : State) (id i : Nat) : Option Nat := (s.cmdOf id i).bind fun c => if c.stage = .ending then some c.status else none

/-- Command i of job id, with an opcode, stands at a stage and may go on (R319). -/
abbrev State.goes (s : State) (id i op : Nat) (st : Stage) (j : Job) (c : Cmd) : Prop :=
  s.job? id = some j ∧ j.cmd? i = some c ∧ c.stage = st ∧ opcodeOf c.desc = op ∧ j.runs op = true

/-- The response that session n holds for a request: the frame it sent (R399). -/
def State.replied (s : State) (n seq : Nat) : Option (List Byte) :=
  ((s.session? n).bind fun x => x.resps.find? fun r => r.1 == seq).bind (·.2)

/-- A request comes next in the stream of an open session (R399). -/
abbrev State.hears (s : State) (session : BitVec 16) (seq : Word) (x : Session) : Prop :=
  s.session? session.toNat = some x ∧ seq.toNat = x.expect

/-- A transaction of a command ends with a status. -/
def endsWith {α : Type} (m : Run α) (s : State) (st : Nat) : Bool :=
  match (runOn m s).1 with
  | .error e => e == st
  | .ok _ => false

/-- The result of a transaction of a command; none where it ends with a status. -/
def okOf {α : Type} (m : Run α) (s : State) : Option α :=
  match (runOn m s).1 with
  | .error _ => none
  | .ok a => some a

/-- A line in memory stands ready: no word of it has an error, and no initialisation of its region runs (R239, R240, R248). -/
def State.calm (s : State) (a n : Nat) : Bool :=
  (s.marks a n).isEmpty
  && (match regionOf a with
    | .ddr => (s.fwRegion (a / 2 ^ 20)).all fun k => !s.bit (Reg.SAF_FWR_CTRL k) 8
    | _ => true)

/-- No link error waits for a read of the line (R247). -/
def State.linkClear (s : State) (a : Nat) : Bool :=
  match regionOf a with
  | .ddr => s.links.all fun l => l.1 != a / 256 % 16
  | _ => true

/-- Every line of n bytes from an address lets the tag read it, and the read meets no error, injected (by a command) or not (R26, R239 to R248). -/
def State.canRead (s : State) (command : Bool) (t : Tag) (a n : Nat) : Bool :=
  (lines a n).all fun l => (s.barrier t .read l.1 l.2).isNone && s.calm l.1 l.2 && s.linkClear l.1 && !(command && (s.injection l.1).isSome)

/-- A write to the address is not held back by a feeder that runs (R142). -/
def State.lineFree (s : State) (a : Nat) : Bool :=
  match regionOf a with
  | .line g _ => !s.bit (Reg.WF_STATUS g) 31
  | _ => true

/-- Every line of n bytes from an address lets the tag write it now, and the write meets no error (R26, R142, R240, R248). -/
def State.canWrite (s : State) (t : Tag) (a n : Nat) : Bool :=
  (lines a n).all fun l => (s.barrier t .write l.1 l.2).isNone && s.calm l.1 l.2 && s.lineFree l.1

/-- The K steps that a pass of TWILL_PASS reads from its core's bolt (R68, R80). -/
def State.stepsOf (s : State) (g : Nat) (t : TwillD) (low : Bool) : List KStep :=
  (List.range t.k).map fun n =>
    { weft := (List.range t.rows).map (weftRaw t.bits (s.view (boltAddr g t.weft + n * t.bits * 64) (t.bits * 64))),
      warp := warpValues t low (s.view (boltAddr g t.warp + n * t.warpStride) (t.cols * t.e)) }

/-- A core's skein holds no error, and none is injected there. -/
def State.skeinClear (s : State) (g : Nat) : Bool := (s.marks (skeinAddr g 0) 0xC0000).isEmpty && (s.injection (skeinAddr g 0)).isNone

/-- A pass of TWILL_PASS reads and stages its K steps without a refusal or an error (R26, R69, R229, R240). -/
def State.stepsReady (s : State) (tag : Tag) (g : Nat) (t : TwillD) : Bool :=
  s.skeinClear g && decide (t.bits ≤ 16) && decide (t.cols ≤ 512)
  && (List.range t.k).all fun n => s.canRead true tag (boltAddr g t.weft + n * t.bits * 64) (t.bits * 64) && s.canRead true tag (boltAddr g t.warp + n * t.warpStride) (t.cols * t.e)

/-- A TWILL_PASS that drains raw words and nothing beside them (R68, R74 to R80). -/
abbrev TwillD.raw (d : TwillD) : Prop :=
  d.warp16 = false ∧ d.argmax = false ∧ d.argmaxOnly = false ∧ d.fmt = 0 ∧ d.ovfMark = false ∧ d.rowScale = 0 ∧ d.colScale = 0

/-- A drain of raw words can write every output row. -/
def State.drainReady (s : State) (tag : Tag) (g : Nat) (d : TwillD) : Bool :=
  (List.range d.rows).all fun i => s.canWrite tag (boltAddr g d.out + i * d.outStride) (d.cols * 4)

/-- An address outside the chunk buffers of a core's skein (R229). -/
abbrev offChunks (g a : Nat) : Prop := a < skeinAddr g 0 ∨ skeinAddr g 0x60000 ≤ a

/-- No read of a command changes the byte: it lies in no context record, and in no region whose initialisation still runs (R221, R248). -/
abbrev State.keptByReads (s : State) (a : Nat) : Prop :=
  (a + 8 ≤ ctxAddr 0 ∨ ctxAddr 65536 + 8 ≤ a)
  ∧ ∀ k : Fin 64, s.bit (Reg.SAF_FWR_CTRL k.val) 8 = true →
    a < s.fld (Reg.SAF_FWR_BASE k.val) 15 0 * 2 ^ 20 ∨ (s.fld (Reg.SAF_FWR_BASE k.val) 15 0 + s.fwSize k.val) * 2 ^ 20 ≤ a

/-- The rows of a channel that a run needs, as the bolt holds them (R131, R135). -/
def State.planeOf (s : State) (g : Nat) (l : Layer) (need : List Nat × List Nat) (ch : Nat) : Plane :=
  match need.2.head?, need.2.getLast? with
  | some a, some b => ⟨a, need.1.map fun y => (y, s.view (boltAddr g l.inOff + ch * l.chStride + (y - l.storeY0) * l.rowStride + (a - l.storeX0)) (b + 1 - a))⟩
  | _, _ => ⟨0, []⟩

/-- The K steps of run r of a dense layer (R129, R130). -/
def State.runStepsOf (s : State) (g : Nat) (l : Layer) (r : Nat) : List KStep :=
  let q := l.run r
  denseSteps l q.1 q.2 ((List.range l.k).map fun n => (List.range l.cOut).map (weftRaw l.bits (s.view (boltAddr g l.weft + n * l.bits * 64) (l.bits * 64))))
    ((List.range l.cIn).map (s.planeOf g l (l.needs q.1 q.2)))

/-- n bytes at a bolt offset lie in the bolt, and the tag reads them without error. -/
def State.boltReady (s : State) (tag : Tag) (g o n : Nat) : Bool := decide (o + n ≤ 0x400000) && s.canRead true tag (boltAddr g o) n

/-- Run r of a dense layer reads its pixels and weft and stages its steps without a refusal or an error (R131, R135, R229, R240). -/
def State.runReady (s : State) (tag : Tag) (g : Nat) (l : Layer) (r : Nat) : Bool :=
  let need := l.needs (l.run r).1 (l.run r).2
  s.skeinClear g && decide (l.bits ≤ 16) && (s.injection (lineAddr g 0)).isNone && decide (2 * l.footprint r ≤ 196608)
  && (match need.2.head?, need.2.getLast? with
    | some a, some b => (List.range l.cIn).all fun ch => need.1.all fun y =>
      s.boltReady tag g (l.inOff + ch * l.chStride + (y - l.storeY0) * l.rowStride + (a - l.storeX0)) (b + 1 - a)
    | _, _ => true)
  && (List.range l.k).all fun n => s.boltReady tag g (l.weft + n * l.bits * 64) (l.bits * 64)

/-- What a step may do to the parts of the state that no rule of a command names: the queue stands, what was sent stays sent, time that is counted does not run back, and the canonical forms hold on. -/
structure State.Follows (s t : State) : Prop where
  pending : t.pending = s.pending
  out : s.out <+: t.out
  ref : t.refNs = s.refNs ∨ t.refNs = s.refNs + 8
  free : s.freeN ≤ t.freeN
  canon : s.canon → t.canon
  shaped : s.shaped → t.shaped

/-- A safe state: the canonical forms hold, and the step from it does not stop. -/
def State.safe (s : State) : Prop := s.canon ∧ ∃ t, step s = .next t

end Sys2Proof.Machine
end

