-- ==== Sys2Proof/WellFormed.lean ====
section
/-!
DEFINITION. Which commands the block can be given: the sizes of the operands that their types do not carry. A command
that is not well formed is one no outside party can send: a 64-byte entry read answered with 63 bytes, a sample of 19 sensors.
-/
namespace Sys2Proof

/-- A Bilvan message is well formed: a write carries 1 to 64 bytes (R523). -/
def BilMsg.wf : BilMsg → Bool
  | .write _ _ _ data => decide (1 ≤ data.length) && decide (data.length ≤ 64)
  | .signal .. => true
  | .record _ => true
  | .level _ => true

/-- A Bilvan packet is well formed when the message it carries is. -/
def BilPacket.wf : BilPacket → Bool
  | .msg _ m => m.wf
  | .ack .. => true
  | .nak => true
  | .bad => true

/-- A command is well formed: an entry read answers 64 bytes (R268), a peer sends seven image versions (R434, R525), a
sample has 20 sensors (R508), a frame holds its addresses, type and FCS (R386), a measured voltage fits its 12 bits. -/
def Instr.wf : Instr → Bool
  | .twillPass .. => true
  | .convTile .. => true
  | .fusedTiles .. => true
  | .tidyChain .. => true
  | .attnBlock .. => true
  | .decodeBatch .. => true
  | .kvScatter .. => true
  | .ctxCreate .. => true
  | .ctxReset .. => true
  | .move .. => true
  | .fence .. => true
  | .signal .. => true
  | .waitTime .. => true
  | .publish .. => true
  | .statsRead .. => true
  | .sensorWrite .. => true
  | .digestRegister .. => true
  | .digestCheck .. => true
  | .digestPeer _ _ peer => peer.versions.length == 7
  | .digestRelease .. => true
  | .chunkReady .. => true
  | .passDrainComplete .. => true
  | .ledgerRerun .. => true
  | .warp16LowPass .. => true
  | .escalationStageEnter .. => true
  | .regulatorSettled .. => true
  | .probe .. => true
  | .probeComplete .. => true
  | .disabledMapApply .. => true
  | .twLedgerInjectArm .. => true
  | .tdInjectArm .. => true
  | .convRunComplete .. => true
  | .lineStoreSlotFilled .. => true
  | .wfLineHwmClear .. => true
  | .contextGrant .. => true
  | .eccWriteback .. => true
  | .patrolScrubRead .. => true
  | .scrubLate .. => true
  | .btEccInjectArm .. => true
  | .memEccInjectArm .. => true
  | .carveOutWrite .. => true
  | .firewallRegionWrite .. => true
  | .firewallInitDone .. => true
  | .ddrTrainingStart .. => true
  | .ddrTrainingDone .. => true
  | .hramAccessTimeout .. => true
  | .doorbell .. => true
  | .entryFetched _ data => data.length == 64
  | .entryReread .. => true
  | .entryJournalled .. => true
  | .jobPlace .. => true
  | .commandStart .. => true
  | .commandEnd .. => true
  | .jobComplete .. => true
  | .completionPublish .. => true
  | .completionWriteAcked .. => true
  | .jobDeadlinePassed .. => true
  | .ringCtrlWrite .. => true
  | .ringSeqWrite .. => true
  | .stallEnable .. => true
  | .stallDisable .. => true
  | .stallCarveRelease .. => true
  | .stallReset .. => true
  | .graphEnable .. => true
  | .graphDisable .. => true
  | .graphTriggerHoldEnd .. => true
  | .pendingInstanceStart .. => true
  | .nodeEligible .. => true
  | .instanceEnd .. => true
  | .instanceDeadlinePassed .. => true
  | .preemptionRequest .. => true
  | .preemptionSwitch .. => true
  | .spillComplete .. => true
  | .restoreComplete .. => true
  | .beSliceEnd .. => true
  | .selftestSlicePlace .. => true
  | .streamEnable .. => true
  | .streamDisable .. => true
  | .csiFrameStart .. => true
  | .csiLongPacket .. => true
  | .csiFrameEnd .. => true
  | .csiLinkError .. => true
  | .frameTimeout .. => true
  | .handoverStart .. => true
  | .handoverComplete .. => true
  | .ispFrameStart => true
  | .ispFrameComplete .. => true
  | .settingIssue .. => true
  | .sensorBusDone .. => true
  | .timIncrementCommit .. => true
  | .timStepRequest .. => true
  | .timStepApply => true
  | .timDeclare .. => true
  | .timUndeclare .. => true
  | .syncLeaseExpire => true
  | .tsInEdge .. => true
  | .captureRecordRead .. => true
  | .trigOutArm .. => true
  | .trigOutDisarm .. => true
  | .trigOutActiveEdge .. => true
  | .trigOutInactiveEdge .. => true
  | .ppsEnable .. => true
  | .ppsPulse => true
  | .ppsPulseEnd => true
  | .waitTimeReached .. => true
  | .fenceConditionMet .. => true
  | .statsRecordWritten .. => true
  | .sensorQueueSpace .. => true
  | .publishQueueSpace .. => true
  | .launchTimeReached .. => true
  | .ethTxFrameStart .. => true
  | .publishLastFrameSent .. => true
  | .bilTimeExchange .. => true
  | .bilTimeTimeout .. => true
  | .ethFrameReceive _ frame => decide (18 ≤ frame.length)
  | .ethLinkChange .. => true
  | .mgmtRxPop .. => true
  | .mgmtTxSend .. => true
  | .barrowOpen .. => true
  | .claim .. => true
  | .release .. => true
  | .heartbeat .. => true
  | .regRead .. => true
  | .regWrite .. => true
  | .hostReadWrite .. => true
  | .barrowAck .. => true
  | .barrowNack .. => true
  | .barrowRetransmit .. => true
  | .sessionIdleTimeout .. => true
  | .claimLeaseExpire .. => true
  | .electionWindowEnd => true
  | .windowBind .. => true
  | .windowUnbind .. => true
  | .ownerDiscard .. => true
  | .ageWatchdogExpire .. => true
  | .ageMonitorEnable .. => true
  | .digestRoundStart => true
  | .digestRoundEnd => true
  | .faultMessageArrive .. => true
  | .coalesceWindowClose => true
  | .faultNMinLowEnd => true
  | .aliveToggle => true
  | .refClockLost => true
  | .islandCheck => true
  | .faultFrameSend => true
  | .statusFrameSend => true
  | .faultFrameRepeat => true
  | .talPendingClear .. => true
  | .talFirstRearm .. => true
  | .talFrameDisable .. => true
  | .swatchSliceRequest => true
  | .swatchDeferRetry .. => true
  | .swatchSliceEnd .. => true
  | .selftestStarved .. => true
  | .swatchPackLoad .. => true
  | .swatchPackVerified .. => true
  | .porstNAssert => true
  | .powerOnReset .. => true
  | .pllLock => true
  | .alignmentEdge => true
  | .alignmentDone .. => true
  | .bootImageCheck => true
  | .bootComplete => true
  | .fwActivate .. => true
  | .norErase .. => true
  | .norProgram .. => true
  | .norOpComplete => true
  | .rollbackCommit .. => true
  | .lifecycleRequest .. => true
  | .mapClear .. => true
  | .fwRestartRequest .. => true
  | .fwTestRestart .. => true
  | .fwWatchdogExpire .. => true
  | .fwRestartComplete .. => true
  | .fwRestartTimeout .. => true
  | .keyLoad .. => true
  | .attestStart .. => true
  | .attestDone => true
  | .standbyEnterRequest .. => true
  | .standbyEnterComplete => true
  | .standbyExitRequest .. => true
  | .standbyExitComplete => true
  | .clusterGate .. => true
  | .clusterIdleEnter .. => true
  | .clusterUngate .. => true
  | .paceWindow .. => true
  | .paceMinClear .. => true
  | .paceCapWrite .. => true
  | .powerSample .. => true
  | .capLoopPeriod => true
  | .thermalSample temps => temps.length == 20
  | .thermalShutdown => true
  | .supplyLow mv => decide (mv < 4096)
  | .warmResetRequest .. => true
  | .clusterReset .. => true
  | .coreReset .. => true
  | .wrstNAssert .. => true
  | .warmResetEnd => true
  | .bilPortEnable .. => true
  | .bilPortDisable .. => true
  | .bilTrainingDone _ r => r.images.length == 7
  | .bilTrainRetry .. => true
  | .bilPacketReceive _ p => p.wf
  | .bilRetryTimeout .. => true
  | .bilPartnerSilence .. => true
  | .bilPeerFaultRead .. => true
  | .registerWrite .. => true
  | .regFault .. => true
  | .csiLanesLocked .. => true
  | .tallyReady .. => true
  | .activationComplete => true
  | .keyLoadComplete => true
  | .jtagTckEdge .. => true

end Sys2Proof
end

