-- ==== Sys2Proof/Certificates/Slice0/Obligations.lean ====
section
/-!
DEFINITION. The statements about the block, for the provers: what a step is, the shared operations, and family by family
where a command completes, what it writes and what it leaves as it was. A hypothesis on a list's length is an invariant
of the state's shape: the block has the units the manual counts.
-/
open Sys2Proof Sys2Proof.Machine

/-! ### The step, the state after reset, the shared operations -/

/-- STEP RUNS THE FRONT COMMAND: a step takes the command that waits longest, runs it on the state with the rest of the queue and answers its outcome; with no command waiting a tick of the reference passes (both are the model's block form: log entries 1 and 2). -/
def Obligations.StepRunsFrontCommand : Prop :=
  (∀ (s : State) (c : Instr) (l : List Instr),
      s.pending = c :: l →
      step s = exec c { s with pending := l })
  ∧ (∀ (s : State),
      s.pending = [] →
      step s = .next s.idleTick)

/-- RESET: no command waits and nothing runs; the counter is 0 with the increment 8 ns and SYNCED 0; no job, session or owner exists; FAULT_N is low; BOOTED is 0 and every PACE cap reads 1500; the canonical forms hold. That an unlisted byte of memory reads 0 is the model's choice (log entry 4), and no clause states it. That reset is the moment after PORST_N rises on an unprovisioned board is the model's choice (log entries 8 and 9). -/
def Obligations.ResetState : Prop :=
        State.reset.pending = []
        ∧ State.reset.phase = .started
        ∧ State.reset.mem = []
        ∧ State.reset.canon
        ∧ State.reset.shaped
        ∧ State.reset.ns = 0
        ∧ State.reset.tim.incr = 8 * 2 ^ 32
        ∧ State.reset.synced = false
        ∧ State.reset.stepGen = 0
        ∧ State.reset.cmd.jobs = []
        ∧ State.reset.bar.owner = none
        ∧ State.reset.bar.slots = List.replicate 8 none
        ∧ State.reset.faultLow = true
        ∧ State.reset.bit Reg.PWR_STATE 31 = false
        ∧ (∀ c : Fin 4, State.reset.fld (Reg.PWR_PACE_CAP_C c) 11 0 = 1500)

/-- EXEC FOLLOWS: whatever the command and the state, the next state has the same queue, all that had been sent outside, no less reference time and no fewer free values taken, the canonical forms of memory and registers where the state had them, and the counted parts in their number. -/
def Obligations.ExecFollows : Prop :=
  ∀ (c : Instr) (s t : State),
      exec c s = .next t →
      s.Follows t

/-- INVARIANTS: a step from a state whose memory and registers are in canonical form answers a state in canonical form, whatever waits in the queue; and from a state with as many cores, processors, ports, rings, streams, graphs and session slots as the manual counts (R13) a step answers one with as many. -/
def Obligations.StepKeepsCanon : Prop :=
  (∀ (s t : State),
      s.canon →
      step s = .next t →
      t.canon)
  ∧ (∀ (s t : State),
      s.shaped →
      step s = .next t →
      t.shaped)

/-- A STEP ALWAYS ANSWERS: from every state the step gives a next state, but for SUPPLY_LOW with VDD_CORE below 0.66 V, where R546 guarantees no operation: that one stops. -/
def Obligations.OnlyBelowSurvivalStops : Prop :=
  ∀ (s : State),
      (∃ t, step s = .next t) ∨ (∃ mv l, mv < 660 ∧ s.pending = .supplyLow mv :: l ∧ step s = .fault .belowSurvival)

/-- REGISTER WORDS AND FIELDS (R6, R8): a word reads as last written and the others stand; a field written reads back and the fields apart from it stand; memory stands. REGISTER_WRITE (R26, R416): a write that no permission refuses takes effect; a refused one answers ERROR and changes no register; one outside the register space changes nothing (a choice of the model, log entry 12). -/
def Obligations.RegisterWrites : Prop :=
  (∀ (s : State) (off o : Nat) (v : Word),
      (s.wr off v).rd off = v
        ∧ (o ≠ off → (s.wr off v).rd o = s.rd o)
        ∧ (s.wr off v).mem = s.mem)
  ∧ (∀ (s : State) (off hi lo v h l : Nat),
      hi < 32 →
      lo ≤ hi →
      (s.setFld off hi lo v).fld off hi lo = v % 2 ^ (hi + 1 - lo)
        ∧ (h < lo ∨ hi < l → (s.setFld off hi lo v).fld off h l = s.fld off h l))
  ∧ (∀ (s : State) (off n m : Nat) (b : Bool),
      n < 32 →
      ((s.setBit off n b).bit off m = if m = n then b else s.bit off m))
  ∧ (∀ (s : State) (off v : Nat),
      v < 2 ^ 64 →
      (s.wr64 off v).rd64 off = v)
  ∧ (∀ (s : State) (t : Tag) (n : BitVec 16) (v : Word),
      s.grants t n.toNat Reg.TAL_HIST_RD v →
      ∃ u, exec (.registerWrite t n (BitVec.ofNat 40 (0x3000000000 + Reg.TAL_HIST_RD)) v) s = .next u
        ∧ u.rd Reg.TAL_HIST_RD = v
        ∧ s.onlyRegs [Reg.TAL_HIST_RD] u)
  ∧ (∀ (s : State) (t : Tag) (n : BitVec 16) (a : BitVec 40) (v : Word) (off : Nat),
      regionOf a.toNat = .regs off →
      (s.phase = .live ∧ off % 4 = 0 ∧ (s.regDeny t n.toNat off (some v)).isSome = true) →
      ∃ u, exec (.registerWrite t n a v) s = .next u
        ∧ u.out = s.out ++ [.error a.toNat]
        ∧ s.onlyRegs [] u)
  ∧ (∀ (s : State) (t : Tag) (n : BitVec 16) (a : BitVec 40) (v : Word),
      (match regionOf a.toNat with | .regs _ => false | _ => true) = true →
      ∃ u, exec (.registerWrite t n a v) s = .next u
        ∧ u = s)

/-- MEMORY BYTES (R7): bytes written read back in order, and every byte outside them stands; writing keeps the canonical form and every register. -/
def Obligations.MemoryWrites : Prop :=
  ∀ (s : State) (a : Nat) (l : List Byte),
      (s.poke a l).peek a l.length = l
        ∧ (∀ x, x < a ∨ a + l.length ≤ x → (s.poke a l).byte x = s.byte x)
        ∧ (s.canon → (s.poke a l).canon)
        ∧ (∀ o, (s.poke a l).rd o = s.rd o)

/-- A SOURCE'S FOUR PLACES (R440): a detection of a key that waits adds 1 to its COUNT and sends nothing new; else, with a place free, it waits as a message of its own with COUNT 1; with all four places taken it adds to a waiting message and none is added; no source comes to hold more than four. -/
def Obligations.DetectionMerges : Prop :=
  (∀ (s : State) (src kind stall addr i : Nat) (m : Msg),
      s.tal.waiting[i]? = some m →
      (m.source = src ∧ m.kind = kind ∧ m.addr = addr % 2 ^ 40) →
      (s.report src kind stall addr).tal.waiting.length = s.tal.waiting.length
        ∧ (s.report src kind stall addr).tal.waiting[i]? = some { m with count := min (m.count + 1) (2 ^ 14 - 1) }
        ∧ s.onlyRegs [] (s.report src kind stall addr))
  ∧ (∀ (s : State) (src kind stall addr : Nat),
      (∀ m ∈ s.tal.waiting, ¬ (m.source = src ∧ m.kind = kind ∧ m.addr = addr % 2 ^ 40)) →
      (s.tal.waiting.filter fun m => m.source == src).length < 4 →
      (s.report src kind stall addr).tal.waiting = s.tal.waiting ++ [{ source := src, kind := kind, stall := stall, cls := kindClass kind, count := 1, addr := addr % 2 ^ 40 }]
        ∧ s.onlyRegs [] (s.report src kind stall addr))
  ∧ (∀ (s : State) (src kind stall addr : Nat),
      (∀ m ∈ s.tal.waiting, ¬ (m.source = src ∧ m.kind = kind ∧ m.addr = addr % 2 ^ 40)) →
      4 ≤ (s.tal.waiting.filter fun m => m.source == src).length →
      (s.report src kind stall addr).tal.waiting.length = s.tal.waiting.length
        ∧ s.onlyRegs [] (s.report src kind stall addr))
  ∧ (∀ (s : State) (src kind stall addr n : Nat),
      (s.tal.waiting.filter fun m => m.source == n).length ≤ 4 →
      (((s.report src kind stall addr).tal.waiting.filter fun m => m.source == n).length ≤ 4))

/-! ### The time unit -/

/-- THE COUNTER'S STEPS (R364, R367, R368): TIM_STEP_APPLY adds the increment and the requested offset at the next tick, counts the step in STEP_GEN and sends TIME_STEPPED; a result below 0 or with bit 63 of NS set is refused with STEP_ERR and only the increment is added. That the command is itself a tick of 8 ns is the model's choice (log entry 93). The counter is below the ns 2^63 that its fields hold (R366). -/
def Obligations.TimeStepApplied : Prop :=
  (∀ (s : State) (d : Int),
      s.tim.on = true →
      s.tim.stepReq = some d →
      s.tim.now + s.tim.incr < 2 ^ 95 →
      0 ≤ (s.tim.now + s.tim.incr : Int) + d →
      (s.tim.now + s.tim.incr : Int) + d < 2 ^ 95 →
      ∃ t, exec (.timStepApply) s = .next t
        ∧ (t.tim.now : Int) = s.tim.now + s.tim.incr + d
        ∧ t.tim.stepReq = none
        ∧ t.stepGen = (s.stepGen + 1) % 2 ^ 16
        ∧ s.tells t 0x160 Kind.TIME_STEPPED 0 (stepAddr d)
        ∧ t.refNs = s.refNs + 8
        ∧ s.onlyRegs [Reg.TIM_STATUS] t)
  ∧ (∀ (s : State) (d : Int),
      s.tim.on = true →
      s.tim.stepReq = some d →
      s.tim.now + s.tim.incr < 2 ^ 95 →
      ((s.tim.now + s.tim.incr : Int) + d < 0 ∨ 2 ^ 95 ≤ (s.tim.now + s.tim.incr : Int) + d) →
      ∃ t, exec (.timStepApply) s = .next t
        ∧ t.tim.now = s.tim.now + s.tim.incr
        ∧ t.tim.stepReq = none
        ∧ t.stepGen = s.stepGen
        ∧ t.bit Reg.TIM_STATUS 30 = true
        ∧ t.tal = s.tal
        ∧ s.onlyRegs [Reg.TIM_STATUS] t)

/-- COMMANDS OF TIM_CTRL AND TIM_INCREMENT (R365, R367, R370): TIM_STEP_REQUEST adds TIM_OFFSET to the step not yet applied; TIM_DECLARE sets SYNCED and starts the lease; TIM_UNDECLARE clears SYNCED and the lease, also where DECLARE is written with it; TIM_INCREMENT_COMMIT takes both parts of the increment where its whole part is 7 or 8, and nothing otherwise. -/
def Obligations.TimeRegisterCommands : Prop :=
  (∀ (s : State) (t : Tag) (v : Word),
      s.grants t 0 Reg.TIM_CTRL (v ||| 0x80000000#32) →
      v.getLsbD 30 = false →
      v.getLsbD 29 = false →
      ∃ u, exec (.timStepRequest t v) s = .next u
        ∧ u.tim.stepReq = some (s.tim.stepReq.getD 0 + s.timOffset)
        ∧ u.tim.now = s.tim.now
        ∧ u.synced = s.synced
        ∧ s.onlyRegs [Reg.TIM_CTRL] u)
  ∧ (∀ (s : State) (t : Tag) (v : Word),
      s.grants t 0 Reg.TIM_CTRL (v ||| 0x40000000#32) →
      v.getLsbD 31 = false →
      v.getLsbD 29 = false →
      ∃ u, exec (.timDeclare t v) s = .next u
        ∧ u.synced = true
        ∧ u.tim.stepReq = s.tim.stepReq
        ∧ (u.tim.leaseDue = (if v.toNat % 2 ^ 16 = 0 then none else some (s.refNs + v.toNat % 2 ^ 16 * 1000000)))
        ∧ s.onlyRegs [Reg.TIM_CTRL, Reg.TIM_STATUS] u)
  ∧ (∀ (s : State) (t : Tag) (v : Word),
      s.grants t 0 Reg.TIM_CTRL (v ||| 0x20000000#32) →
      v.getLsbD 31 = false →
      ∃ u, exec (.timUndeclare t v) s = .next u
        ∧ u.synced = false
        ∧ u.tim.leaseDue = none
        ∧ u.tim.stepReq = s.tim.stepReq
        ∧ s.onlyRegs [Reg.TIM_CTRL, Reg.TIM_STATUS] u)
  ∧ (∀ (s : State) (t : Tag) (v : Word),
      s.grants t 0 Reg.TIM_INCREMENT_NS v →
      (v.toNat % 2 ^ 8 = 7 ∨ v.toNat % 2 ^ 8 = 8) →
      ∃ u, exec (.timIncrementCommit t v) s = .next u
        ∧ u.tim.incr = v.toNat % 2 ^ 8 * 2 ^ 32 + (s.rd Reg.TIM_INCREMENT_FRAC).toNat
        ∧ u.tim.now = s.tim.now
        ∧ s.onlyRegs [Reg.TIM_INCREMENT_NS] u)
  ∧ (∀ (s : State) (t : Tag) (v : Word),
      s.grants t 0 Reg.TIM_INCREMENT_NS v →
      v.toNat % 2 ^ 8 ≠ 7 →
      v.toNat % 2 ^ 8 ≠ 8 →
      ∃ u, exec (.timIncrementCommit t v) s = .next u
        ∧ u.tim.incr = s.tim.incr
        ∧ u.fld Reg.TIM_INCREMENT_NS 7 0 = s.fld Reg.TIM_INCREMENT_NS 7 0
        ∧ u.tim.now = s.tim.now
        ∧ s.onlyRegs [Reg.TIM_INCREMENT_NS] u)

/-- THE SYNC LEASE AND CAPTURES (R370, R372 to R374): the lease's end, after its last tick (log entry 112), clears SYNCED, sets LEASE_EXPIRED and sends TIME_SYNC_LOST; an enabled edge with room puts a record at the end of its pin's FIFO, and with eight records waiting counts it in TIM_TSIN_OVF instead; a read of the record register's word 0 removes the oldest. -/
def Obligations.LeaseAndCaptures : Prop :=
  (∀ (s : State) (d : Nat),
      s.tim.leaseDue = some d →
      d < s.refNs →
      ∃ t, exec (.syncLeaseExpire) s = .next t
        ∧ t.synced = false
        ∧ t.bit Reg.TIM_STATUS 29 = true
        ∧ t.tim.leaseDue = none
        ∧ s.tells t 0x160 Kind.TIME_SYNC_LOST 0 0
        ∧ s.onlyRegs [Reg.TIM_STATUS] t)
  ∧ (∀ (s : State) (pin : Fin 4) (rising : Bool),
      s.tim.on = true →
      s.tim.tsin.length = 4 →
      s.bit (Reg.TIM_TSIN_CTRL pin) 31 = true →
      s.bit (Reg.TIM_TSIN_CTRL pin) (if rising then 0 else 1) = true →
      (s.tim.tsin.getD pin []).length < 8 →
      ∃ t, exec (.tsInEdge pin rising) s = .next t
        ∧ t.tim.tsin.getD pin [] = s.tim.tsin.getD pin [] ++ [s.captureRecord (s.capture 3 0) (b2n rising * 2 ^ 28 + pin.val * 2 ^ 29)]
        ∧ s.onlyRegs [] t)
  ∧ (∀ (s : State) (pin : Fin 4) (rising : Bool),
      s.tim.on = true →
      s.bit (Reg.TIM_TSIN_CTRL pin) 31 = true →
      s.bit (Reg.TIM_TSIN_CTRL pin) (if rising then 0 else 1) = true →
      8 ≤ (s.tim.tsin.getD pin []).length →
      ∃ t, exec (.tsInEdge pin rising) s = .next t
        ∧ t.tim = s.tim
        ∧ (t.rd (Reg.TIM_TSIN_OVF pin)).toNat = min ((s.rd (Reg.TIM_TSIN_OVF pin)).toNat + 1) (2 ^ 32 - 1)
        ∧ s.onlyRegs [Reg.TIM_TSIN_OVF pin] t)
  ∧ (∀ (s : State) (t : Tag) (pin : Fin 4) (r : BitVec 128) (l : List (BitVec 128)),
      s.phase = .live →
      s.regDeny t 0 (Reg.TIM_TSIN_REC pin) none = none →
      s.tim.tsin[pin.val]? = some (r :: l) →
      ∃ u, exec (.captureRecordRead t false pin) s = .next u
        ∧ u.tim.tsin[pin.val]? = some l
        ∧ u.out = s.out ++ [.read (regAddr (Reg.TIM_TSIN_REC pin)) (r.extractLsb' 0 32)]
        ∧ s.onlyRegs [] u)

/-- TRIGGER PULSES (R376, R377): arming takes a schedule whose width is not 0 and is below a period that is not 0; an armed pin's next pulse becomes active 16 ns before its target, which is recorded with SYNCED, and ends WIDTH later; after the last pulse ARM reads 0; disarming lets an active pulse complete. -/
def Obligations.TriggerPulses : Prop :=
  (∀ (s : State) (t : Tag) (pin : Fin 8) (v : Word),
      s.grants t 0 (Reg.TIM_TRIG_CTRL pin) (v ||| 0x80000000#32) →
      s.tim.trig.length = 8 →
      s.bit (Reg.TIM_TRIG_CTRL pin) 31 = false →
      s.rd (Reg.TIM_TRIG_WIDTH pin) ≠ 0#32 →
      (s.rd (Reg.TIM_TRIG_PERIOD pin) = 0#32 ∨ s.rd (Reg.TIM_TRIG_WIDTH pin) < s.rd (Reg.TIM_TRIG_PERIOD pin)) →
      ∃ u, exec (.trigOutArm t pin v) s = .next u
        ∧ u.bit (Reg.TIM_TRIG_CTRL pin) 31 = true
        ∧ (u.trig pin).next = 0
        ∧ s.onlyRegs [Reg.TIM_TRIG_CTRL pin] u)
  ∧ (∀ (s : State) (t : Tag) (pin : Fin 8) (v : Word),
      s.grants t 0 (Reg.TIM_TRIG_CTRL pin) (v &&& ~~~0x80000000#32) →
      s.tim.trig.length = 8 →
      s.bit (Reg.TIM_TRIG_CTRL pin) 31 = true →
      ∃ u, exec (.trigOutDisarm t pin v) s = .next u
        ∧ u.bit (Reg.TIM_TRIG_CTRL pin) 31 = false
        ∧ (u.trig pin).active = (s.trig pin).active
        ∧ (u.trig pin).completing = (s.trig pin).active
        ∧ s.onlyRegs [Reg.TIM_TRIG_CTRL pin] u)
  ∧ (∀ (s : State) (pin : Fin 8),
      s.tim.on = true →
      s.tim.trig.length = 8 →
      s.bit (Reg.TIM_TRIG_CTRL pin) 31 = true →
      (s.trig pin).active = false →
      s.trigHas pin (s.trig pin).next = true →
      s.trigTarget pin (s.trig pin).next * 2 ^ 32 ≤ s.tim.now + 16 * 2 ^ 32 →
      ∃ t, exec (.trigOutActiveEdge pin) s = .next t
        ∧ (t.trig pin).active = true
        ∧ (t.trig pin).next = (s.trig pin).next + 1
        ∧ (t.trig pin).off = s.trigTarget pin (s.trig pin).next + (s.rd (Reg.TIM_TRIG_WIDTH pin)).toNat
        ∧ t.rd64 (Reg.TIM_TRIG_LAST pin) = s.trigTarget pin (s.trig pin).next % 2 ^ 63 + b2n s.synced * 2 ^ 63
        ∧ s.onlyRegs [Reg.TIM_TRIG_LATE pin, Reg.TIM_TRIG_LAST pin, Reg.TIM_TRIG_LAST pin + 4] t)
  ∧ (∀ (s : State) (pin : Fin 8),
      s.tim.on = true →
      s.tim.trig.length = 8 →
      (s.trig pin).active = true →
      (s.trig pin).off * 2 ^ 32 ≤ s.tim.now + 16 * 2 ^ 32 →
      ((s.trig pin).completing = false ∧ s.trigHas pin (s.trig pin).next = false) →
      ∃ t, exec (.trigOutInactiveEdge pin) s = .next t
        ∧ (t.trig pin).active = false
        ∧ (t.trig pin).completing = false
        ∧ t.bit (Reg.TIM_TRIG_CTRL pin) 31 = false
        ∧ s.onlyRegs [Reg.TIM_TRIG_LATE pin, Reg.TIM_TRIG_CTRL pin] t)
  ∧ (∀ (s : State) (pin : Fin 8),
      s.tim.on = true →
      s.tim.trig.length = 8 →
      (s.trig pin).active = true →
      (s.trig pin).off * 2 ^ 32 ≤ s.tim.now + 16 * 2 ^ 32 →
      ((s.trig pin).completing = true ∨ s.trigHas pin (s.trig pin).next = true) →
      ∃ t, exec (.trigOutInactiveEdge pin) s = .next t
        ∧ (t.trig pin).active = false
        ∧ (t.trig pin).completing = false
        ∧ s.onlyRegs [Reg.TIM_TRIG_LATE pin] t)
  ∧ (∀ (s : State) (t : Tag) (pin : Fin 8) (v : Word),
      s.grants t 0 (Reg.TIM_TRIG_CTRL pin) (v ||| 0x80000000#32) →
      s.bit (Reg.TIM_TRIG_CTRL pin) 31 = false →
      (s.rd (Reg.TIM_TRIG_WIDTH pin) = 0#32 ∨ (s.rd (Reg.TIM_TRIG_PERIOD pin) ≠ 0#32 ∧ s.rd (Reg.TIM_TRIG_PERIOD pin) ≤ s.rd (Reg.TIM_TRIG_WIDTH pin))) →
      ∃ u, exec (.trigOutArm t pin v) s = .next u
        ∧ u.bit (Reg.TIM_TRIG_CTRL pin) 31 = false
        ∧ u.tim = s.tim
        ∧ s.onlyRegs [Reg.TIM_TRIG_CTRL pin] u)

/-- PPS AND TIME OVER BILVAN (R378, R381, R382): enabling PPS clears the record of the last second; a whole second that the increment reaches, later than the last pulsed, raises PPS_OUT for WIDTH_MS, and it falls after it; a clean exchange due at its port sends the port's time message, takes the port's own two stamps from the counter and adds the delay of the four stamps to the window, and with sixteen VALID is set and TIM_BIL_DELAY holds what the port computes from them (an opaque function of Config: log entry 20; how the counter is interpolated: log entry 112); 16 ms without an exchange clears VALID and sends BIL_TIME_FAULT. -/
def Obligations.PpsAndBilvanTime : Prop :=
  (∀ (s : State) (t : Tag) (v : Word),
      s.grants t 0 Reg.TIM_PPS_CTRL (v ||| 0x80000000#32) →
      ∃ u, exec (.ppsEnable t v) s = .next u
        ∧ u.tim.ppsLast = none
        ∧ u.bit Reg.TIM_PPS_CTRL 31 = true
        ∧ s.onlyRegs [Reg.TIM_PPS_CTRL] u)
  ∧ (∀ (s : State) (k : Nat),
      s.tim.on = true →
      s.bit Reg.TIM_PPS_CTRL 31 = true →
      (s.bit Reg.TIM_PPS_CTRL 30 = false ∨ s.synced = true) →
      s.tim.stepped = false →
      (s.tim.now + 16 * 2 ^ 32) / (10 ^ 9 * 2 ^ 32) = k →
      (s.tim.prev + 16 * 2 ^ 32) / (10 ^ 9 * 2 ^ 32) < k →
      s.tim.ppsLast.getD 0 < k →
      ∃ t, exec (.ppsPulse) s = .next t
        ∧ t.tim.ppsLast = some k
        ∧ t.tim.ppsEnd = some (s.refNs + s.fld Reg.TIM_PPS_CTRL 9 0 * 1000000)
        ∧ s.onlyRegs [] t)
  ∧ (∀ (s : State) (d : Nat),
      s.tim.ppsEnd = some d →
      d ≤ s.refNs →
      ∃ t, exec (.ppsPulseEnd) s = .next t
        ∧ t = { s with tim := { s.tim with ppsEnd := none } })
  ∧ (∀ (s : State) (p : PortId) (flight : Nat) (phase : Fin 8) (t2 t3 : BitVec 72),
      let sent : Int := (s.refNs : Int) + phase.val - flight
      let t1 : Int := s.stampAt ((phase.val : Int) - flight)
      let t4 : Int := s.stampAt phase.val
      s.bilUp p = true →
      s.tim.bil.length = 3 →
      s.exchangeDue p sent = true →
      s.steppedSince sent = false →
      ((s.tim.bil.getD p {}).delays).length < 15 →
      ∃ t, exec (.bilTimeExchange p flight phase t2 t3 false) s = .next t
        ∧ (t.tim.bil.getD p {}).delays = (s.tim.bil.getD p {}).delays ++ [((t4 - t1) - ((t3.toNat : Int) - t2.toNat)) / 2]
        ∧ (t.tim.bil.getD p {}).lastAt = s.refNs
        ∧ t.out = s.out ++ [.timeMsg p.val t1]
        ∧ s.onlyRegs [] t)
  ∧ (∀ (s : State) (p : PortId) (flight : Nat) (phase : Fin 8) (t2 t3 : BitVec 72),
      let sent : Int := (s.refNs : Int) + phase.val - flight
      s.bilUp p = true →
      s.tim.bil.length = 3 →
      s.exchangeDue p sent = true →
      s.steppedSince sent = false →
      ((s.tim.bil.getD p {}).delays).length = 15 →
      (s.tim.bil.getD p {}).lastDelay = none →
      ∃ t, exec (.bilTimeExchange p flight phase t2 t3 false) s = .next t
        ∧ t.bit (Reg.TIM_BIL_STATUS p) 31 = true
        ∧ t.rd (Reg.TIM_BIL_DELAY p) = BitVec.ofInt 32 (Config.bilWindow (t.tim.bil.getD p {}).delays)
        ∧ s.onlyRegs [Reg.TIM_BIL_STATUS p, Reg.TIM_BIL_DELAY p, Reg.TIM_BIL_OFFSET p, Reg.TIM_BIL_OFFSET p + 4] t)
  ∧ (∀ (s : State) (p : PortId),
      s.bilUp p = true →
      s.tim.bil.length = 3 →
      (s.tim.bil.getD p {}).lastAt + 16000000 ≤ s.refNs →
      ∃ t, exec (.bilTimeTimeout p) s = .next t
        ∧ t.bit (Reg.TIM_BIL_STATUS p) 31 = false
        ∧ (t.tim.bil.getD p {}).delays = []
        ∧ s.tells t 0x160 Kind.BIL_TIME_FAULT 0 p
        ∧ s.onlyRegs [Reg.TIM_BIL_STATUS p] t)

/-! ### Memories and their barriers -/

/-- THE LINE STORE THROUGH THE WINDOW (R142): a read or write of stall 0 passes (an atomic does not: R236); one of any other stall is refused (the command that makes it ends with FIREWALL); a write of stall 0 while WF_STATUS shows the feeder running changes no byte and is kept, in order, and with the feeder idle its bytes stand at once; when the feeder's command ends the bytes that were held stand. -/
def Obligations.LineStoreIsStallZeros : Prop :=
  (∀ (s : State) (t : Tag) (op : AccessOp) (a n g o : Nat),
      regionOf a = .line g o →
      s.coreUp g = true →
      s.barrier t op a n = none ↔ t.stall.val = 0 ∧ op.isAtomic = false)
  ∧ (∀ (s : State) (t : Tag) (a n g o : Nat) (b : List Byte),
      regionOf a = .line g o →
      s.coreUp g = true →
      t.stall.val ≠ 0 →
      (0 < n ∧ n ≤ 64 - a % 64) →
      b.length = n →
      endsWith (readMem t a n) s St.FIREWALL = true
        ∧ endsWith (writeMem t a b) s St.FIREWALL = true
        ∧ s.sameMem (runOn (writeMem t a b) s).2)
  ∧ (∀ (s : State) (a g o : Nat) (b : List Byte),
      regionOf a = .line g o →
      s.cores.length = 32 →
      s.bit (Reg.WF_STATUS g) 31 = true →
      ((s.pokeLine a b).core g).lineHeld = (s.core g).lineHeld ++ [(a, b)]
        ∧ s.onlyRegs [] (s.pokeLine a b))
  ∧ (∀ (s : State) (a g o : Nat) (b : List Byte),
      regionOf a = .line g o →
      s.bit (Reg.WF_STATUS g) 31 = false →
      (s.pokeLine a b).peek a b.length = b)
  ∧ (∀ (s : State) (g a : Nat) (b d : List Byte),
      (s.core g).lineHeld = [(a, b)] →
      opcodeOf d = 2 →
      (s.feederDone g d).peek a b.length = b
        ∧ (s.feederDone g d).bit (Reg.WF_STATUS g) 31 = false
        ∧ s.sameRegs [Reg.WF_STATUS g] (s.feederDone g d))

/-- THE BARRIERS (R26, R190, R244, R248): LPDDR5X outside every enabled region passes for stall 0 alone, and inside one for the stalls of its mask (a deadline stall only with inline ECC); a bolt unit inside an enabled carve-out passes for its stall and stall 0, and outside every carve-out for any stall; a context record is written by stall 0 alone, and each that a read touches lets its owner, stall 0 and, when FREE, any stall. R28: every access to the device's own remote window, and every write of the xSPI window, gets the fabric's ERROR, whoever asks. -/
def Obligations.BarriersJudgeByStall : Prop :=
  (∀ (s : State) (t : Tag) (op : AccessOp) (a n : Nat),
      a < 0x1000000000 →
      a < s.ddrBytes →
      s.fwRegion (a / 2 ^ 20) = none →
      s.barrier t op a n = none ↔ t.stall.val = 0)
  ∧ (∀ (s : State) (t : Tag) (a n r : Nat),
      a < 0x1000000000 →
      a < s.ddrBytes →
      s.fwRegion (a / 2 ^ 20) = some r →
      s.bit (Reg.SAF_FWR_CTRL r) 1 = false →
      (s.barrier t .read a n = none ↔ s.bit (Reg.SAF_FWR_MASK r) t.stall.val = true ∧ s.deadlineStall t.stall.val = false) ∧ (s.barrier t .write a n = none ↔ s.bit (Reg.SAF_FWR_MASK r) (16 + t.stall.val) = true ∧ s.deadlineStall t.stall.val = false))
  ∧ (∀ (s : State) (t : Tag) (op : AccessOp) (a n g o : Nat),
      regionOf a = .bolt g o →
      s.coreUp g = true →
      s.barrier t op a n = none ↔ (t.stall.val = 0 ∨ ∀ k, s.carveAt (Reg.BT_CARVE g 0) 8 (o / 4096) = some k → s.fld (Reg.BT_CARVE g 0 + 4 * k) 27 24 = t.stall.val))
  ∧ (∀ (s : State) (t : Tag) (a n k : Nat),
      regionOf a = .ctx k →
      0 < n →
      (s.barrier t .write a n = none ↔ t.stall.val = 0) ∧ (s.barrier t .read a n = none ↔ ∀ r, a < ctxAddr r + 32 ∧ ctxAddr r < a + n → t.stall.val = 0 ∨ s.ctxState r = 0 ∨ s.ctxOwner r = t.stall.val))
  ∧ (∀ (s : State) (t : Tag) (op : AccessOp) (a n o : Nat),
      (regionOf a = .remote s.board.devnum o ∨ (regionOf a = .xspi o ∧ op ≠ .read)) →
      s.barrier t op a n = some ⟨0x180, Kind.FABRIC_ERROR⟩)

/-- CARVE-OUTS AND INJECTIONS (R243, R244): a disabled entry takes a well-formed carve-out that overlaps no enabled one, with its BASE, LIMIT and STALL, and stays disabled where it would be malformed or overlap; an enabled entry keeps its fields; arming an injection leaves ARM, DOUBLE and TARGET as written. INJECTION (R116, R121, R179, R188): a granted write with ARM set leaves the fields of TW_LEDGER_INJECT or TD_INJECT as written with ARM 1, nothing else; the next pass or chain takes it. -/
def Obligations.CarveOutsAndInjections : Prop :=
  (∀ (s : State) (t : Tag) (core : CoreId) (n : Fin 8) (v : Word),
      let r : Nat := Reg.BT_CARVE core n
      s.grants t 0 r v →
      s.bit r 31 = false →
      v.getLsbD 31 = true →
      s.carveOk core false n v.toNat = true →
      ∃ u, exec (.carveOutWrite t core false n v) s = .next u
        ∧ u.bit r 31 = true
        ∧ u.fld r 9 0 = bits v.toNat 9 0
        ∧ u.fld r 21 12 = bits v.toNat 21 12
        ∧ u.fld r 27 24 = bits v.toNat 27 24
        ∧ s.onlyRegs [r] u)
  ∧ (∀ (s : State) (t : Tag) (core : CoreId) (n : Fin 4) (v : Word),
      let r : Nat := Reg.SK_CARVE core n
      s.grants t 0 r v →
      s.bit r 31 = false →
      v.getLsbD 31 = true →
      s.carveOk core true n v.toNat = true →
      ∃ u, exec (.carveOutWrite t core true ⟨n.val, by omega⟩ v) s = .next u
        ∧ u.bit r 31 = true
        ∧ u.fld r 9 0 = bits v.toNat 9 0
        ∧ u.fld r 21 12 = bits v.toNat 21 12
        ∧ u.fld r 27 24 = bits v.toNat 27 24
        ∧ s.onlyRegs [r] u)
  ∧ (∀ (s : State) (t : Tag) (core : CoreId) (n : Fin 8) (v : Word),
      let r : Nat := Reg.BT_CARVE core n
      s.grants t 0 r v →
      s.bit r 31 = false →
      s.carveOk core false n v.toNat = false →
      ∃ u, exec (.carveOutWrite t core false n v) s = .next u
        ∧ u.bit r 31 = false
        ∧ s.onlyRegs [r] u)
  ∧ (∀ (s : State) (t : Tag) (core : CoreId) (n : Fin 8) (v : Word),
      let r : Nat := Reg.BT_CARVE core n
      s.grants t 0 r v →
      s.bit r 31 = true →
      ∃ u, exec (.carveOutWrite t core false n v) s = .next u
        ∧ u.bit r 31 = v.getLsbD 31
        ∧ u.fld r 30 0 = s.fld r 30 0
        ∧ s.onlyRegs [r] u)
  ∧ (∀ (s : State) (t : Tag) (core : CoreId) (v : Word),
      s.grants t 0 (Reg.BT_ECC_INJECT core) (v ||| 0x80000000#32) →
      ∃ u, exec (.btEccInjectArm t core v) s = .next u
        ∧ u.bit (Reg.BT_ECC_INJECT core) 31 = true
        ∧ u.bit (Reg.BT_ECC_INJECT core) 30 = v.getLsbD 30
        ∧ u.fld (Reg.BT_ECC_INJECT core) 25 24 = bits v.toNat 25 24
        ∧ s.onlyRegs [Reg.BT_ECC_INJECT core] u)
  ∧ (∀ (s : State) (t : Tag) (v : Word),
      s.grants t 0 Reg.MEM_ECC_INJECT (v ||| 0x80000000#32) →
      ∃ u, exec (.memEccInjectArm t v) s = .next u
        ∧ u.bit Reg.MEM_ECC_INJECT 31 = true
        ∧ u.bit Reg.MEM_ECC_INJECT 30 = v.getLsbD 30
        ∧ u.fld Reg.MEM_ECC_INJECT 25 24 = bits v.toNat 25 24
        ∧ u.fld Reg.MEM_ECC_INJECT 19 16 = bits v.toNat 19 16
        ∧ s.onlyRegs [Reg.MEM_ECC_INJECT] u)
  ∧ (∀ (s : State) (t : Tag) (g : CoreId) (v : Word),
      s.grants t 0 (Reg.TW_LEDGER_INJECT g.val) (v ||| 0x80000000#32) →
      ∃ u, exec (.twLedgerInjectArm t g v) s = .next u
        ∧ u.rd (Reg.TW_LEDGER_INJECT g.val) &&& 0xF1F7FDFF#32 = (v ||| 0x80000000#32) &&& 0xF1F7FDFF#32
        ∧ u.armed g.val = some (u.rd (Reg.TW_LEDGER_INJECT g.val)).toNat
        ∧ s.onlyRegs [Reg.TW_LEDGER_INJECT g.val] u)
  ∧ (∀ (s : State) (t : Tag) (g : CoreId) (m : Fin 2) (v : Word),
      s.grants t 0 (Reg.TD_INJECT g.val m.val) (v ||| 0x80000000#32) →
      ∃ u, exec (.tdInjectArm t g m v) s = .next u
        ∧ u.rd (Reg.TD_INJECT g.val m.val) &&& 0xDF0F01FF#32 = (v ||| 0x80000000#32) &&& 0xDF0F01FF#32
        ∧ s.onlyRegs [Reg.TD_INJECT g.val m.val] u)
  ∧ (∀ (s : State) (t : Tag) (g : CoreId) (v : Word),
      s.grants t 0 (Reg.WF_LINE_HWM g.val) (v ||| 0x80000000#32) →
      ∃ u, exec (.wfLineHwmClear t g v) s = .next u
        ∧ u.fld (Reg.WF_LINE_HWM g.val) 17 0 = 0
        ∧ s.onlyRegs [Reg.WF_LINE_HWM g.val] u)

/-- FIREWALL REGIONS AND TRAINING (R246, R248, R250): an unlocked disabled region whose limits are in order, inside the memory and apart from every enabled region is enabled, with INIT_BUSY where it is inline; out of order it stays disabled with ERR; the end of initialisation leaves zeros over the region, every byte outside it as it was and INIT_BUSY clear; START of an unlocked or never trained interface begins training and clears READY; its end sets READY, or reports DDR_INIT_FAIL from the failing channel. -/
def Obligations.FirewallRegionsAndTraining : Prop :=
  (∀ (s : State) (t : Tag) (n : Fin 64) (v : Word),
      let c : Nat := Reg.SAF_FWR_CTRL n
      let b : Nat := s.fld (Reg.SAF_FWR_BASE n) 15 0
      let l : Nat := s.fld (Reg.SAF_FWR_LIMIT n) 15 0
      s.grants t 0 c v →
      s.bit c 31 = false →
      s.bit c 0 = false →
      v.getLsbD 0 = true →
      b ≤ l →
      (l + 1) * 2 ^ 20 ≤ s.ddrBytes →
      (v.getLsbD 1 = true → (l + 1 - b) % 8 = 0) →
      (∀ k : Fin 64, k ≠ n → s.bit (Reg.SAF_FWR_CTRL k) 0 = true → s.fld (Reg.SAF_FWR_LIMIT k) 15 0 < b ∨ l < s.fld (Reg.SAF_FWR_BASE k) 15 0) →
      ∃ u, exec (.firewallRegionWrite t n 3 v) s = .next u
        ∧ u.bit c 0 = true
        ∧ u.bit c 4 = false
        ∧ u.bit c 8 = (v.getLsbD 1 || s.bit c 8)
        ∧ s.onlyRegs [c] u)
  ∧ (∀ (s : State) (t : Tag) (n : Fin 64) (v : Word),
      let c : Nat := Reg.SAF_FWR_CTRL n
      s.grants t 0 c v →
      s.bit c 31 = false →
      s.bit c 0 = false →
      v.getLsbD 0 = true →
      s.fld (Reg.SAF_FWR_LIMIT n) 15 0 < s.fld (Reg.SAF_FWR_BASE n) 15 0 →
      ∃ u, exec (.firewallRegionWrite t n 3 v) s = .next u
        ∧ u.bit c 0 = false
        ∧ u.bit c 4 = true
        ∧ s.onlyRegs [c] u)
  ∧ (∀ (s : State) (n : Fin 64) (a : Nat),
      let b : Nat := s.fld (Reg.SAF_FWR_BASE n) 15 0
      let l : Nat := s.fld (Reg.SAF_FWR_LIMIT n) 15 0
      s.bit (Reg.SAF_FWR_CTRL n) 8 = true →
      b ≤ l →
      ∃ t, exec (.firewallInitDone n) s = .next t
        ∧ t.bit (Reg.SAF_FWR_CTRL n) 8 = false
        ∧ (t.byte a = (if b * 2 ^ 20 ≤ a ∧ a < (l + 1) * 2 ^ 20 then 0 else s.byte a))
        ∧ s.sameRegs [Reg.SAF_FWR_CTRL n] t)
  ∧ (∀ (s : State) (t : Tag) (v : Word),
      s.grants t 0 Reg.MEM_DDR_CFG (v ||| 0x20000000#32) →
      (s.bit Reg.MEM_DDR_CFG 31 = false ∨ s.ddr = 0) →
      ∃ u, exec (.ddrTrainingStart t v) s = .next u
        ∧ u.ddr = 1
        ∧ u.bit Reg.MEM_DDR_CFG 30 = false
        ∧ s.sameMem u)
  ∧ (∀ (s : State),
      s.ddr = 1 →
      ∃ t, exec (.ddrTrainingDone []) s = .next t
        ∧ t.ddr = 2
        ∧ t.bit Reg.MEM_DDR_CFG 30 = true
        ∧ t.tal = s.tal
        ∧ s.onlyRegs [Reg.MEM_DDR_CFG] t)
  ∧ (∀ (s : State) (c : Fin 16),
      s.ddr = 1 →
      ∃ t, exec (.ddrTrainingDone [c]) s = .next t
        ∧ t.ddr = 2
        ∧ s.tells t (0x110 + c) Kind.DDR_INIT_FAIL 0 0
        ∧ s.onlyRegs [] t)

/-- MEMORY MAINTENANCE (R239, R242, R262): a corrected word that waits is written back and its error is gone; a scrub read of a line without errors moves on to the next line, and at the end of the pass begins again and counts it; a word with a correctable error met by the scrubber is corrected in place and reported; a pass not complete within 4 s is reported once as SCRUB_LATE; a HyperRAM access with no response on its third attempt sets the failure, reports HRAM_NO_RESPONSE and puts the journal out of use. That errors stand as marks on words is the model's choice (log entry 13). -/
def Obligations.MemoryMaintenance : Prop :=
  (∀ (s : State) (a : BitVec 40),
      let w : Nat := a.toNat / 8 * 8
      w ∈ s.writeback →
      ∃ t, exec (.eccWriteback a) s = .next t
        ∧ w ∉ t.writeback
        ∧ (t.ecc = s.ecc.filter fun m => m.1 != w)
        ∧ s.onlyRegs [] t)
  ∧ (∀ (s : State) (g : CoreId),
      let o : Nat := (s.core g).scrubAt
      s.phase = .live →
      s.coreUp g = true →
      s.cores.length = 32 →
      s.marks (scrubAddr g o) 64 = [] →
      scrubBytes ≤ o + 64 →
      ∃ t, exec (.patrolScrubRead g []) s = .next t
        ∧ (t.core g).scrubAt = 0
        ∧ (t.core g).scrubSince = s.refNs
        ∧ (t.core g).scrubLateSent = false
        ∧ t.rd (Reg.BT_SCRUB_PASSES g) = s.rd (Reg.BT_SCRUB_PASSES g) + 1
        ∧ s.onlyRegs [Reg.BT_SCRUB_PASSES g] t)
  ∧ (∀ (s : State) (g : CoreId) (w : Nat) (u : Nat × Nat × Nat),
      s.phase = .live →
      s.coreUp g = true →
      s.marks (scrubAddr g (s.core g).scrubAt) 64 = [(w, .single)] →
      s.eccUnit w = some u →
      ∃ t, exec (.patrolScrubRead g []) s = .next t
        ∧ s.tells t u.1 u.2.1 0 w
        ∧ (∀ m ∈ t.ecc, m.1 ≠ w)
        ∧ w ∉ t.writeback
        ∧ s.sameMem t)
  ∧ (∀ (s : State) (g : CoreId),
      s.phase = .live →
      s.coreUp g = true →
      s.cores.length = 32 →
      (s.core g).scrubLateSent = false →
      (s.core g).scrubSince + 4000000000 ≤ s.refNs →
      ∃ t, exec (.scrubLate g) s = .next t
        ∧ (t.core g).scrubLateSent = true
        ∧ s.tells t (unitSrc g 7) Kind.SCRUB_LATE 0 (scrubAddr g (s.core g).scrubAt)
        ∧ s.onlyRegs [] t)
  ∧ (∀ (s : State) (a : BitVec 40),
      (0x4000000000 ≤ a.toNat ∧ a.toNat < 0x4004000000) →
      s.cmd.journalLost = false →
      ∃ t, exec (.hramAccessTimeout a) s = .next t
        ∧ t.bit Reg.MEM_HR_STATUS 31 = true
        ∧ t.journalOk = false
        ∧ t.cmd.journalLost = true
        ∧ (∃ m ∈ t.tal.waiting, m.source = 0x172)
        ∧ s.sameMem t)
  ∧ (∀ (s : State) (g : CoreId),
      let o : Nat := (s.core g).scrubAt
      s.phase = .live →
      s.coreUp g = true →
      s.cores.length = 32 →
      s.marks (scrubAddr g o) 64 = [] →
      o + 64 < scrubBytes →
      ∃ t, exec (.patrolScrubRead g []) s = .next t
        ∧ (t.core g).scrubAt = o + 64
        ∧ s.onlyRegs [] t)

/-! ### The Tally -/

/-- TAL_FIRST (R449): when a window with a record of class A or B closes while VALID is 0, TAL_FIRST takes the record and VALID is set; while VALID is 1, and for a record of class C, TAL_FIRST and VALID stay; writing 1 to VALID clears it. -/
def Obligations.FirstRecordHeld : Prop :=
  (∀ (s : State) (w : Win) (l : List Win),
      s.tal.windows = w :: l →
      w.due ≤ s.refNs →
      w.msg.cls < 2 →
      s.bit Reg.TAL_FIRST_CTRL 31 = false →
      ∃ t, exec (.coalesceWindowClose) s = .next t
        ∧ t.rdN Reg.TAL_FIRST 4 = (w.msg.record w.time).toNat
        ∧ t.bit Reg.TAL_FIRST_CTRL 31 = true)
  ∧ (∀ (s : State) (w : Win) (l : List Win),
      s.tal.windows = w :: l →
      w.due ≤ s.refNs →
      (2 ≤ w.msg.cls ∨ s.bit Reg.TAL_FIRST_CTRL 31 = true) →
      ∃ t, exec (.coalesceWindowClose) s = .next t
        ∧ t.rdN Reg.TAL_FIRST 4 = s.rdN Reg.TAL_FIRST 4
        ∧ t.rd Reg.TAL_FIRST_CTRL = s.rd Reg.TAL_FIRST_CTRL)
  ∧ (∀ (s : State) (t : Tag) (v : Word),
      s.grants t 0 Reg.TAL_FIRST_CTRL (v ||| 0x80000000#32) →
      ∃ u, exec (.talFirstRearm t v) s = .next u
        ∧ u.bit Reg.TAL_FIRST_CTRL 31 = false
        ∧ u.rdN Reg.TAL_FIRST 4 = s.rdN Reg.TAL_FIRST 4
        ∧ s.onlyRegs [Reg.TAL_FIRST_CTRL] u)

/-- RECORDS (R446, R450, R455): a window that closes leaves; its record, number n from 0, is written to TAL_HIST n mod 64 and TAL_HIST_WR counts it; it waits for a fault frame where its kind's entry asks for one and frames are enabled. A window that is not due stands. -/
def Obligations.RecordsEnterTheHistory : Prop :=
  (∀ (s : State) (w : Win) (l : List Win),
      s.tal.windows = w :: l →
      w.due ≤ s.refNs →
      ∃ t, exec (.coalesceWindowClose) s = .next t
        ∧ t.tal.windows = l
        ∧ t.rd Reg.TAL_HIST_WR = s.rd Reg.TAL_HIST_WR + 1
        ∧ t.rdN (Reg.TAL_HIST ((s.rd Reg.TAL_HIST_WR).toNat % 64)) 4 = (w.msg.record w.time).toNat)
  ∧ (∀ (s : State) (w : Win) (l : List Win),
      s.tal.windows = w :: l →
      s.refNs < w.due →
      ∃ t, exec (.coalesceWindowClose) s = .next t
        ∧ t = s)
  ∧ (∀ (s : State) (w : Win) (l : List Win),
      s.tal.windows = w :: l →
      w.due ≤ s.refNs →
      w.msg.kind < 192 →
      s.bit (Reg.TAL_REACT w.msg.kind) 8 = true →
      s.bit Reg.TAL_FRAME_CTRL 31 = true →
      ∃ t, exec (.coalesceWindowClose) s = .next t
        ∧ t.tal.windows = l
        ∧ t.tal.batch = s.tal.batch ++ [(w.msg.record w.time, s.refNs)])

/-- ARRIVAL (R440, R444 to R446, R452): the Tally takes the source's oldest waiting message; one of class A or B sets its kind's pending bit; with no window open that it matches and a place free it opens one that closes 10 µs later; its kind's reaction NONE changes nothing else. A message that matches the open window adds its COUNT to the window's. ROOT (R447): the window's SOURCE and KIND are its first message's; where that came from 0x180 and a matching message comes from any other source, that message's replace them; a root from another source than 0x180 stays. An HRAM_UE in the journal's area arrives with the journal in use, and puts it out of use (R290). -/
def Obligations.MessagesArrive : Prop :=
  (∀ (s : State) (src : BitVec 12) (m : Msg),
      (s.tal.waiting.find? fun m => m.source == src.toNat) = some m →
      m.kind < 192 →
      (m.kind ≠ Kind.HRAM_UE ∨ inJournal m.addr = false) →
      m.cls < 2 →
      s.fld (Reg.TAL_REACT m.kind) 1 0 = 0 →
      s.tal.windows = [] →
      ∃ t, exec (.faultMessageArrive src) s = .next t
        ∧ t.isPending m.kind = true
        ∧ t.tal.windows = [{ msg := m, time := s.ns, due := s.refNs + 10000, kinds := [m.kind] }]
        ∧ t.tal.waiting = s.tal.waiting.erase m
        ∧ s.onlyRegs [Reg.TAL_PENDING (m.kind / 32)] t)
  ∧ (∀ (s : State) (src : BitVec 12) (m : Msg),
      (s.tal.waiting.find? fun m => m.source == src.toNat) = some m →
      (m.kind ≠ Kind.HRAM_UE ∨ inJournal m.addr = false) →
      m.cls = 2 →
      s.fld (Reg.TAL_REACT m.kind) 1 0 = 0 →
      s.tal.windows = [] →
      ∃ t, exec (.faultMessageArrive src) s = .next t
        ∧ t.tal.windows = [{ msg := m, time := s.ns, due := s.refNs + 10000, kinds := [m.kind] }]
        ∧ s.onlyRegs [] t)
  ∧ (∀ (s : State) (src : BitVec 12) (m : Msg) (w : Win),
      (s.tal.waiting.find? fun m => m.source == src.toNat) = some m →
      (m.kind ≠ Kind.HRAM_UE ∨ inJournal m.addr = false) →
      m.cls = 2 →
      s.fld (Reg.TAL_REACT m.kind) 1 0 = 0 →
      s.tal.windows = [w] →
      w.msg.addr = m.addr →
      w.msg.kind = m.kind →
      w.msg.source = m.source →
      ∃ t, exec (.faultMessageArrive src) s = .next t
        ∧ (t.tal.windows.map (fun x => (x.msg.count, x.msg.source, x.time, x.due)) = [(min (w.msg.count + m.count) (2 ^ 14 - 1), m.source, w.time, w.due)])
        ∧ s.onlyRegs [] t)
  ∧ (∀ (s : State) (src : BitVec 12) (m : Msg) (w : Win),
      (s.tal.waiting.find? fun m => m.source == src.toNat) = some m →
      s.fld (Reg.TAL_REACT m.kind) 1 0 = 0 →
      s.tal.windows = [w] →
      w.msg.addr = m.addr →
      w.msg.source = 0x180 →
      m.source ≠ 0x180 →
      ∃ t, exec (.faultMessageArrive src) s = .next t
        ∧ (t.tal.windows.map (fun x => (x.msg.source, x.msg.kind, x.msg.addr, x.time, x.due)) = [(m.source, m.kind, m.addr, w.time, w.due)]))
  ∧ (∀ (s : State) (src : BitVec 12) (m : Msg) (w : Win),
      (s.tal.waiting.find? fun m => m.source == src.toNat) = some m →
      s.fld (Reg.TAL_REACT m.kind) 1 0 = 0 →
      s.tal.windows = [w] →
      w.msg.addr = m.addr →
      (m.source = 0x180 ∨ (w.msg.source ≠ 0x180 ∧ w.msg.kind = m.kind)) →
      ∃ t, exec (.faultMessageArrive src) s = .next t
        ∧ (t.tal.windows.map (fun x => (x.msg.source, x.msg.kind, x.msg.addr, x.time, x.due)) = [(w.msg.source, w.msg.kind, w.msg.addr, w.time, w.due)]))
  ∧ (∀ (s : State) (m : Msg) (w : Win),
      s.tal.windows = [w] →
      w.matches m = true →
      (s.coalesce m).2.tal.windows = [w.merge m]
        ∧ (w.msg.source = 0x180 → m.source ≠ 0x180 → (w.merge m).msg.source = m.source ∧ (w.merge m).msg.kind = m.kind)
        ∧ (w.msg.source ≠ 0x180 ∨ m.source = 0x180 → (w.merge m).msg.source = w.msg.source ∧ (w.merge m).msg.kind = w.msg.kind))
  ∧ (∀ (s : State) (src : BitVec 12) (m : Msg),
      (s.tal.waiting.find? fun m => m.source == src.toNat) = some m →
      (m.kind = Kind.HRAM_UE ∧ inJournal m.addr = true ∧ m.cls < 2) →
      s.cmd.journalLost = false →
      s.fld (Reg.TAL_REACT m.kind) 1 0 = 0 →
      s.tal.windows = [] →
      ∃ t, exec (.faultMessageArrive src) s = .next t
        ∧ t.isPending m.kind = true
        ∧ t.tal.windows = [{ msg := m, time := s.ns, due := s.refNs + 10000, kinds := [m.kind] }]
        ∧ t.journalOk = false
        ∧ t.cmd.journalLost = true
        ∧ s.sameMem t)

/-- PINS (R452, R453): the end of FAULT_N's minimum low time lets go of it; ALIVE changes level 1 ms after it last did while READY and neither ISLAND_CHECK nor REF_CLOCK_LOST pends; the loss of the reference clock drives FAULT_N low without delay and is reported; a disagreement of the island is reported; the island's readiness sets READY, with the HyperRAM ready, or with HRAM_NO_RESPONSE reported, the HyperRAM failed and the journal out of use (R290). The phases in which READY may be set are the model's choice (log entry 72). -/
def Obligations.FaultPinAndAlive : Prop :=
  (∀ (s : State) (d : Nat),
      s.tal.lowUntil = some d →
      d ≤ s.refNs →
      ∃ t, exec (.faultNMinLowEnd) s = .next t
        ∧ t.tal = { s.tal with lowUntil := none }
        ∧ s.onlyRegs [] t)
  ∧ (∀ (s : State),
      s.aliveOk = true →
      s.phase ≠ .held →
      s.tal.aliveAt + 1000000 ≤ s.refNs →
      ∃ t, exec (.aliveToggle) s = .next t
        ∧ t = { s with tal := { s.tal with alive := !s.tal.alive, aliveAt := s.refNs } })
  ∧ (∀ (s : State),
      s.phase ≠ .held →
      ∃ t, exec (.refClockLost) s = .next t
        ∧ s.tells t 0x170 Kind.REF_CLOCK_LOST 0 0
        ∧ t.faultLow = true
        ∧ (t.tal.lowUntil = (if s.faultLow = true then s.tal.lowUntil else some (s.refNs + 1000000)))
        ∧ s.onlyRegs [] t)
  ∧ (∀ (s : State),
      s.phase ≠ .held →
      ∃ t, exec (.islandCheck) s = .next t
        ∧ t = s.report 0x170 Kind.ISLAND_CHECK 0 0)
  ∧ (∀ (s : State),
      s.phase ≠ .held →
      s.talReady = false →
      ∃ t, exec (.tallyReady true) s = .next t
        ∧ t.talReady = true
        ∧ t.bit Reg.MEM_HR_STATUS 0 = true
        ∧ t.tal.aliveAt = s.refNs
        ∧ t.journalOk = (s.journalOk || (s.pwr.boot = .done && !s.cmd.journalLost))
        ∧ s.onlyRegs [Reg.TAL_STATUS, Reg.MEM_HR_STATUS, Reg.CMD_STATUS] t)
  ∧ (∀ (s : State),
      s.phase ≠ .held →
      s.talReady = false →
      s.cmd.journalLost = true →
      ∃ t, exec (.tallyReady false) s = .next t
        ∧ t.talReady = true
        ∧ t.bit Reg.MEM_HR_STATUS 31 = true
        ∧ s.tells t 0x172 Kind.HRAM_NO_RESPONSE 0 0x4000000000
        ∧ s.onlyRegs [Reg.TAL_STATUS, Reg.MEM_HR_STATUS] t)
  ∧ (∀ (s : State),
      s.phase ≠ .held →
      s.talReady = false →
      s.cmd.journalLost = false →
      ∃ t, exec (.tallyReady false) s = .next t
        ∧ t.talReady = true
        ∧ t.bit Reg.MEM_HR_STATUS 31 = true
        ∧ t.journalOk = false
        ∧ t.cmd.journalLost = true
        ∧ t.tal.waiting = ((s.report 0x172 Kind.HRAM_NO_RESPONSE 0 0x4000000000).report 0x100 Kind.JOURNAL_DOWN 0 0x4000000000).tal.waiting
        ∧ s.onlyRegs [Reg.TAL_STATUS, Reg.MEM_HR_STATUS, Reg.CMD_STATUS] t)
  ∧ (∀ (s : State) (d : Nat),
      s.tal.lowUntil = some d →
      d ≤ s.refNs →
      (∀ p : Fin 3, s.bilUp p = false) →
      ∃ t, exec (.faultNMinLowEnd) s = .next t
        ∧ t = { s with tal := { s.tal with lowUntil := none } })

/-- FAULT FRAMES (R455): with eight records waiting, or 50 µs after the oldest, a frame takes up to eight of them, the next fault sequence number (1 follows the largest) and, with the management link up and a destination set, a place on its control queue; STATUS_MS after the last frame a frame without records starts; a repeat copy that is not the last falls due again 1 ms later; ENABLE = 0 drops the waiting batch, and ENABLE = 1 begins the status interval. The order of rows and due times is the model's choice (log entry 100). -/
def Obligations.FaultFrames : Prop :=
  (∀ (s : State) (d : HostAddr),
      s.framesOn = true →
      s.portUp 2 = true →
      s.faultDest = some d →
      s.eth.length = 3 →
      s.tal.batch ≠ [] →
      (8 ≤ s.tal.batch.length ∨ (s.tal.batch.headD (0, 0)).2 + 50000 ≤ s.refNs) →
      ∃ t, exec (.faultFrameSend) s = .next t
        ∧ t.tal.batch = s.tal.batch.drop 8
        ∧ t.tal.lastFrame = s.refNs
        ∧ ((t.rd Reg.TAL_FRAME_SEQ).toNat = (if (s.rd Reg.TAL_FRAME_SEQ).toNat = 2 ^ 32 - 1 then 1 else (s.rd Reg.TAL_FRAME_SEQ).toNat + 1))
        ∧ (t.eth.getD 2 {}).ctrl.length = (s.eth.getD 2 {}).ctrl.length + 1
        ∧ s.onlyRegs [Reg.TAL_FRAME_SEQ] t)
  ∧ (∀ (s : State) (d : HostAddr),
      s.framesOn = true →
      s.portUp 2 = true →
      s.faultDest = some d →
      s.eth.length = 3 →
      s.fld Reg.TAL_FRAME_CTRL 15 0 ≠ 0 →
      s.tal.lastFrame + s.fld Reg.TAL_FRAME_CTRL 15 0 * 1000000 ≤ s.refNs →
      ∃ t, exec (.statusFrameSend) s = .next t
        ∧ t.tal.batch = s.tal.batch
        ∧ t.tal.lastFrame = s.refNs
        ∧ ((t.rd Reg.TAL_FRAME_SEQ).toNat = (if (s.rd Reg.TAL_FRAME_SEQ).toNat = 2 ^ 32 - 1 then 1 else (s.rd Reg.TAL_FRAME_SEQ).toNat + 1))
        ∧ (t.eth.getD 2 {}).ctrl.length = (s.eth.getD 2 {}).ctrl.length + 1
        ∧ s.onlyRegs [Reg.TAL_FRAME_SEQ] t)
  ∧ (∀ (s : State) (f : FaultFrame),
      (s.tal.frames.find? fun f => f.due ≤ s.refNs) = some f →
      2 ≤ f.left →
      ∃ t, exec (.faultFrameRepeat) s = .next t
        ∧ t.tal.frames = s.tal.frames.erase f ++ [{ f with sent := f.sent || (s.portUp 2 && s.faultDest.isSome), left := f.left - 1, due := f.due + 1000000 }]
        ∧ s.onlyRegs [] t)
  ∧ (∀ (s : State) (t : Tag) (v : Word),
      s.grants t 0 Reg.TAL_FRAME_CTRL v →
      s.bit Reg.TAL_CTRL 31 = false →
      v.getLsbD 31 = false →
      ∃ u, exec (.talFrameDisable t v) s = .next u
        ∧ u.bit Reg.TAL_FRAME_CTRL 31 = v.getLsbD 31
        ∧ u.tal.batch = []
        ∧ s.onlyRegs [Reg.TAL_FRAME_CTRL] u)
  ∧ (∀ (s : State) (t : Tag) (n : Fin 6) (v : Word),
      s.grants t 0 (Reg.TAL_PENDING n) v →
      ∃ u, exec (.talPendingClear t n v) s = .next u
        ∧ (∀ r ∈ kindTable.filter (fun (r : Nat × Nat × Nat × Nat) => r.1 / 32 == n.val && r.2.2.2 == 1), u.isPending r.1 = (s.isPending r.1 && !v.getLsbD (r.1 % 32)))
        ∧ (∀ r ∈ kindTable.filter (fun (r : Nat × Nat × Nat × Nat) => r.1 / 32 == n.val && r.2.2.2 == 2), u.isPending r.1 = s.isPending r.1)
        ∧ (u.tal.silence = s.tal.silence.filter (fun e => u.isPending e.1))
        ∧ s.onlyRegs [Reg.TAL_PENDING n] u)
  ∧ (∀ (s : State) (t : Tag) (v : Word),
      s.grants t 0 Reg.TAL_FRAME_CTRL v →
      s.bit Reg.TAL_CTRL 31 = false →
      (v.getLsbD 31 = true ∧ s.bit Reg.TAL_FRAME_CTRL 31 = false) →
      ∃ u, exec (.talFrameDisable t v) s = .next u
        ∧ u.bit Reg.TAL_FRAME_CTRL 31 = true
        ∧ u.tal.lastFrame = s.refNs
        ∧ u.tal.batch = s.tal.batch
        ∧ s.onlyRegs [Reg.TAL_FRAME_CTRL] u)

/-! ### Power, resets and boot -/

/-- PACE (R42 to R45): a window of a powered cluster shows its count as NOW and lowers MIN to it; the sixteenth low window in a row reports PACE_LOW where none was reported in the last 1 ms; CLEAR sets MIN back to its reset value; the power core's write of CAP is taken between 95 and 1,500, no higher than an escalation's cap in force (R112), and otherwise leaves the field. -/
def Obligations.PaceMeters : Prop :=
  (∀ (s : State) (c : ClusterId) (n : BitVec 12),
      s.phase = .live →
      s.clusterUp c = true →
      950 ≤ n.toNat →
      ∃ t, exec (.paceWindow c n) s = .next t
        ∧ t.fld (Reg.PWR_PACE_C c) 11 0 = n.toNat
        ∧ t.bit (Reg.PWR_PACE_C c) 31 = true
        ∧ t.fld (Reg.PWR_PACE_MIN_C c) 11 0 = min (s.fld (Reg.PWR_PACE_MIN_C c) 11 0) n.toNat
        ∧ s.onlyRegs [Reg.PWR_PACE_C c, Reg.PWR_PACE_MIN_C c] t)
  ∧ (∀ (s : State) (c : ClusterId) (n : BitVec 12),
      s.phase = .live →
      s.clusterUp c = true →
      n.toNat < 950 →
      15 ≤ s.pwr.paceLow.getD c 0 →
      s.pwr.paceLowAt.getD c none = none →
      ∃ t, exec (.paceWindow c n) s = .next t
        ∧ s.tells t (0x104 + c) Kind.PACE_LOW 0 (c + n.toNat * 2 ^ 16)
        ∧ s.onlyRegs [Reg.PWR_PACE_C c, Reg.PWR_PACE_MIN_C c] t)
  ∧ (∀ (s : State) (t : Tag) (c : ClusterId) (v : Word),
      s.grants t 0 (Reg.PWR_PACE_MIN_C c) (v ||| 0x80000000#32) →
      ∃ u, exec (.paceMinClear t c v) s = .next u
        ∧ u.fld (Reg.PWR_PACE_MIN_C c) 11 0 = 0xFFF
        ∧ s.onlyRegs [Reg.PWR_PACE_MIN_C c] u)
  ∧ (∀ (s : State) (t : Tag) (c : ClusterId) (v : Word),
      s.grants t 0 (Reg.PWR_PACE_CAP_C c) v →
      95 ≤ bits v.toNat 11 0 →
      bits v.toNat 11 0 ≤ 1500 →
      ∃ u, exec (.paceCapWrite t c v) s = .next u
        ∧ u.cap c = min (bits v.toNat 11 0) (s.pwr.escCap.getD c 1500)
        ∧ s.onlyRegs [Reg.PWR_PACE_CAP_C c] u)
  ∧ (∀ (s : State) (t : Tag) (c : ClusterId) (v : Word),
      s.grants t 0 (Reg.PWR_PACE_CAP_C c) v →
      (bits v.toNat 11 0 < 95 ∨ 1500 < bits v.toNat 11 0) →
      ∃ u, exec (.paceCapWrite t c v) s = .next u
        ∧ u.cap c = min (s.cap c) (s.pwr.escCap.getD c 1500)
        ∧ s.onlyRegs [Reg.PWR_PACE_CAP_C c] u)

/-- THE WATT-DERIVED LIMIT (R502, R509, R510): from a limit between 95 and 1,500 the next one is between 95 and 1,500; with TEMP_TRIP standing it is 95; with TEMP_HIGH it never rises; otherwise it moves by at most 10 %, stays where the mean power equals the cap, and does not rise while the mean is above the cap. CAP_UNMET (R503): each period of 1 ms counts the consecutive ones in which the limit is 95 and the mean above target + 2 W, and those in which the mean is at or below target; CAP_UNMET is reported where the first count reaches 10 and no report stands; a report stands until the second count has reached 100. -/
def Obligations.WattLimitBounds : Prop :=
  (∀ (trip high : Bool) (c p watts : Nat),
      95 ≤ c →
      c ≤ 1500 →
      95 ≤ nextLimit trip high c p watts
        ∧ nextLimit trip high c p watts ≤ 1500
        ∧ (trip = true → nextLimit trip high c p watts = 95)
        ∧ (high = true → nextLimit trip high c p watts ≤ c)
        ∧ (trip = false → high = false → c * 9 / 10 ≤ nextLimit trip high c p watts ∧ nextLimit trip high c p watts ≤ c * 11 / 10)
        ∧ (trip = false → high = false → p = watts * 10 → 0 < p → nextLimit trip high c p watts = c)
        ∧ (watts * 10 ≤ p → nextLimit trip high c p watts ≤ c))
  ∧ (∀ (s : State),
      let mean : Nat := s.fld Reg.PWR_POWER 27 16
      let watts : Nat := s.fld Reg.PWR_CAP 6 0
      let c : Nat := nextLimit s.pwr.trip s.pwr.high s.pwr.limit mean watts
      let above : Nat := if c = 95 ∧ watts * 10 + 20 < mean then s.pwr.above + 1 else 0
      let met : Nat := if mean ≤ watts * 10 then s.pwr.met + 1 else 0
      let fire : Bool := above == 10 && s.pwr.unmetArmed
      s.phase = .live →
      ∃ t, exec (.capLoopPeriod) s = .next t
        ∧ t.pwr.above = above
        ∧ t.pwr.met = met
        ∧ (t.tal = (if fire = true then (s.report 0x102 Kind.CAP_UNMET 0 (mean + watts * 2 ^ 16)).tal else s.tal))
        ∧ (t.pwr.unmetArmed = (if fire = true then false else s.pwr.unmetArmed || decide (100 ≤ met))))

/-- POWER AND TEMPERATURE (R501, R502, R506, R508 to R510, R546): a power sample shows itself and joins the last ten; the cap loop writes the next limit as CAP of every powered cluster, no higher than the escalation's cap; a sample at TRIP_C sets the trip, the limit 95 and reports TEMP_TRIP; a sample below every threshold reports nothing; shutdown holds FAULT_N low and stops the block; SUPPLY_LOW and REG_FAULT are reported; below 0.66 V the model stops. -/
def Obligations.PowerAndThermalSamples : Prop :=
  (∀ (s : State) (w : BitVec 12),
      s.phase = .live →
      ∃ t, exec (.powerSample w) s = .next t
        ∧ t.fld Reg.PWR_POWER 11 0 = w.toNat
        ∧ t.pwr.samples = keepLast 10 (s.pwr.samples ++ [w.toNat])
        ∧ s.onlyRegs [Reg.PWR_POWER] t)
  ∧ (∀ (s : State),
      let c : Nat := nextLimit s.pwr.trip s.pwr.high s.pwr.limit (s.fld Reg.PWR_POWER 27 16) (s.fld Reg.PWR_CAP 6 0)
      s.phase = .live →
      ∃ t, exec (.capLoopPeriod) s = .next t
        ∧ t.pwr.limit = c
        ∧ (∀ k : Fin 4, t.cap k = (if s.clusterUp k = true then min c (s.pwr.escCap.getD k 1500) % 2 ^ 12 else s.cap k))
        ∧ s.onlyRegs [Reg.PWR_PACE_CAP_C 0, Reg.PWR_PACE_CAP_C 1, Reg.PWR_PACE_CAP_C 2, Reg.PWR_PACE_CAP_C 3] t)
  ∧ (∀ (s : State) (l : List Int),
      s.phase = .live →
      l.length = 20 →
      s.pwr.trip = false →
      (s.fld Reg.PWR_THERM 23 16 : Int) ≤ (hottestOf ((List.range 20).map fun i => (i, l.getD i 0))).2 →
      ∃ t, exec (.thermalSample l) s = .next t
        ∧ t.pwr.trip = true
        ∧ t.pwr.limit = 95
        ∧ (∀ k : Fin 4, s.clusterUp k = true → t.cap k ≤ 95)
        ∧ (∃ m ∈ t.tal.waiting, m.source = 0x102)
        ∧ s.sameMem t)
  ∧ (∀ (s : State) (l : List Int),
      s.phase = .live →
      l.length = 20 →
      (hottestOf ((List.range 20).map fun i => (i, l.getD i 0))).2 < (s.fld Reg.PWR_THERM 23 16 : Int) →
      (hottestOf ((List.range 20).map fun i => (i, l.getD i 0))).2 < (s.fld Reg.PWR_THERM 7 0 : Int) →
      ∃ t, exec (.thermalSample l) s = .next t
        ∧ t.tal = s.tal
        ∧ t.pwr.limit = s.pwr.limit
        ∧ s.onlyRegs [Reg.PWR_TEMP_C 0, Reg.PWR_TEMP_C 1, Reg.PWR_TEMP_C 2, Reg.PWR_TEMP_C 3, Reg.PWR_TEMP_DIE] t)
  ∧ (∀ (s : State),
      s.phase = .live →
      s.pwr.scorched = true →
      ∃ t, exec (.thermalShutdown) s = .next t
        ∧ t.phase = .shutdown
        ∧ t.faultLow = true
        ∧ s.tells t 0x102 Kind.TEMP_TRIP 0 (s.pwr.hottest.1 + s.pwr.hottest.2 * 2 ^ 8 + 2 ^ 38)
        ∧ s.onlyRegs [] t)
  ∧ (∀ (s : State) (mv : Nat),
      s.phase = .live →
      660 ≤ mv →
      mv < 690 →
      ∃ t, exec (.supplyLow mv) s = .next t
        ∧ t = s.report 0x102 Kind.SUPPLY_LOW 0 (mv * 2 ^ 16))
  ∧ (∀ (s : State) (mv : Nat),
      mv < 660 →
      exec (.supplyLow mv) s = .fault .belowSurvival)
  ∧ (∀ (s : State) (c : ClusterId) (mv : BitVec 12),
      s.phase = .live →
      ∃ t, exec (.regFault c mv) s = .next t
        ∧ t.bit (Reg.PWR_REG_C c) 31 = false
        ∧ t.fld (Reg.PWR_REG_C c) 11 0 = mv.toNat
        ∧ s.tells t 0x102 Kind.REG_FAULT 0 (c + mv.toNat * 2 ^ 16)
        ∧ s.onlyRegs [Reg.PWR_REG_C c] t)

/-- POWER-ON (R54, R55, R452, R515, R518, R521): while PORST_N is low every register is at its reset value, no job or session stands, memory but the boot NOR is empty, FAULT_N is low; its rise samples the straps and takes what waited in the fuses; PLL lock starts the alignment counter; its wrap 960 ns later is the alignment edge, and 16 good comparisons, one a wrap, bring the block to life; a bad comparison is tried again from the next wrap and the third raises ALIGN_FAIL. That volatile memory then reads 0 is the model's choice (log entry 4). BOOT (R475, R476): the ROM boots the active set where all seven of its images pass, else the other set, saying so, else none; the end of boot shows every processor running and BOOTED, and puts the journal in use where the HyperRAM is ready. When the two parts of the disabled-unit map come into force, and when READY may be set, are the model's choices (log entries 71 to 73). -/
def Obligations.PowerOnAndBoot : Prop :=
  (∀ (s : State),
      ∃ t, exec (.porstNAssert) s = .next t
        ∧ t.phase = .held
        ∧ t.regs = []
        ∧ t.cmd.jobs = []
        ∧ t.bar.owner = none
        ∧ t.faultLow = true
        ∧ t.board = s.board
        ∧ t.pending = s.pending)
  ∧ (∀ (s : State) (a : Nat),
      s.sec.nor = none →
      (0x5000000000 ≤ a ∧ a < 0x5010000000) →
      ∃ t, exec (.porstNAssert) s = .next t
        ∧ t.byte a = s.byte a)
  ∧ (∀ (s : State) (x : Straps),
      s.phase = .held →
      ∃ t, exec (.powerOnReset x) s = .next t
        ∧ t.phase = .started
        ∧ t.board.devnum = x.devnum.val
        ∧ t.rd Reg.BIL_DEVICE = BitVec.ofNat 32 x.devnum.val
        ∧ t.board.lifecycle = s.board.lcNext.getD s.board.lifecycle
        ∧ (t.cores = s.board.fused.map (fun f => { disabled := f.1, bypass := f.2 : Core })))
  ∧ (∀ (s : State),
      s.phase = .started →
      ∃ t, exec (.pllLock) s = .next t
        ∧ t = { s with phase := .locked, pwr := { s.pwr with alignT1 := some s.refNs, edgeAt := s.refNs + 960 } })
  ∧ (∀ (s : State),
      s.phase = .locked →
      s.pwr.edgeAt ≤ s.refNs →
      ∃ t, exec (.alignmentEdge) s = .next t
        ∧ t.phase = .aligned
        ∧ t.tim.on = true
        ∧ t.fld Reg.PWR_ALIGN_STATUS 5 4 = (s.fld Reg.PWR_ALIGN_STATUS 5 4 + 1) % 4
        ∧ s.onlyRegs [Reg.PWR_ALIGN_STATUS] t)
  ∧ (∀ (s : State),
      s.phase = .aligned →
      s.pwr.edgeAt + 16 * 960 ≤ s.refNs →
      ∃ t, exec (.alignmentDone true) s = .next t
        ∧ t.phase = .live
        ∧ t.bit Reg.PWR_ALIGN_STATUS 0 = true
        ∧ s.onlyRegs [Reg.PWR_ALIGN_STATUS] t)
  ∧ (∀ (s : State),
      s.phase = .aligned →
      s.pwr.edgeAt + 960 ≤ s.refNs →
      s.fld Reg.PWR_ALIGN_STATUS 5 4 = 3 →
      ∃ t, exec (.alignmentDone false) s = .next t
        ∧ t.tim.on = false
        ∧ t.tim.now = 0
        ∧ t.phase = .failed
        ∧ t.bit Reg.PWR_ALIGN_STATUS 8 = true
        ∧ s.tells t 0x102 Kind.ALIGN_FAIL 0 0
        ∧ s.onlyRegs [Reg.PWR_ALIGN_STATUS] t)
  ∧ (∀ (s : State),
      let k : Nat := s.activeSet
      let one : Bool := (s.setFails k).all (· == 0)
      let two : Bool := (s.setFails (1 - k)).all (· == 0)
      s.phase = .live →
      s.pwr.boot = .start →
      ∃ t, exec (.bootImageCheck) s = .next t
        ∧ (t.pwr.boot = (if one = true ∨ two = true then .checked else .failed))
        ∧ (t.fld Reg.FW_STATUS 24 24 = (if one = true then k else if two = true then 1 - k else s.fld Reg.FW_STATUS 24 24))
        ∧ t.bit Reg.FW_STATUS 23 = (s.bit Reg.FW_STATUS 23 || (!one && two))
        ∧ s.sameMem t)
  ∧ (∀ (s : State),
      s.phase = .live →
      s.pwr.boot = .checked →
      s.pwr.warmPin = false →
      ∃ t, exec (.bootComplete) s = .next t
        ∧ t.pwr.boot = .done
        ∧ t.bit Reg.FW_STATUS 31 = true
        ∧ t.fld Reg.FW_STATUS 6 0 = 0x7F
        ∧ t.board.norEpoch = (s.board.norEpoch + 1) % 2 ^ 32)
  ∧ (∀ (s : State),
      s.phase = .aligned →
      s.pwr.edgeAt + 960 ≤ s.refNs →
      s.fld Reg.PWR_ALIGN_STATUS 5 4 < 3 →
      ∃ t, exec (.alignmentDone false) s = .next t
        ∧ t.tim.on = false
        ∧ t.tim.now = 0
        ∧ t.phase = .locked
        ∧ t.pwr.edgeAt = s.nextWrap
        ∧ t.tal = s.tal
        ∧ s.onlyRegs [] t)

/-- CLUSTERS (R495): GATE = 1 with no escalation of the cluster takes effect at once; a gated cluster with nothing running goes IDLE; GATE = 0 returns an IDLE cluster to ON with a fresh pace meter. STANDBY (R496 to R500): REQUEST = 1 in ON begins entry where no condition refuses it, and otherwise gives the condition in ERR; the end of entry leaves the state STANDBY, every cluster off and only ring jobs; REQUEST = 2 in STANDBY begins the exit; its end, on an alignment edge, leaves the state ON and every core's scratchpads zero. The moments of gating and ungating and what requests at other times do are the model's choices (log entries 69 and 70). -/
def Obligations.ClustersAndStandby : Prop :=
  (∀ (s : State) (t : Tag) (c : ClusterId) (v : Word),
      s.grants t 0 (Reg.PWR_CLUSTER_C c) (v ||| 0x80000000#32) →
      s.pwr.gated.length = 4 →
      s.pwr.gated.getD c false = false →
      s.escalating c = false →
      ∃ u, exec (.clusterGate t c v) s = .next u
        ∧ u.pwr.gated.getD c false = true
        ∧ u.bit (Reg.PWR_CLUSTER_C c) 31 = true
        ∧ s.sameMem u)
  ∧ (∀ (s : State) (c : ClusterId),
      s.phase = .live →
      s.pwr.gated.getD c false = true →
      s.fld (Reg.PWR_CLUSTER_C c) 25 24 < 2 →
      s.clusterBusy c = false →
      s.escalating c = false →
      ∃ t, exec (.clusterIdleEnter c) s = .next t
        ∧ t = s.setFld (Reg.PWR_CLUSTER_C c) 25 24 2
        ∧ t.clusterUp c = false)
  ∧ (∀ (s : State) (t : Tag) (c : ClusterId) (v : Word),
      s.grants t 0 (Reg.PWR_CLUSTER_C c) (v &&& ~~~0x80000000#32) →
      s.pwr.gated.length = 4 →
      s.pwr.pace.length = 4 →
      s.fld (Reg.PWR_CLUSTER_C c) 25 24 = 2 →
      ∃ u, exec (.clusterUngate t c v) s = .next u
        ∧ u.pwr.gated.getD c true = false
        ∧ u.fld (Reg.PWR_CLUSTER_C c) 25 24 = 0
        ∧ u.pwr.pace.getD c [1] = []
        ∧ s.sameMem u)
  ∧ (∀ (s : State) (t : Tag) (v : Word),
      s.grants t 0 Reg.PWR_STATE ((v ||| 0x10000000#32) &&& ~~~0x20000000#32) →
      s.fld Reg.PWR_STATE 25 24 = 0 →
      s.standbyErr = 0 →
      ∃ u, exec (.standbyEnterRequest t v) s = .next u
        ∧ u.fld Reg.PWR_STATE 25 24 = 1
        ∧ u.fld Reg.PWR_STATE 3 0 = 0
        ∧ s.onlyRegs [Reg.PWR_STATE] u)
  ∧ (∀ (s : State),
      s.phase = .live →
      s.fld Reg.PWR_STATE 25 24 = 1 →
      ∃ t, exec (.standbyEnterComplete) s = .next t
        ∧ t.fld Reg.PWR_STATE 25 24 = 2
        ∧ (∀ c : Fin 4, t.clusterUp c = false))
  ∧ (∀ (s : State) (t : Tag) (v : Word),
      s.grants t 0 Reg.PWR_STATE ((v ||| 0x20000000#32) &&& ~~~0x10000000#32) →
      s.fld Reg.PWR_STATE 25 24 = 2 →
      ∃ u, exec (.standbyExitRequest t v) s = .next u
        ∧ u.fld Reg.PWR_STATE 25 24 = 3
        ∧ s.onlyRegs [Reg.PWR_STATE] u)
  ∧ (∀ (s : State),
      s.phase = .live →
      s.fld Reg.PWR_STATE 25 24 = 3 →
      s.pwr.edgeAt ≤ s.refNs →
      s.pwr.warmNext = none →
      ∃ t, exec (.standbyExitComplete) s = .next t
        ∧ t.fld Reg.PWR_STATE 25 24 = 0
        ∧ (∀ g : Fin 32, t.byte (boltAddr g 0) = 0 ∧ t.byte (skeinAddr g 0) = 0 ∧ t.byte (lineAddr g 0) = 0))
  ∧ (∀ (s : State) (t : Tag) (v : Word),
      s.grants t 0 Reg.PWR_STATE ((v ||| 0x10000000#32) &&& ~~~0x20000000#32) →
      s.fld Reg.PWR_STATE 25 24 = 0 →
      s.standbyErr ≠ 0 →
      ∃ u, exec (.standbyEnterRequest t v) s = .next u
        ∧ u.fld Reg.PWR_STATE 25 24 = 0
        ∧ u.fld Reg.PWR_STATE 3 0 = s.standbyErr
        ∧ s.onlyRegs [Reg.PWR_STATE] u)

/-- RESETS (R293, R295, R512 to R515, R553, R554): a warm reset asked for by PWR_RESET or by WRST_N low for 1 µs begins in ON after boot and leaves no job, session claim or context hold; in STANDBY the device leaves STANDBY first; a pulse of 200 ns or less does nothing; its end with the journal in use begins the replay; a cluster reset restarts the cluster's control core; a core reset executes again the jobs that have begun there and not ended and clears the core's injection arms. What a warm reset drops beside what R518 lists, and which jobs a core reset runs again, are the model's choices (log entries 63 to 66). -/
def Obligations.ResetsTakeEffect : Prop :=
  (∀ (s : State) (t : Tag) (v : Word),
      s.grants t 0 Reg.PWR_RESET (v ||| 0x80000000#32) →
      s.pwr.boot = .done →
      s.pwr.warm = false →
      s.fld Reg.PWR_STATE 25 24 = 0 →
      ∃ u, exec (.warmResetRequest t v) s = .next u
        ∧ u.pwr.warm = true
        ∧ u.cmd.jobs = []
        ∧ u.holds = [])
  ∧ (∀ (s : State) (t : Tag) (v : Word),
      s.grants t 0 Reg.PWR_RESET (v ||| 0x80000000#32) →
      s.pwr.boot = .done →
      s.pwr.warm = false →
      s.fld Reg.PWR_STATE 25 24 = 2 →
      ∃ u, exec (.warmResetRequest t v) s = .next u
        ∧ u.pwr.warm = false
        ∧ u.pwr.warmNext = some 2
        ∧ u.fld Reg.PWR_STATE 25 24 = 3
        ∧ s.onlyRegs [Reg.PWR_RESET, Reg.PWR_STATE] u)
  ∧ (∀ (s : State) (ns : Nat),
      s.phase = .live →
      s.pwr.boot = .done →
      s.pwr.warm = false →
      s.fld Reg.PWR_STATE 25 24 = 0 →
      1000 ≤ ns →
      ∃ t, exec (.wrstNAssert ns) s = .next t
        ∧ t.pwr.warm = true
        ∧ t.pwr.warmPin = true
        ∧ t.cmd.jobs = [])
  ∧ (∀ (s : State) (ns : Nat),
      ns ≤ 200 →
      ∃ t, exec (.wrstNAssert ns) s = .next t
        ∧ t = s)
  ∧ (∀ (s : State),
      s.pwr.warm = true →
      s.journalOk = true →
      ∃ t, exec (.warmResetEnd) s = .next t
        ∧ t.pwr.warm = false
        ∧ t.pwr.warmPin = false
        ∧ t.bit Reg.CMD_STATUS 30 = true
        ∧ t.cmd.scanDue = true)
  ∧ (∀ (s : State) (t : Tag) (v : Word) (c : Fin 4),
      s.grants t 0 Reg.PWR_RESET ((v ||| 0x40000000#32) &&& ~~~0x80000000#32) →
      s.pwr.warm = false →
      s.fld Reg.PWR_STATE 25 24 = 0 →
      v.toNat % 4 = c.val →
      s.fw.length = 7 →
      (s.proc (3 + c)).restart = none →
      s.bit (Reg.FW_PROC (3 + c)) 28 = false →
      ∃ u, exec (.clusterReset t v) s = .next u
        ∧ (u.proc (3 + c)).restart = some (1, s.refNs)
        ∧ u.bit (Reg.FW_PROC (3 + c)) 30 = true
        ∧ u.bit Reg.FW_STATUS (3 + c) = false)
  ∧ (∀ (s : State) (t : Tag) (v : Word) (g : Fin 32) (j : Job),
      s.grants t 0 Reg.PWR_RESET ((v ||| 0x20000000#32) &&& ~~~0xC0000000#32) →
      s.pwr.warm = false →
      s.fld Reg.PWR_STATE 25 24 = 0 →
      v.toNat % 32 = g.val →
      (s.core g).disabled = false →
      s.cmd.jobs = [j] →
      (j.phase = .placed ∧ j.core = g.val ∧ j.cmds.any (·.began) = true ∧ j.ended = false) →
      ∃ u, exec (.coreReset t v) s = .next u
        ∧ (u.cmd.jobs.map (fun x => (x.id, x.phase, x.replayed)) = [(j.id, .accepted, true)])
        ∧ u.bit (Reg.TW_LEDGER_INJECT g) 31 = false
        ∧ u.bit (Reg.BT_ECC_INJECT g) 31 = false)

/-! ### Firmware, keys and the boot NOR -/

/-- ACTIVATION AND FUSES (R478 to R480): ACTIVATE with the security core free begins the check of SET; its end clears BUSY and, with an image that fails, gives the failing check in ERR and writes nothing, and with every image good and another set running sets ACTIVATED; COMMIT raises the rollback counter of an image to its SVN where that is higher and the image is no test image; MAP_CLEAR in MANUFACTURE or RETURN drops the in-service entries at the next power-on reset; REQUEST judges the token: a granted state change waits for the next power-on reset. Signatures are opaque functions of Config (log entry 17), and digests are SHA3-256's (log entry 16). -/
def Obligations.ImageSetsAndFuses : Prop :=
  (∀ (s : State) (t : Tag) (v : Word),
      s.grants t 0 Reg.FW_ACTIVATE (v ||| 0x80000000#32) →
      s.sec.nor = none →
      s.sec.activate = none →
      s.securityUp = true →
      ∃ u, exec (.fwActivate t v) s = .next u
        ∧ u.sec.activate = some (v.toNat % 2)
        ∧ u.bit Reg.FW_ACTIVATE 30 = true
        ∧ u.fld Reg.FW_ACTIVATE 11 8 = 0
        ∧ s.onlyRegs [Reg.FW_ACTIVATE] u)
  ∧ (∀ (s : State) (set : Nat),
      let bad : Option Nat := (s.setFails set).find? (· ≠ 0)
      s.sec.activate = some set →
      s.securityUp = true →
      ∃ t, exec (.activationComplete) s = .next t
        ∧ t.sec.activate = none
        ∧ t.bit Reg.FW_ACTIVATE 30 = false
        ∧ t.fld Reg.FW_ACTIVATE 11 8 = (match bad with | some e => e % 16 | none => s.fld Reg.FW_ACTIVATE 11 8)
        ∧ t.bit Reg.FW_STATUS 30 = (s.bit Reg.FW_STATUS 30 || (bad.isNone && set != s.runningSet))
        ∧ (t.mem = (if bad.isNone = true then (s.writeDirectory set).mem else s.mem)))
  ∧ (∀ (s : State) (t : Tag) (v : Word) (n : Fin 7),
      s.grants t 0 Reg.SEC_ROLLBACK_COMMIT (v ||| 0x80000000#32) →
      v.toNat % 8 = n.val →
      s.board.rollback.length = 7 →
      (s.proc n).debug = false →
      s.board.rollback.getD n 0 < s.fld (Reg.FW_IMAGE_SVN n) 6 0 →
      ∃ u, exec (.rollbackCommit t v) s = .next u
        ∧ u.board.rollback.getD n 0 = s.fld (Reg.FW_IMAGE_SVN n) 6 0
        ∧ (u.rd (Reg.SEC_ROLLBACK n)).toNat = s.fld (Reg.FW_IMAGE_SVN n) 6 0
        ∧ u.fld Reg.SEC_ROLLBACK_COMMIT 11 8 = 0
        ∧ s.onlyRegs [Reg.SEC_ROLLBACK_COMMIT, Reg.SEC_ROLLBACK n] u)
  ∧ (∀ (s : State) (t : Tag) (v : Word),
      s.grants t 0 Reg.SEC_LC_CTRL (v ||| 0x40000000#32) →
      v.getLsbD 31 = false →
      (s.board.lifecycle = 0 ∨ s.board.lifecycle = 3) →
      ∃ u, exec (.mapClear t v) s = .next u
        ∧ u.board = { s.board with mapClear := true }
        ∧ s.onlyRegs [] u)
  ∧ (∀ (s : State) (t : Tag) (v : Word),
      let a : Nat := s.rd64 Reg.SEC_LC_TOKEN % 2 ^ 40
      let k : List Byte := s.peek a 3828
      let e : Nat := s.tokenFails k
      s.grants t 0 Reg.SEC_LC_CTRL (v ||| 0x80000000#32) →
      v.getLsbD 30 = false →
      (0x5000000000 ≤ a ∧ a + 3828 ≤ 0x5000000000 + s.norBytes ∧ a + 3828 ≤ 0x5010000000) →
      ∃ u, exec (.lifecycleRequest t v) s = .next u
        ∧ u.fld Reg.SEC_LC_CTRL 3 0 = e
        ∧ (u.board = (if e ≠ 0 then s.board else if le k 2 1 = 0 then { s.board with lcNext := some (le k 3 1) } else { s.board with revokeNext := true }))
        ∧ s.sameMem u)

/-- THE NOR (R477): an erase of whole sectors of a permitted target and a program of the owner area from readable memory begin, with BUSY; the end of an erase leaves all ones in the sectors, the end of a program the bytes it copied, and BUSY clear; a target outside is refused with ERR 1. That an erased sector reads all ones is the model's presumption (log entry 5). -/
def Obligations.NorErasesAndPrograms : Prop :=
  (∀ (s : State) (t : Tag) (v : Word),
      let off : Nat := (s.rd Reg.SEC_NOR_DST).toNat
      let n : Nat := (s.rd Reg.SEC_NOR_LEN).toNat
      s.grants t 0 Reg.SEC_NOR_CTRL ((v ||| 0x81000000#32) &&& ~~~0x02000000#32) →
      s.sec.nor = none →
      s.sec.activate = none →
      s.securityUp = true →
      n ≠ 0 →
      off % 0x10000 = 0 →
      s.norTarget off (n * 0x10000) = true →
      ∃ u, exec (.norErase t v) s = .next u
        ∧ u.sec.nor = some (.erase off n)
        ∧ u.bit Reg.SEC_NOR_CTRL 30 = true
        ∧ s.onlyRegs [Reg.SEC_NOR_CTRL] u)
  ∧ (∀ (s : State) (t : Tag) (v : Word),
      let off : Nat := (s.rd Reg.SEC_NOR_DST).toNat
      let n : Nat := (s.rd Reg.SEC_NOR_LEN).toNat
      let a : Nat := s.rd64 Reg.SEC_NOR_SRC % 2 ^ 40
      s.grants t 0 Reg.SEC_NOR_CTRL ((v ||| 0x82000000#32) &&& ~~~0x01000000#32) →
      s.sec.nor = none →
      s.sec.activate = none →
      s.securityUp = true →
      n ≠ 0 →
      a % 64 = 0 →
      (0x5000000000 ≤ a ∧ a + n ≤ 0x5000000000 + s.norBytes ∧ a + n ≤ 0x5010000000) →
      (0x1100000 ≤ off ∧ off + n ≤ s.norBytes) →
      ∃ u, exec (.norProgram t v) s = .next u
        ∧ u.sec.nor = some (.program off (s.peek a n))
        ∧ u.bit Reg.SEC_NOR_CTRL 30 = true
        ∧ s.onlyRegs [Reg.SEC_NOR_CTRL] u)
  ∧ (∀ (s : State) (t : Tag) (v : Word),
      let off : Nat := (s.rd Reg.SEC_NOR_DST).toNat
      s.grants t 0 Reg.SEC_NOR_CTRL ((v ||| 0x81000000#32) &&& ~~~0x02000000#32) →
      s.sec.nor = none →
      s.sec.activate = none →
      s.securityUp = true →
      off < 0x10000 →
      ∃ u, exec (.norErase t v) s = .next u
        ∧ u.sec.nor = none
        ∧ u.fld Reg.SEC_NOR_CTRL 3 0 = 1
        ∧ s.onlyRegs [Reg.SEC_NOR_CTRL] u)
  ∧ (∀ (s : State) (off n a : Nat),
      s.sec.nor = some (.erase off n) →
      s.securityUp = true →
      ∃ t, exec (.norOpComplete) s = .next t
        ∧ (t.byte a = (if norAddr off ≤ a ∧ a < norAddr off + n * 0x10000 then 0xFF else s.byte a))
        ∧ t.sec.nor = none
        ∧ t.bit Reg.SEC_NOR_CTRL 30 = false
        ∧ s.sameRegs [Reg.SEC_NOR_CTRL] t)
  ∧ (∀ (s : State) (off : Nat) (l : List Byte),
      s.sec.nor = some (.program off l) →
      s.securityUp = true →
      ∃ t, exec (.norOpComplete) s = .next t
        ∧ t.peek (norAddr off) l.length = l
        ∧ t.sec.nor = none
        ∧ t.bit Reg.SEC_NOR_CTRL 30 = false
        ∧ s.sameRegs [Reg.SEC_NOR_CTRL] t)

/-- RESTARTS (R481 to R485): RESTART of a running processor begins its restart with cause request, and its watchdog's expiry with cause watchdog; a second expiry within 1 s, and a restart that overruns its bound by 3 ms, hold it in reset and report FW_RESTART_FAIL; the release shows it running with its cause; TEST outside PRODUCTION restarts it onto a test image that passes and otherwise reports FW_IMAGE_BAD. -/
def Obligations.ProcessorsRestart : Prop :=
  (∀ (s : State) (t : Tag) (n : Fin 7) (v : Word),
      s.grants t 0 (Reg.FW_PROC n) (v ||| 0x80000000#32) →
      v.getLsbD 29 = false →
      s.fw.length = 7 →
      (s.proc n).restart = none →
      s.bit (Reg.FW_PROC n) 28 = false →
      s.fld Reg.PWR_STATE 25 24 = 0 →
      ∃ u, exec (.fwRestartRequest t n v) s = .next u
        ∧ (u.proc n).restart = some (1, s.refNs)
        ∧ u.bit (Reg.FW_PROC n) 30 = true
        ∧ u.procUp n = false
        ∧ s.sameMem u)
  ∧ (∀ (s : State) (n : Fin 7),
      s.phase = .live →
      s.procUp n = true →
      s.pwr.warm = false →
      s.fw.length = 7 →
      (s.proc n).watchAt = none →
      (s.proc n).restart = none →
      s.bit (Reg.FW_PROC n) 28 = false →
      s.fld Reg.PWR_STATE 25 24 = 0 →
      ∃ t, exec (.fwWatchdogExpire n) s = .next t
        ∧ (t.proc n).restart = some (2, s.refNs)
        ∧ (t.proc n).watchAt = some s.refNs
        ∧ t.procUp n = false
        ∧ s.tells t (procSrc n) Kind.FW_WATCHDOG 0 n
        ∧ s.sameMem t)
  ∧ (∀ (s : State) (n : Fin 7) (d : Nat),
      s.phase = .live →
      s.procUp n = true →
      s.pwr.warm = false →
      s.fw.length = 7 →
      (s.proc n).watchAt = some d →
      s.refNs < d + 1000000000 →
      ∃ t, exec (.fwWatchdogExpire n) s = .next t
        ∧ (t.proc n).restart = none
        ∧ t.bit (Reg.FW_PROC n) 28 = true
        ∧ t.procUp n = false
        ∧ (∃ m ∈ t.tal.waiting, m.source = procSrc n)
        ∧ s.sameMem t)
  ∧ (∀ (s : State) (n : Fin 7) (c d : Nat),
      s.phase = .live →
      s.pwr.warm = false →
      s.fw.length = 7 →
      (s.proc n).restart = some (c, d) →
      d + (procBound n + 3) * 1000000 ≤ s.refNs →
      ∃ t, exec (.fwRestartTimeout n) s = .next t
        ∧ (t.proc n).restart = none
        ∧ t.bit (Reg.FW_PROC n) 28 = true
        ∧ s.tells t (procSrc n) Kind.FW_RESTART_FAIL 0 n
        ∧ s.onlyRegs [Reg.FW_PROC n, Reg.FW_STATUS] t)
  ∧ (∀ (s : State) (n : Fin 7) (c d : Nat),
      s.phase = .live →
      s.pwr.warm = false →
      s.fw.length = 7 →
      (s.proc n).restart = some (c, d) →
      (s.proc n).test = none →
      s.fld Reg.PWR_STATE 25 24 = 0 →
      s.cmd.scanDue = false →
      ∃ t, exec (.fwRestartComplete n false false) s = .next t
        ∧ (t.proc n).restart = none
        ∧ t.procUp n = true
        ∧ t.bit (Reg.FW_PROC n) 30 = false
        ∧ t.fld (Reg.FW_PROC n) 26 24 = c % 8
        ∧ s.sameMem t)
  ∧ (∀ (s : State) (t : Tag) (n : Fin 7) (v : Word),
      let a : Nat := s.rd64 Reg.FW_TEST_ADDR % 2 ^ 40
      let k : List Byte := s.peek a (1408 + min (codeLen (s.peek a 64)) (512 * 1024) + 2432)
      let e : Nat := s.imageFails k n [] true
      s.grants t 0 (Reg.FW_PROC n) (v ||| 0x20000000#32) →
      v.getLsbD 31 = false →
      s.fw.length = 7 →
      s.board.lifecycle ≠ 2 →
      s.securityUp = true →
      (s.proc n).restart = none →
      s.bit (Reg.FW_PROC n) 28 = false →
      s.fld Reg.PWR_STATE 25 24 = 0 →
      (0x5000000000 ≤ a ∧ a + 528128 ≤ 0x5000000000 + s.norBytes ∧ a + 528128 ≤ 0x5010000000) →
      a % 64 = 0 →
      ∃ u, exec (.fwTestRestart t n v) s = .next u
        ∧ ((u.proc n).restart = (if e = 0 then some (4, s.refNs) else none))
        ∧ ((u.proc n).test = (if e = 0 then some k else (s.proc n).test))
        ∧ (u.tal = (if e = 0 then s.tal else (s.imageBad n 0 e).tal))
        ∧ s.sameMem u)

/-- KEYS AND REPORTS (R487, R488, R490): START with no load running begins a load from SEC_KEY_LOAD_ADDR; its end clears BUSY and gives in ERR what the checks found, and a blob that passes takes its slot; START of an attestation with the core free captures the state; its end shows DONE and a report. ML-DSA is opaque functions of Config (log entry 17); SHA3-256 and AES-GCM are those of their standards (log entries 16 and 18). -/
def Obligations.KeysAndAttestation : Prop :=
  (∀ (s : State) (t : Tag) (v : Word),
      s.grants t 0 Reg.SEC_KEY_CTRL (v ||| 0x80000000#32) →
      s.sec.keyLoad = none →
      ∃ u, exec (.keyLoad t v) s = .next u
        ∧ u.sec.keyLoad = some (s.rd64 Reg.SEC_KEY_LOAD_ADDR % 2 ^ 40)
        ∧ u.bit Reg.SEC_KEY_CTRL 30 = true
        ∧ s.sameMem u)
  ∧ (∀ (s : State) (a : Nat),
      let k : List Byte := s.peek a (if blobForm (s.peek a 64) then blobBytes (s.peek a 64) else 64)
      s.sec.keyLoad = some a →
      s.securityUp = true →
      (0x5000000000 ≤ a ∧ a + 131072 ≤ 0x5000000000 + s.norBytes ∧ a + 131072 ≤ 0x5010000000) →
      ∃ t, exec (.keyLoadComplete) s = .next t
        ∧ t.sec.keyLoad = none
        ∧ t.bit Reg.SEC_KEY_CTRL 30 = false
        ∧ t.fld Reg.SEC_KEY_CTRL 3 0 = (s.loadBlob k).1
        ∧ t.sec.dkeys = (s.loadBlob k).2.sec.dkeys
        ∧ t.sec.vkeys = (s.loadBlob k).2.sec.vkeys
        ∧ s.sameMem t)
  ∧ (∀ (s : State) (t : Tag) (v : Word),
      s.grants t 0 Reg.SEC_ATTEST_CTRL (v ||| 0x80000000#32) →
      s.bit Reg.SEC_ATTEST_CTRL 30 = false →
      s.securityUp = true →
      ∃ u, exec (.attestStart t v) s = .next u
        ∧ u.sec.attest.isSome = true
        ∧ u.bit Reg.SEC_ATTEST_CTRL 30 = true
        ∧ u.bit Reg.SEC_ATTEST_CTRL 29 = false
        ∧ s.onlyRegs [Reg.SEC_ATTEST_CTRL] u)
  ∧ (∀ (s : State) (l : List Byte),
      s.sec.attest = some l →
      s.securityUp = true →
      ∃ t, exec (.attestDone) s = .next t
        ∧ t.sec.attest = none
        ∧ t.bit Reg.SEC_ATTEST_CTRL 30 = false
        ∧ t.bit Reg.SEC_ATTEST_CTRL 29 = true
        ∧ s.sameMem t)
  ∧ (∀ (s : State) (a : Nat),
      let k : List Byte := s.peek a (if blobForm (s.peek a 64) then blobBytes (s.peek a 64) else 64)
      s.sec.keyLoad = some a →
      s.securityUp = true →
      (0x5000000000 ≤ a ∧ a + 131072 ≤ 0x5000000000 + s.norBytes ∧ a + 131072 ≤ 0x5010000000) →
      (s.loadBlob k).1 ≠ 0 →
      ∃ t, exec (.keyLoadComplete) s = .next t
        ∧ t.sec = { s.sec with keyLoad := none }
        ∧ s.onlyRegs [Reg.SEC_KEY_CTRL] t)

/-! ### The ledger's escalation, self-test, monitors, digests, the test port -/

/-- ESCALATION (R110, R112 to R114, R505): stages 1 to 4 raise the cluster's regulator to the stage, where it is lower, and wait for it; 5 and 6 hold the PACE cap at no more than 1100 and 950; stage 7 bypasses the column that most records name; 8, and 7 with no such column, disables the core and ends the escalation. Each stage sends LEDGER_ESCALATED. REGULATOR_SETTLED makes the probe of every waiting escalation of the cluster due, and reports REG_FAULT where the regulator did not settle. That the Address of stage 7 leaves COL_VALID 0 is the model's choice (log entry 74), and no clause states it. -/
def Obligations.EscalationStages : Prop :=
  (∀ (s : State) (u : UnitId) (e : Escal),
      let r : Nat := Reg.PWR_REG_C (u.core.val / 8)
      s.escal u = some e →
      e.phase = .due →
      s.phase = .live →
      s.controlUp u.core.val = true →
      e.stage < 4 →
      s.fld r 22 20 < e.stage + 1 →
      ∃ t, exec (.escalationStageEnter u) s = .next t
        ∧ t.escal u = some ⟨e.stage + 1, .settling⟩
        ∧ t.fld r 22 20 = e.stage + 1
        ∧ t.bit r 31 = false
        ∧ (t.fld (Reg.TW_LEDGER_STATUS u.core.val) 11 8 = (if u.unit.val = 0 then e.stage + 1 else s.fld (Reg.TW_LEDGER_STATUS u.core.val) 11 8))
        ∧ s.tells t (unitSource u) Kind.LEDGER_ESCALATED 0 ((e.stage + 1) * 2 ^ 32)
        ∧ s.onlyRegs [r, Reg.TW_LEDGER_STATUS u.core.val] t)
  ∧ (∀ (s : State) (u : UnitId) (e : Escal),
      let r : Nat := Reg.PWR_REG_C (u.core.val / 8)
      s.escal u = some e →
      e.phase = .due →
      s.phase = .live →
      s.controlUp u.core.val = true →
      e.stage < 4 →
      e.stage + 1 ≤ s.fld r 22 20 →
      ∃ t, exec (.escalationStageEnter u) s = .next t
        ∧ t.escal u = some ⟨e.stage + 1, .probeDue⟩
        ∧ s.tells t (unitSource u) Kind.LEDGER_ESCALATED 0 ((e.stage + 1) * 2 ^ 32)
        ∧ s.onlyRegs [Reg.TW_LEDGER_STATUS u.core.val] t)
  ∧ (∀ (s : State) (u : UnitId) (e : Escal),
      let c : Nat := u.core.val / 8
      let lim : Nat := if e.stage = 4 then 1100 else 950
      s.escal u = some e →
      e.phase = .due →
      s.phase = .live →
      s.controlUp u.core.val = true →
      (e.stage = 4 ∨ e.stage = 5) →
      s.pwr.escCap.length = 4 →
      ∃ t, exec (.escalationStageEnter u) s = .next t
        ∧ t.escal u = some ⟨e.stage + 1, .probeDue⟩
        ∧ t.pwr.escCap.getD c 1500 = min (s.pwr.escCap.getD c 1500) lim
        ∧ t.fld (Reg.PWR_PACE_CAP_C c) 11 0 = min (s.fld (Reg.PWR_PACE_CAP_C c) 11 0) lim
        ∧ s.tells t (unitSource u) Kind.LEDGER_ESCALATED 0 ((e.stage + 1) * 2 ^ 32)
        ∧ s.onlyRegs [Reg.PWR_PACE_CAP_C c, Reg.TW_LEDGER_STATUS u.core.val] t)
  ∧ (∀ (s : State) (u : UnitId) (e : Escal) (col : Nat),
      let g : Nat := u.core.val
      s.escal u = some e →
      e.phase = .due →
      s.phase = .live →
      s.controlUp g = true →
      e.stage = 6 →
      u.unit.val = 0 →
      (s.core g).bypassed.length < 8 →
      s.candidate g = some col →
      ∃ t, exec (.escalationStageEnter u) s = .next t
        ∧ t.escal u = some ⟨7, .probeDue⟩
        ∧ (t.core g).pendMap = some ((s.core g).disabled, insertCol col (s.core g).bypassed)
        ∧ (t.core g).bypass = (s.core g).bypass
        ∧ t.tal.waiting = ((s.report (unitSource u) Kind.LEDGER_ESCALATED 0 (7 * 2 ^ 32)).report (unitSource u) Kind.LEDGER_BYPASS 0 (col * 2 ^ 10)).tal.waiting
        ∧ s.onlyRegs [Reg.TW_LEDGER_STATUS g] t)
  ∧ (∀ (s : State) (u : UnitId) (e : Escal),
      let g : Nat := u.core.val
      s.escal u = some e →
      e.phase = .due →
      s.phase = .live →
      s.controlUp g = true →
      6 ≤ e.stage →
      (u.unit.val ≠ 0 ∨ 8 ≤ (s.core g).bypassed.length ∨ s.candidate g = none) →
      s.board.service.length = 32 →
      ∃ t, exec (.escalationStageEnter u) s = .next t
        ∧ t.escal u = none
        ∧ (t.core g).pendMap = some (true, (s.core g).bypassed)
        ∧ t.board.service.getD g (false, []) = (true, (s.core g).bypassed)
        ∧ (t.fld (Reg.TW_LEDGER_STATUS g) 15 8 = (if u.unit.val = 0 then 0x80 else s.fld (Reg.TW_LEDGER_STATUS g) 15 8))
        ∧ s.sameMem t)
  ∧ (∀ (s : State) (c : ClusterId) (ok : Bool) (mv : BitVec 12) (u : UnitId),
      ∃ t, exec (.regulatorSettled c ok mv) s = .next t
        ∧ t.bit (Reg.PWR_REG_C c.val) 31 = ok
        ∧ t.fld (Reg.PWR_REG_C c.val) 11 0 = mv.toNat
        ∧ (t.escal u = (s.escal u).map fun e => if u.core.val / 8 = c.val ∧ e.phase = .settling then { e with phase := .probeDue } else e)
        ∧ (t.tal = (if ok = true then s.tal else (s.report 0x102 Kind.REG_FAULT 0 (c.val + mv.toNat * 2 ^ 16)).tal))
        ∧ s.onlyRegs [Reg.PWR_REG_C c.val] t)
  ∧ (∀ (s : State) (u : UnitId) (e : Escal),
      let g : Nat := u.core.val
      s.escal u = some e →
      e.phase = .due →
      s.phase = .live →
      s.controlUp g = true →
      6 ≤ e.stage →
      (u.unit.val ≠ 0 ∨ 8 ≤ (s.core g).bypassed.length ∨ s.candidate g = none) →
      s.bit (Reg.PWR_CLUSTER_C (g / 8)) 31 = false →
      ∃ t, exec (.escalationStageEnter u) s = .next t
        ∧ t.tal.waiting = ((s.report (unitSource u) Kind.LEDGER_ESCALATED 0 (8 * 2 ^ 32)).report (unitSource u) Kind.LEDGER_DISABLE 0 0).tal.waiting
        ∧ s.onlyRegs [Reg.TW_LEDGER_STATUS g] t)

/-- PROBES AND THE MAP (R84, R110, R111, R119): PROBE starts the probe set of a unit whose probe is due, on a core with no command in progress and no map entry waiting; a clean probe with known answers clears SUSPECT, sends LEDGER_RESTORED and ends the escalation, STAGE 0 and HELD the last stage; any other makes the next stage due and leaves SUSPECT; a probe's run is no longer than 1,000,000 bit-steps (R111) and counts in the unit's registers. A map entry takes effect when no command is in progress. -/
def Obligations.ProbesEndEscalation : Prop :=
  (∀ (s : State) (u : UnitId) (e : Escal),
      s.escal u = some e →
      e.phase = .probeDue →
      s.controlUp u.core.val = true →
      (s.core u.core.val).pendMap = none →
      s.coreBusy u.core.val = false →
      (s.core u.core.val).testing = false →
      ∃ t, exec (.probe u) s = .next t
        ∧ t.escal u = some { e with phase := .probing }
        ∧ t.tal = s.tal
        ∧ s.onlyRegs [] t)
  ∧ (∀ (s : State) (u : UnitId) (e : Escal) (p : ProbePasses) (k : ProbeSteps) (bad : List ProbeBad),
      let g : Nat := u.core.val
      s.escal u = some e →
      u.unit.val = 0 →
      e.phase = .probing →
      s.controlUp g = true →
      k.ran ≤ 1000000 →
      (∀ b ∈ bad, b.outcome = 0) →
      ∃ t, exec (.probeComplete u p k bad true) s = .next t
        ∧ t.escal u = none
        ∧ t.bit (suspectReg u) 30 = false
        ∧ t.fld (Reg.TW_LEDGER_STATUS g) 2 0 = 0
        ∧ t.fld (Reg.TW_LEDGER_STATUS g) 11 8 = 0
        ∧ t.fld (Reg.TW_LEDGER_STATUS g) 15 12 = e.stage % 16
        ∧ (t.rd (Reg.TW_PASSES g)).toNat = ((s.rd (Reg.TW_PASSES g)).toNat + p.ran) % 2 ^ 32
        ∧ t.rd64 (Reg.TW_STEPS_SAVED g) = (s.rd64 (Reg.TW_STEPS_SAVED g) + k.saved) % 2 ^ 64
        ∧ s.sameMem t)
  ∧ (∀ (s : State) (u : UnitId) (e : Escal) (p : ProbePasses) (k : ProbeSteps) (bad : List ProbeBad) (known : Bool),
      s.escal u = some e →
      escalates u = true →
      e.phase = .probing →
      s.controlUp u.core.val = true →
      k.ran ≤ 1000000 →
      s.bit (suspectReg u) 30 = true →
      (known = false ∨ ∃ b ∈ bad, b.outcome ≠ 0) →
      ∃ t, exec (.probeComplete u p k bad known) s = .next t
        ∧ t.escal u = some { e with phase := .due }
        ∧ t.bit (suspectReg u) 30 = true
        ∧ s.sameMem t)
  ∧ (∀ (s : State) (g : CoreId) (dis : Bool) (cols : List Nat),
      (s.core g.val).pendMap = some (dis, cols) →
      s.coreBusy g.val = false →
      ((s.core g.val).escal.any fun e => e.any (·.phase = .probing)) = false →
      ∃ t, exec (.disabledMapApply g) s = .next t
        ∧ (t.core g.val).disabled = dis
        ∧ (t.core g.val).bypass = cols
        ∧ (t.core g.val).pendMap = none)
  ∧ (∀ (s : State) (g : CoreId) (dis : Bool) (cols : List Nat),
      (s.core g.val).pendMap = some (dis, cols) →
      s.coreBusy g.val = false →
      ((s.core g.val).escal.any fun e => e.any (·.phase = .probing)) = false →
      (dis = false ∨ (s.core g.val).disabled = true) →
      ∃ t, exec (.disabledMapApply g) s = .next t
        ∧ (t = s.updCore g.val fun c => { c with disabled := dis, bypass := cols, pendMap := none }))
  ∧ (∀ (s : State) (u : UnitId) (e : Escal) (p : ProbePasses) (k : ProbeSteps) (bad : List ProbeBad),
      let g : Nat := u.core.val
      let m : Nat := u.unit.val - 2
      s.escal u = some e →
      2 ≤ u.unit.val →
      e.phase = .probing →
      s.controlUp g = true →
      k.ran ≤ 1000000 →
      s.bit (Reg.PWR_CLUSTER_C (g / 8)) 31 = false →
      (∀ b ∈ bad, b.outcome = 0) →
      ∃ t, exec (.probeComplete u p k bad true) s = .next t
        ∧ t.escal u = none
        ∧ t.bit (suspectReg u) 30 = false
        ∧ (t.rd (Reg.TD_CHAINS g m)).toNat = ((s.rd (Reg.TD_CHAINS g m)).toNat + p.ran) % 2 ^ 32
        ∧ s.tells t (unitSource u) Kind.LEDGER_RESTORED 0 0
        ∧ s.sameMem t)

/-- SLICES (R458 to R462, R466): the runner asks for the core whose last cycle is oldest; the scheduler withdraws the core for the slice, or defers it where deadline work needs it, and 100 µs later it may be asked again; a slice that passes moves the cycle on, and the last one counts the cycle; a failing slice reports it, makes the engine or tidy unit suspect, and for another unit enters the core in the disabled map. A core without a cycle for the interval reports SELFTEST_STARVED. -/
def Obligations.SelfTestSlices : Prop :=
  (∀ (s : State) (g : Nat),
      s.phase = .live →
      s.pwr.boot = .done →
      s.bit Reg.TAL_SW_CTRL 31 = true →
      s.fld Reg.PWR_STATE 25 24 = 0 →
      s.pwr.warm = false →
      s.sch.testAsk = none →
      s.sch.testCore = none →
      s.nextTest = some g →
      ∃ t, exec (.swatchSliceRequest) s = .next t
        ∧ t.sch.testAsk = some g
        ∧ t.sch.testCore = none
        ∧ s.onlyRegs [] t)
  ∧ (∀ (s : State) (g : CoreId) (d : Nat),
      (s.core g.val).testDefer = some d →
      d ≤ s.refNs →
      ∃ t, exec (.swatchDeferRetry g) s = .next t
        ∧ (t.core g.val).testDefer = none
        ∧ s.onlyRegs [] t)
  ∧ (∀ (s : State) (g : CoreId),
      s.sch.testAsk = some g.val →
      s.schedUp = true →
      s.deadlineBusy g.val = false →
      s.workFits g.val = true →
      s.sch.testCore = none →
      s.openCore g.val = true →
      s.victimOn g.val 3 (fun _ => true) = none →
      s.cores.length = 32 →
      ∃ t, exec (.selftestSlicePlace g) s = .next t
        ∧ t.sch.testCore = some g.val
        ∧ t.sch.testAsk = none
        ∧ (t.core g.val).testing = true
        ∧ t.bit Reg.TAL_SW_STATUS 31 = true
        ∧ t.fld Reg.TAL_SW_STATUS 20 16 = g.val
        ∧ s.onlyRegs [Reg.TAL_SW_STATUS] t)
  ∧ (∀ (s : State) (g : CoreId),
      s.sch.testAsk = some g.val →
      s.schedUp = true →
      (s.deadlineBusy g.val = true ∨ s.workFits g.val = false ∨ s.sch.testCore.isSome = true ∨ s.openCore g.val = false) →
      s.cores.length = 32 →
      ∃ t, exec (.selftestSlicePlace g) s = .next t
        ∧ t.sch.testAsk = none
        ∧ t.sch.testCore = s.sch.testCore
        ∧ (t.core g.val).testDefer = some (s.refNs + 100000)
        ∧ (t.rd Reg.TAL_SW_DEFERRED).toNat = min ((s.rd Reg.TAL_SW_DEFERRED).toNat + 1) (2 ^ 32 - 1)
        ∧ s.onlyRegs [Reg.TAL_SW_DEFERRED] t)
  ∧ (∀ (s : State) (g : CoreId) (n k : Nat),
      s.sch.testCore = some g.val →
      k ≤ s.fld Reg.SCH_TEST_SLICE 17 0 →
      (s.test g.val).at_ + n < (s.test g.val).total →
      s.swr.cores.length = 32 →
      ∃ t, exec (.swatchSliceEnd g ⟨k, n, none⟩) s = .next t
        ∧ t.sch.testCore = none
        ∧ (t.core g.val).testing = false
        ∧ t.bit Reg.TAL_SW_STATUS 31 = false
        ∧ (t.test g.val).at_ = (s.test g.val).at_ + n
        ∧ t.tal = s.tal
        ∧ s.onlyRegs [Reg.TAL_SW_STATUS] t)
  ∧ (∀ (s : State) (g : CoreId) (n k : Nat),
      s.sch.testCore = some g.val →
      k ≤ s.fld Reg.SCH_TEST_SLICE 17 0 →
      (s.test g.val).total ≤ (s.test g.val).at_ + n →
      s.swr.cores.length = 32 →
      ∃ t, exec (.swatchSliceEnd g ⟨k, n, none⟩) s = .next t
        ∧ t.sch.testCore = none
        ∧ (t.test g.val).at_ = 0
        ∧ (t.test g.val).since = s.refNs
        ∧ (t.rd Reg.TAL_SW_CYCLES).toNat = min ((s.rd Reg.TAL_SW_CYCLES).toNat + 1) (2 ^ 32 - 1)
        ∧ s.sameRegs [Reg.TAL_SW_STATUS, Reg.TAL_SW_CYCLES, Reg.MEM_HR_CE, Reg.MEM_HR_UE] t)
  ∧ (∀ (s : State) (g : CoreId) (n k e idx a : Nat) (unit : Fin 8) (crc : Word),
      s.sch.testCore = some g.val →
      k ≤ s.fld Reg.SCH_TEST_SLICE 17 0 →
      (s.test g.val).packs = [] →
      s.marks (testEntryAt g.val 0) 32 = [] →
      (a < testEntryAt g.val 0 ∨ testEntryAt g.val 0 + 32 ≤ a) →
      s.swr.cores.length = 32 →
      ∃ t, exec (.swatchSliceEnd g ⟨k, n, some (e, idx, unit, crc)⟩) s = .next t
        ∧ t.sch.testCore = none
        ∧ (t.test g.val).at_ = 0
        ∧ le (t.peek (testEntryAt g.val 0) 32) 12 4 = min (le (s.peek (testEntryAt g.val 0) 32) 12 4 + 1) (2 ^ 32 - 1)
        ∧ le (t.peek (testEntryAt g.val 0) 32) 24 2 = idx % 2 ^ 16
        ∧ t.byte a = s.byte a)
  ∧ (∀ (s : State) (g : CoreId),
      let x : CoreTest := s.test g.val
      s.phase = .live →
      s.pwr.boot = .done →
      (s.core g.val).disabled = false →
      s.clusterUp (g.val / 8) = true →
      max x.since x.starvedAt + s.testInterval ≤ s.refNs →
      s.swr.cores.length = 32 →
      ∃ t, exec (.selftestStarved g) s = .next t
        ∧ s.tells t 0x174 Kind.SELFTEST_STARVED 0 (g.val * 2 ^ 32)
        ∧ (t.rd Reg.TAL_SW_STARVED).toNat = min ((s.rd Reg.TAL_SW_STARVED).toNat + 1) (2 ^ 32 - 1)
        ∧ t.test g.val = { x with starvedAt := s.refNs }
        ∧ s.onlyRegs [Reg.TAL_SW_STARVED] t)
  ∧ (∀ (s : State) (g : CoreId) (n k a : Nat),
      s.sch.testCore = some g.val →
      k ≤ s.fld Reg.SCH_TEST_SLICE 17 0 →
      (s.test g.val).total ≤ (s.test g.val).at_ + n →
      (s.test g.val).packs = [] →
      s.marks (testEntryAt g.val 0) 32 = [] →
      (a < testEntryAt g.val 0 ∨ testEntryAt g.val 0 + 32 ≤ a) →
      ∃ t, exec (.swatchSliceEnd g ⟨k, n, none⟩) s = .next t
        ∧ le (t.peek (testEntryAt g.val 0) 32) 8 4 = min (le (s.peek (testEntryAt g.val 0) 32) 8 4 + 1) (2 ^ 32 - 1)
        ∧ le (t.peek (testEntryAt g.val 0) 32) 12 4 = le (s.peek (testEntryAt g.val 0) 32) 12 4
        ∧ le (t.peek (testEntryAt g.val 0) 32) 16 8 = s.timeWord
        ∧ t.byte a = s.byte a
        ∧ s.sameRegs [Reg.TAL_SW_STATUS, Reg.TAL_SW_CYCLES] t)
  ∧ (∀ (s : State) (g : CoreId) (n k e idx : Nat) (unit : Fin 8) (crc : Word),
      s.sch.testCore = some g.val →
      k ≤ s.fld Reg.SCH_TEST_SLICE 17 0 →
      unit.val ≤ 1 →
      ∃ t, exec (.swatchSliceEnd g ⟨k, n, some (e, idx, unit, crc)⟩) s = .next t
        ∧ t.sch.testCore = none
        ∧ t.bit (Reg.TW_STATUS g.val) 30 = true)
  ∧ (∀ (s : State) (g : CoreId) (n k e idx : Nat) (unit : Fin 8) (crc : Word),
      s.sch.testCore = some g.val →
      k ≤ s.fld Reg.SCH_TEST_SLICE 17 0 →
      (unit.val = 2 ∨ unit.val = 3) →
      ∃ t, exec (.swatchSliceEnd g ⟨k, n, some (e, idx, unit, crc)⟩) s = .next t
        ∧ t.sch.testCore = none
        ∧ t.bit (Reg.TD_STATUS g.val (unit.val - 2)) 30 = true)
  ∧ (∀ (s : State) (g : CoreId) (n k e idx : Nat) (unit : Fin 8) (crc : Word),
      s.sch.testCore = some g.val →
      k ≤ s.fld Reg.SCH_TEST_SLICE 17 0 →
      4 ≤ unit.val →
      s.board.service.length = 32 →
      ∃ t, exec (.swatchSliceEnd g ⟨k, n, some (e, idx, unit, crc)⟩) s = .next t
        ∧ t.sch.testCore = none
        ∧ t.board.service.getD g.val (false, []) = (true, (s.core g.val).bypassed))
  ∧ (∀ (s : State) (g : CoreId) (r : SliceResult),
      s.fld Reg.SCH_TEST_SLICE 17 0 < r.steps →
      ∃ t, exec (.swatchSliceEnd g r) s = .next t
        ∧ t = s)

/-- PACKS (R463 to R465): a write of LOAD with ADDR 0 empties the slot, any other asks the security core to check the pack; a pack with its form, a signature that verifies under a key that serves and a version not below the highest loaded is installed, and any other is refused with the slot's pack kept. -/
def Obligations.SwatchPacks : Prop :=
  (∀ (s : State) (t : Tag) (k : Fin 4) (v : Word),
      s.grants t 0 (Reg.TAL_SW_SLOT k.val) (v ||| 0x20000000#32) →
      s.rd64 (Reg.TAL_SW_ADDR k.val) % 2 ^ 40 ≠ 0 →
      s.swr.loads.length = 4 →
      ∃ u, exec (.swatchPackLoad t k v) s = .next u
        ∧ u.swr.loads.getD k.val none = some (s.rd64 (Reg.TAL_SW_ADDR k.val) % 2 ^ 40)
        ∧ u.swr.slots = s.swr.slots
        ∧ s.onlyRegs [Reg.TAL_SW_SLOT k.val] u)
  ∧ (∀ (s : State) (t : Tag) (k : Fin 4) (v : Word),
      s.grants t 0 (Reg.TAL_SW_SLOT k.val) (v ||| 0x20000000#32) →
      s.rd64 (Reg.TAL_SW_ADDR k.val) % 2 ^ 40 = 0 →
      s.swr.loads.length = 4 →
      ∃ u, exec (.swatchPackLoad t k v) s = .next u
        ∧ u.swr.loads.getD k.val none = none
        ∧ u.swr.slots.getD k.val [] = []
        ∧ u.rd (Reg.TAL_SW_SLOT k.val) = 0#32
        ∧ u.rd (Reg.TAL_SW_ID k.val) = 0#32
        ∧ u.rd (Reg.TAL_SW_VER k.val) = 0#32
        ∧ s.onlyRegs [Reg.TAL_SW_SLOT k.val, Reg.TAL_SW_ID k.val, Reg.TAL_SW_VER k.val] u)
  ∧ (∀ (s : State) (k : Fin 4) (a : Nat),
      let r : Option (List Byte) × State := s.secRead a 64
      s.swr.loads.getD k.val none = some a →
      s.securityUp = true →
      r.1 = none →
      s.swr.loads.length = 4 →
      ∃ t, exec (.swatchPackVerified k) s = .next t
        ∧ t.swr.loads.getD k.val none = none
        ∧ t.swr.slots = s.swr.slots
        ∧ t.bit (Reg.TAL_SW_SLOT k.val) 30 = true)
  ∧ (∀ (s : State) (k : Fin 4) (a : Nat),
      let h : List Byte := s.view a 64
      let n : Nat := min (le h 16 4) 65536
      let body : List Byte := s.view a n
      let key : Nat := le (s.view a 64) 3 1 % 16
      let ok : Bool := decide (a % 64 = 0) && packForm body && s.vkeyServes key 0 && Config.mldsaVerify (s.sec.vkeys.getD key []) (leBytes 32 (sha3 body).toNat) (s.view (a + n) 2420) && decide (s.packVersion (le body 4 4) ≤ le body 8 4)
      s.swr.loads.getD k.val none = some a →
      s.securityUp = true →
      (0x5000000000 ≤ a ∧ a + n + 2420 ≤ 0x5000000000 + s.norBytes ∧ a + n + 2420 ≤ 0x5010000000) →
      64 ≤ n →
      s.swr.slots.length = 4 →
      ∃ t, exec (.swatchPackVerified k) s = .next t
        ∧ t.swr.loads.getD k.val none = none
        ∧ (t.swr.slots.getD k.val [] = if ok then body else s.swr.slots.getD k.val [])
        ∧ t.bit (Reg.TAL_SW_SLOT k.val) 31 = (ok || s.bit (Reg.TAL_SW_SLOT k.val) 31)
        ∧ t.bit (Reg.TAL_SW_SLOT k.val) 30 = !ok
        ∧ ((t.rd (Reg.TAL_SW_ID k.val)).toNat = if ok then le body 4 4 else (s.rd (Reg.TAL_SW_ID k.val)).toNat)
        ∧ ((t.rd (Reg.TAL_SW_VER k.val)).toNat = if ok then le body 8 4 else (s.rd (Reg.TAL_SW_VER k.val)).toNat)
        ∧ (s.tells t 0x174 (if ok then Kind.SWATCH_PACK_LOADED else Kind.SWATCH_PACK_BAD) 0 (k.val * 2 ^ 32 + le h 8 4))
        ∧ s.onlyRegs [Reg.TAL_SW_SLOT k.val, Reg.TAL_SW_ID k.val, Reg.TAL_SW_VER k.val] t)
  ∧ (∀ (s : State) (k : Fin 4) (a : Nat),
      let h : List Byte := s.view a 64
      let n : Nat := min (le h 16 4) 65536
      let body : List Byte := s.view a n
      s.swr.loads.getD k.val none = some a →
      s.securityUp = true →
      (0x5000000000 ≤ a ∧ a + n + 2420 ≤ 0x5000000000 + s.norBytes ∧ a + n + 2420 ≤ 0x5010000000) →
      64 ≤ n →
      (a % 64 ≠ 0 ∨ packForm body = false ∨ s.vkeyServes (le h 3 1 % 16) 0 = false ∨ le body 8 4 < s.packVersion (le body 4 4)) →
      ∃ t, exec (.swatchPackVerified k) s = .next t
        ∧ t.swr.loads.getD k.val none = none
        ∧ t.swr.slots = s.swr.slots
        ∧ t.bit (Reg.TAL_SW_SLOT k.val) 30 = true
        ∧ s.tells t 0x174 Kind.SWATCH_PACK_BAD 0 (k.val * 2 ^ 32 + le h 8 4)
        ∧ s.onlyRegs [Reg.TAL_SW_SLOT k.val] t)

/-- AGE MONITORS (R426 to R430): an enable with a LIMIT of 1 to 10,000,000 µs and, for the watchdog, a PERIOD above TOL leaves ENABLE 1 and the watchdog disarmed; with any other it stays 0. A publish whose age exceeds LIMIT is refused with DEADLINE_MISSED and AGE_EXCEEDED, one of another stall with FIREWALL, and one within it is accepted and recorded. A watchdog whose expectation has passed counts, reports PUBLISH_MISSING and expects the next a period later. -/
def Obligations.AgeMonitors : Prop :=
  (∀ (s : State) (t : Tag) (m : Fin 64) (v : Word),
      let c : Nat := Reg.SAF_AGE_CTRL m.val
      let lim : Nat := (s.rd (Reg.SAF_AGE_LIMIT m.val)).toNat
      s.grants t 0 c (v ||| 0x80000000#32) →
      s.bit c 31 = false →
      (1 ≤ lim ∧ lim ≤ 10000000) →
      (v.getLsbD 29 = true → s.monTol m.val < s.monPeriod m.val) →
      s.age.length = 64 →
      ∃ u, exec (.ageMonitorEnable t m v) s = .next u
        ∧ u.bit c 31 = true
        ∧ u.fld c 30 24 = v.toNat / 2 ^ 24 % 2 ^ 7
        ∧ u.mon m.val = {}
        ∧ s.onlyRegs [c] u)
  ∧ (∀ (s : State) (t : Tag) (m : Fin 64) (v : Word),
      let c : Nat := Reg.SAF_AGE_CTRL m.val
      let lim : Nat := (s.rd (Reg.SAF_AGE_LIMIT m.val)).toNat
      s.grants t 0 c (v ||| 0x80000000#32) →
      s.bit c 31 = false →
      (lim = 0 ∨ 10000000 < lim ∨ (v.getLsbD 29 = true ∧ s.monPeriod m.val ≤ s.monTol m.val)) →
      ∃ u, exec (.ageMonitorEnable t m v) s = .next u
        ∧ u.bit c 31 = false
        ∧ s.onlyRegs [c] u)
  ∧ (∀ (s : State) (m : Fin 64) (d : Nat),
      let c : Nat := Reg.SAF_AGE_CTRL m.val
      let n : Nat := min (s.fld (Reg.SAF_AGE_COUNT m.val) 15 0 + 1) 65535
      (s.mon m.val).due = some d →
      s.phase = .live →
      s.bit c 31 = true →
      s.bit c 29 = true →
      d < s.refNs →
      s.age.length = 64 →
      ∃ t, exec (.ageWatchdogExpire m) s = .next t
        ∧ t.fld (Reg.SAF_AGE_COUNT m.val) 15 0 = n
        ∧ s.tells t 0x171 Kind.PUBLISH_MISSING (s.fld c 27 24) (m.val * 2 ^ 32 + n)
        ∧ t.mon m.val = { s.mon m.val with due := some (d + s.monPeriod m.val) }
        ∧ s.onlyRegs [Reg.SAF_AGE_COUNT m.val] t)
  ∧ (∀ (s : State) (m stall : Nat) (p : Prov) (now : Nat),
      let c : Nat := Reg.SAF_AGE_CTRL m
      let age : Int := now - p.capture
      s.bit c 31 = true →
      s.fld c 27 24 = stall →
      p.hasTime = true →
      (s.bit c 30 = false ∨ (p.synced = true ∧ s.synced = true)) →
      (p.stepGen = s.stepGen ∨ s.bit c 28 = true) →
      (0 ≤ age ∧ age ≤ (s.rd (Reg.SAF_AGE_LIMIT m)).toNat * 1000) →
      (s.monJudge m stall p now).1 = 0
        ∧ ((s.monJudge m stall p now).2.rd (Reg.SAF_AGE_LAST m)).toNat = min (age.toNat / 1000) (2 ^ 32 - 1)
        ∧ (s.monJudge m stall p now).2.rd (Reg.SAF_AGE_FRAME m) = BitVec.ofNat 32 p.frame
        ∧ s.onlyRegs [Reg.SAF_AGE_LAST m, Reg.SAF_AGE_FRAME m] (s.monJudge m stall p now).2)
  ∧ (∀ (s : State) (m stall : Nat) (p : Prov) (now : Nat),
      (s.bit (Reg.SAF_AGE_CTRL m) 31 = false ∨ s.fld (Reg.SAF_AGE_CTRL m) 27 24 ≠ stall) →
      (s.monJudge m stall p now).1 = St.FIREWALL
        ∧ s.tells (s.monJudge m stall p now).2 0x171 Kind.MONITOR_REFUSED stall (m * 2 ^ 32)
        ∧ s.onlyRegs [Reg.SAF_AGE_COUNT m] (s.monJudge m stall p now).2)
  ∧ (∀ (s : State) (m stall : Nat) (p : Prov) (now : Nat),
      let c : Nat := Reg.SAF_AGE_CTRL m
      let age : Int := now - p.capture
      s.bit c 31 = true →
      s.fld c 27 24 = stall →
      p.hasTime = true →
      (s.bit c 30 = false ∨ (p.synced = true ∧ s.synced = true)) →
      (p.stepGen = s.stepGen ∨ s.bit c 28 = true) →
      (age < 0 ∨ (s.rd (Reg.SAF_AGE_LIMIT m)).toNat * 1000 < age) →
      (s.monJudge m stall p now).1 = St.DEADLINE_MISSED
        ∧ s.tells (s.monJudge m stall p now).2 0x171 Kind.AGE_EXCEEDED stall (m * 2 ^ 32 + min (age.toNat / 1000) (2 ^ 32 - 1))
        ∧ s.onlyRegs [Reg.SAF_AGE_COUNT m] (s.monJudge m stall p now).2)

/-- WEIGHT DIGESTS (R431 to R436): a round starts INTERVAL_MS after the last one, one that still runs by then reports DIGEST_LATE once, and its end counts it and digests every enabled entry; CHECK of an entry digests it now and ends with CRC_MISMATCH where it differs; PEER compares the versions first, then the entries, then the digests; RELEASE disables the entry; REGISTER enables the entry for its region where the manifest has its form, its signature verifies and the region has the digest it gives. The digest is SHA3-256 (log entry 16), taken when the row comes (log entry 75); a refusal is recorded by the fabric (log entry 103); ML-DSA is an opaque function of Config (log entry 17). -/
def Obligations.WeightDigests : Prop :=
  (∀ (s : State),
      s.roundsRun = true →
      s.dig.start + s.fld Reg.SAF_DIG_CTRL 15 0 * 1000000 ≤ s.refNs →
      s.dig.running = false →
      ∃ t, exec (.digestRoundStart) s = .next t
        ∧ t.dig = { s.dig with running := true, late := false, start := s.refNs }
        ∧ t.tal = s.tal
        ∧ s.onlyRegs [] t)
  ∧ (∀ (s : State),
      s.roundsRun = true →
      s.dig.start + s.fld Reg.SAF_DIG_CTRL 15 0 * 1000000 ≤ s.refNs →
      s.dig.running = true →
      s.dig.late = false →
      ∃ t, exec (.digestRoundStart) s = .next t
        ∧ t.dig = { s.dig with late := true }
        ∧ s.tells t 0x101 Kind.DIGEST_LATE 0 (s.rd Reg.SAF_DIG_ROUNDS).toNat
        ∧ s.onlyRegs [] t)
  ∧ (∀ (s : State),
      s.roundsRun = true →
      s.dig.running = true →
      ∃ t, exec (.digestRoundEnd) s = .next t
        ∧ t.rd Reg.SAF_DIG_ROUNDS = s.rd Reg.SAF_DIG_ROUNDS + 1#32
        ∧ t.dig.running = s.dig.late
        ∧ t.dig.late = false
        ∧ (t.dig.start = if s.dig.late = true then s.refNs else s.dig.start))
  ∧ (∀ (s : State) (n : Fin 64),
      let r : Nat × Nat := s.digRegion n.val
      s.digOn n.val = true →
      0 < r.2 →
      (s.barrier s.secTag .read r.1 (min r.2 (64 - r.1 % 64))).isSome = true →
      (s.digCheck n.val).fld (Reg.SAF_DIG_ENT n.val) 29 28 = 3
        ∧ (s.digCheck n.val).digRegion n.val = r
        ∧ s.onlyRegs [Reg.SAF_DIG_ENT n.val] (s.digCheck n.val))
  ∧ (∀ (s : State) (n : Fin 64),
      let r : Nat × Nat := s.digRegion n.val
      let v : Nat := (sha3 (s.view r.1 r.2)).toNat
      s.digOn n.val = true →
      s.canRead false s.secTag r.1 r.2 = true →
      ((s.digCheck n.val).fld (Reg.SAF_DIG_ENT n.val) 29 28 = if v = (s.dig.expect.getD n.val (0, 0)).1 then 1 else 2)
        ∧ (s.digCheck n.val).rdN (Reg.SAF_DIG_DIGEST n.val) 8 = v
        ∧ (s.digCheck n.val).rd64 (Reg.SAF_DIG_TIME n.val) = s.timeWord
        ∧ s.sameMem (s.digCheck n.val))
  ∧ (∀ (s : State) (job idx : Nat) (j : Job) (c : Cmd),
      let n : Nat := digEntry c.desc
      s.goes job idx 0x16 .started j c →
      s.securityUp = true →
      digMode c.desc = 3 →
      (s.digOn n = true → s.fld (Reg.SAF_DIG_ENT n) 27 24 = j.stall) →
      ∃ t, exec (.digestRelease job idx) s = .next t
        ∧ t.digOn n = false
        ∧ t.endsAs job idx = some (successStatus c.own)
        ∧ s.onlyRegs [Reg.SAF_DIG_ENT n] t)
  ∧ (∀ (s : State) (job idx : Nat) (j : Job) (c : Cmd),
      let n : Nat := digEntry c.desc
      s.goes job idx 0x16 .started j c →
      s.securityUp = true →
      digMode c.desc = 1 →
      s.digOn n = false →
      ∃ t, exec (.digestCheck job idx) s = .next t
        ∧ t.endsAs job idx = some St.OUT_OF_LIMIT
        ∧ t.tal = s.tal
        ∧ s.onlyRegs [] t)
  ∧ (∀ (s : State) (job idx : Nat) (peer : PeerDigest) (j : Job) (c : Cmd),
      let n : Nat := digEntry c.desc
      let own : List Word := (List.range 7).map fun k => s.rd (Reg.FW_IMAGE k)
      let model : Nat := (s.dig.expect.getD n (0, 0)).2
      s.goes job idx 0x16 .started j c →
      s.securityUp = true →
      digMode c.desc = 2 →
      (own = peer.versions ∧ s.digOn n = true ∧ peer.enabled = true ∧ peer.digested = true ∧ peer.modelId.toNat = model) →
      s.fld (Reg.SAF_DIG_ENT n) 27 24 = j.stall →
      ∃ t, exec (.digestPeer job idx peer) s = .next t
        ∧ (t.endsAs job idx = some (if peer.digest.toNat = s.rdN (Reg.SAF_DIG_DIGEST n) 8 then successStatus c.own else St.CRC_MISMATCH))
        ∧ s.onlyRegs [] t)
  ∧ (∀ (s : State) (job idx : Nat) (j : Job) (c : Cmd),
      let n : Nat := digEntry c.desc
      s.goes job idx 0x16 .started j c →
      s.securityUp = true →
      digMode c.desc = 0 →
      j.stall < 16 →
      s.dig.expect.length = 64 →
      ∃ t, exec (.digestRegister job idx) s = .next t
        ∧ (t.endsAs job idx = some (successStatus c.own) → t.digOn n = true ∧ t.fld (Reg.SAF_DIG_ENT n) 27 24 = j.stall ∧ (t.digRegion n).1 = le c.desc 24 5)
        ∧ (t.endsAs job idx ≠ some (successStatus c.own) → t.rd (Reg.SAF_DIG_ENT n) = s.rd (Reg.SAF_DIG_ENT n)))
  ∧ (∀ (s : State),
      s.roundsRun = true →
      s.dig.running = true →
      (∀ n : Fin 64, s.digOn n.val = false) →
      ∃ t, exec (.digestRoundEnd) s = .next t
        ∧ t.rd Reg.SAF_DIG_ROUNDS = s.rd Reg.SAF_DIG_ROUNDS + 1#32
        ∧ t.dig.running = s.dig.late
        ∧ t.tal = s.tal
        ∧ s.onlyRegs [Reg.SAF_DIG_ROUNDS] t)
  ∧ (∀ (s : State) (n : Fin 64),
      let r : Nat × Nat := s.digRegion n.val
      let v : Nat := (sha3 (s.view r.1 r.2)).toNat
      s.roundsRun = true →
      s.dig.running = true →
      (∀ k : Fin 64, s.digOn k.val = decide (k = n)) →
      s.canRead false s.secTag r.1 r.2 = true →
      ∃ t, exec (.digestRoundEnd) s = .next t
        ∧ (t.fld (Reg.SAF_DIG_ENT n.val) 29 28 = if v = (s.dig.expect.getD n.val (0, 0)).1 then 1 else 2)
        ∧ t.rdN (Reg.SAF_DIG_DIGEST n.val) 8 = v
        ∧ t.rd Reg.SAF_DIG_ROUNDS = s.rd Reg.SAF_DIG_ROUNDS + 1#32
        ∧ s.sameMem t)
  ∧ (∀ (s : State) (job idx : Nat) (j : Job) (c : Cmd),
      let n : Nat := digEntry c.desc
      s.goes job idx 0x16 .started j c →
      s.securityUp = true →
      digMode c.desc = 1 →
      s.digOn n = true →
      s.fld (Reg.SAF_DIG_ENT n) 27 24 ≠ j.stall →
      ∃ t, exec (.digestCheck job idx) s = .next t
        ∧ t.endsAs job idx = some St.FIREWALL
        ∧ s.tells t 0x180 Kind.FABRIC_ERROR j.stall (s.digRegion n).1
        ∧ s.onlyRegs [] t)
  ∧ (∀ (s : State) (job idx : Nat) (j : Job) (c : Cmd),
      let n : Nat := digEntry c.desc
      let r : Nat × Nat := s.digRegion n
      let v : Nat := (sha3 (s.view r.1 r.2)).toNat
      s.goes job idx 0x16 .started j c →
      s.securityUp = true →
      digMode c.desc = 1 →
      s.digOn n = true →
      s.fld (Reg.SAF_DIG_ENT n) 27 24 = j.stall →
      s.canRead true s.secTag r.1 r.2 = true →
      ∃ t, exec (.digestCheck job idx) s = .next t
        ∧ (t.endsAs job idx = some (if v = (s.dig.expect.getD n (0, 0)).1 then successStatus c.own else St.CRC_MISMATCH))
        ∧ (t.fld (Reg.SAF_DIG_ENT n) 29 28 = if v = (s.dig.expect.getD n (0, 0)).1 then 1 else 2)
        ∧ t.rdN (Reg.SAF_DIG_DIGEST n) 8 = v
        ∧ s.sameMem t)
  ∧ (∀ (s : State) (job idx : Nat) (peer : PeerDigest) (j : Job) (c : Cmd),
      s.goes job idx 0x16 .started j c →
      s.securityUp = true →
      digMode c.desc = 2 →
      ((List.range 7).map fun k => s.rd (Reg.FW_IMAGE k)) ≠ peer.versions →
      ∃ t, exec (.digestPeer job idx peer) s = .next t
        ∧ t.endsAs job idx = some St.VERSION_MISMATCH
        ∧ t.tal = s.tal
        ∧ s.onlyRegs [] t)
  ∧ (∀ (s : State) (job idx : Nat) (peer : PeerDigest) (j : Job) (c : Cmd),
      let n : Nat := digEntry c.desc
      let own : List Word := (List.range 7).map fun k => s.rd (Reg.FW_IMAGE k)
      let model : Nat := (s.dig.expect.getD n (0, 0)).2
      s.goes job idx 0x16 .started j c →
      s.securityUp = true →
      digMode c.desc = 2 →
      own = peer.versions →
      (s.digOn n = false ∨ peer.enabled = false ∨ peer.digested = false ∨ peer.modelId.toNat ≠ model) →
      ∃ t, exec (.digestPeer job idx peer) s = .next t
        ∧ t.endsAs job idx = some St.OUT_OF_LIMIT
        ∧ t.tal = s.tal
        ∧ s.onlyRegs [] t)
  ∧ (∀ (s : State) (job idx : Nat) (j : Job) (c : Cmd),
      let n : Nat := digEntry c.desc
      let man : Nat := le c.desc 32 5
      let addr : Nat := le c.desc 24 5
      let at_ : Nat := man + 64 + 64 * le c.desc 18 2
      let h : List Byte := s.view man 64
      let r : List Byte := s.view at_ 64
      let body : List Byte := s.view man (64 + 64 * le h 4 2)
      let sig : List Byte := s.view (man + 64 + 64 * le h 4 2) 2420
      let want : Nat := leNat (slice r 8 32)
      let ok : Bool := recordsOk h body && Config.mldsaVerify (s.sec.vkeys.getD (le h 3 1 % 16) []) (leBytes 32 (sha3 body).toNat) sig && decide ((sha3 (s.view addr (le r 0 4))).toNat = want)
      s.goes job idx 0x16 .started j c →
      s.securityUp = true →
      digMode c.desc = 0 →
      j.stall < 16 →
      s.dig.expect.length = 64 →
      s.digOn n = false →
      le c.desc 18 2 < le h 4 2 →
      s.digTotal n + le r 0 4 ≤ s.fld Reg.SAF_DIG_CTRL 15 0 * 1200000 →
      s.vkeyServes (le h 3 1 % 16) j.stall = true →
      digRegionOk addr (le r 0 4) = true →
      (s.canRead true s.secTag man 64 = true ∧ s.canRead true s.secTag at_ 64 = true) →
      (s.canRead true s.secTag man (64 + 64 * le h 4 2) = true ∧ s.canRead true s.secTag (man + 64 + 64 * le h 4 2) 2420 = true) →
      s.canRead true s.secTag addr (le r 0 4) = true →
      ∃ t, exec (.digestRegister job idx) s = .next t
        ∧ (t.endsAs job idx = some (if ok = true then successStatus c.own else St.CRC_MISMATCH))
        ∧ (t.rd (Reg.SAF_DIG_ENT n) = if ok = true then BitVec.ofNat 32 (2 ^ 31 + 2 ^ 28 + j.stall * 2 ^ 24) else s.rd (Reg.SAF_DIG_ENT n))
        ∧ (t.digRegion n = if ok = true then (addr, le r 0 4) else s.digRegion n)
        ∧ (t.dig.expect.getD n (0, 0) = if ok = true then (want, le h 8 8) else s.dig.expect.getD n (0, 0))
        ∧ s.sameMem t)

/-- THE TEST PORT (R556): TRST_N low resets it; an edge of TCK moves its controller by TMS and changes nothing of the device but the port; five edges with TMS high reach Test-Logic-Reset; with the bypass instruction TDO shows the last bit shifted in. That the controller and the bypass register are those of IEEE 1149.1 is the model's presumption (log entry 61). -/
def Obligations.TestPort : Prop :=
  (∀ (s : State) (tms tdi : Bool),
      ∃ t, exec (.jtagTckEdge tms tdi true) s = .next t
        ∧ t.tap = {}
        ∧ { t with tap := s.tap } = s)
  ∧ (∀ (s : State) (tms tdi : Bool),
      ∃ t, exec (.jtagTckEdge tms tdi false) s = .next t
        ∧ t.tap.state = s.tap.state.next tms
        ∧ { t with tap := s.tap, freeN := s.freeN } = s)
  ∧ (∀ (s : State) (tdi : Bool),
      s.tap.instr = .bypass →
      s.tap.state = .shiftDr →
      ∃ t, exec (.jtagTckEdge false tdi false) s = .next t
        ∧ t.tap.tdo = some tdi)
  ∧ (∀ (st : TapState),
      ((((st.next true).next true).next true).next true).next true = .testLogicReset)

/-! ### The engines, the feeder, the tidy units, contexts, porters -/

/-- THE SUMS OF A PASS (R62, R63, R71): presenting only the trimmed planes of each K step, a pass with no C-in leaves in every cell the sum over the steps of weft element times warp element, each at its full width. -/
def Obligations.AccumulatorsAreDotProducts : Prop :=
  ∀ (sg : Bool) (b rows cols i j : Nat) (ks : List KStep),
      1 ≤ b →
      (∀ k ∈ ks, k.weft.length = rows ∧ k.warp.length = cols) →
      i < rows →
      j < cols →
      (((runCells sg b rows cols none ks).exact.getD i []).getD j 0 = sumInt (ks.map fun k => weftValue sg b (k.weft.getD i 0) * k.warp.getD j 0))

/-- THE LEDGER (R96 to R103): the checksums that a pass computes beside its cells make its drain CLEAN when no fault struck, from cleared cells and from C-in; and from a CLEAN tile one flipped bit of one accumulator drains SINGLE at its row and column, and the correction gives back the tile as it was. CLASSIFICATION (R102): a drain is CLEAN exactly where RS and CS are empty and f and g are 0, SINGLE exactly where each holds one element, the two syndromes agree and f and g are 0, and a MISMATCH otherwise; from a CLEAN tile one flipped bit of one checksum cell is a MISMATCH, and so is a fault in two data cells of one row. -/
def Obligations.ChecksumsLocateAFault : Prop :=
  (∀ (sg : Bool) (b rows cols : Nat) (cin : Option (List (List Int))) (ks : List KStep),
      (∀ l ∈ cin, l.length = rows ∧ ∀ r ∈ l, r.length = cols) →
      (∀ k ∈ ks, k.weft.length = rows ∧ k.warp.length = cols) →
      (runCells sg b rows cols cin ks).tile.classify = .clean)
  ∧ (∀ (t : Tile) (p i j : Nat) (n : Fin 32),
      let u : Tile := t.flip p ⟨.data i j, n⟩
      let d : Word := t.cell i j - flipBit n.val (t.cell i j)
      t.classify = .clean →
      i < 512 →
      j < p →
      i < t.acc.length →
      j < (t.acc.getD i []).length →
      u.classify = .single i j d
        ∧ u.setCell i j (· + d) = t)
  ∧ (∀ (t : Tile),
      (t.classify = .clean ↔ t.badRows = [] ∧ t.badCols = [] ∧ t.synF = 0 ∧ t.synG = 0)
        ∧ (∀ i j d, t.classify = .single i j d ↔ t.badRows = [i] ∧ t.badCols = [j] ∧ t.rowSyn i = t.colSyn j ∧ d = t.rowSyn i ∧ t.synF = 0 ∧ t.synG = 0)
        ∧ (t.classify = .mismatch ↔ t.classify ≠ .clean ∧ ∀ i j d, t.classify ≠ .single i j d))
  ∧ (∀ (t : Tile) (p i : Nat) (n : Fin 32),
      t.classify = .clean →
      (i < 512 → (t.flip p ⟨.chkCol i, n⟩).classify = .mismatch)
        ∧ (i < p → (t.flip p ⟨.chkRow i, n⟩).classify = .mismatch)
        ∧ (t.flip p ⟨.corner, n⟩).classify = .mismatch)
  ∧ (∀ (t : Tile) (i j k : Nat) (v w : Word),
      t.classify = .clean →
      i < t.acc.length →
      (j < (t.acc.getD i []).length ∧ k < (t.acc.getD i []).length) →
      j ≠ k →
      v ≠ t.cell i j →
      w ≠ t.cell i k →
      (((t.setCell i j fun _ => v).setCell i k fun _ => w).classify = .mismatch))

/-- TWILL_PASS (R65, R68, R74, R80, R102 to R106, R229): the command reads its K steps and leaves the pass's sums in the engine, with no byte changed but in its skein's chunk buffers, or abandons it at a read that fails; a CLEAN drain of raw words writes each accumulator to its place, leaves every byte outside the output rows, counts the pass and ends the command; a MISMATCH makes the one re-run due; a CLEAN re-run counts a disagreement and ends with OK_RETRIED, and one that is not CLEAN ends the command with LEDGER_FAIL. The re-run and the low pass of WARP16 start like the first. The wait at a chunk boundary is counted. -/
def Obligations.TwillPassRunsAndDrains : Prop :=
  (∀ (s : State) (job idx : Nat) (j : Job) (c : Cmd) (a : Nat),
      let d : TwillD := twillD c.desc
      s.goes job idx 0x01 .started j c →
      s.cores.length = 32 →
      j.core < 32 →
      d.cin = false →
      s.stepsReady (j.tag s 0) j.core d = true →
      offChunks j.core a →
      ∃ t, exec (.twillPass job idx) s = .next t
        ∧ ((t.core j.core).pass.map (fun p => (p.job, p.cmd, p.tile, p.rerun)) = some (job, idx, (runCells d.wSigned d.bits d.rows d.cols none (s.stepsOf j.core d false)).tile, false))
        ∧ (t.cmdOf job idx).map (·.stage) = some .running
        ∧ t.byte a = s.byte a
        ∧ s.sameRegs [] t)
  ∧ (∀ (s : State) (g : CoreId) (p : Pass) (j : Job) (c : Cmd) (i k a : Nat),
      let d : TwillD := twillD c.desc
      (s.core g.val).pass = some p →
      s.goes p.job p.cmd 0x01 .running j c →
      j.core = g.val →
      d.raw →
      (p.rerun = false ∧ p.inject = none) →
      p.tile.classify = .clean →
      (i < d.rows ∧ k < d.cols) →
      (d.cols * 4 ≤ d.outStride ∧ d.out + d.rows * d.outStride ≤ 0x400000) →
      s.drainReady (j.tag s 0) g.val d = true →
      (∀ r < d.rows, a < boltAddr g.val d.out + r * d.outStride ∨ boltAddr g.val d.out + r * d.outStride + 4 * d.cols ≤ a) →
      ∃ t, exec (.passDrainComplete g []) s = .next t
        ∧ t.peek (boltAddr g.val d.out + i * d.outStride + 4 * k) 4 = leBytes 4 (p.tile.cell i k).toNat
        ∧ t.endsAs p.job p.cmd = some (successStatus c.own)
        ∧ (t.core g.val).pass = none
        ∧ t.rd (Reg.TW_PASSES g.val) = s.rd (Reg.TW_PASSES g.val) + 1#32
        ∧ t.byte a = s.byte a)
  ∧ (∀ (s : State) (g : CoreId) (p : Pass) (j : Job) (c : Cmd),
      let d : TwillD := twillD c.desc
      (s.core g.val).pass = some p →
      s.goes p.job p.cmd 0x01 .running j c →
      j.core = g.val →
      d.raw →
      (p.rerun = false ∧ p.inject = none) →
      p.tile.classify = .mismatch →
      s.drainReady (j.tag s 0) g.val d = true →
      ∃ t, exec (.passDrainComplete g []) s = .next t
        ∧ ((t.cmdOf p.job p.cmd).map (fun c => (c.stage, c.eng.rerunDue)) = some (.running, true))
        ∧ (t.rd (Reg.TW_LEDGER_LOC g.val)).toNat = locOf (s.present g.val) p.tile.badRows p.tile.badCols % 2 ^ 32
        ∧ t.rd (Reg.TW_PASSES g.val) = s.rd (Reg.TW_PASSES g.val) + 1#32
        ∧ (t.core g.val).pass = none)
  ∧ (∀ (s : State) (g : CoreId) (p : Pass) (j : Job) (c : Cmd),
      let d : TwillD := twillD c.desc
      (s.core g.val).pass = some p →
      s.goes p.job p.cmd 0x01 .running j c →
      j.core = g.val →
      d.raw →
      (p.rerun = true ∧ p.inject = none ∧ c.eng.injected = none) →
      p.tile.classify = .clean →
      s.drainReady (j.tag s 0) g.val d = true →
      ∃ t, exec (.passDrainComplete g []) s = .next t
        ∧ t.rd (Reg.TW_LEDGER_DISAGREE g.val) = s.rd (Reg.TW_LEDGER_DISAGREE g.val) + 1#32
        ∧ t.endsAs p.job p.cmd = some St.OK_RETRIED
        ∧ (t.core g.val).pass = none)
  ∧ (∀ (s : State) (g : CoreId) (j : Job) (i : Nat) (c : Cmd) (a : Nat),
      let d : TwillD := twillD c.desc
      (s.core g.val).pass = none →
      s.yieldDue g.val = false →
      s.engineCmd g.val (fun c => c.eng.rerunDue) = some (j, i, c) →
      s.goes j.id i 0x01 .running j c →
      s.cores.length = 32 →
      d.cin = false →
      s.stepsReady (j.tag s 0) g.val d = true →
      offChunks g.val a →
      ∃ t, exec (.ledgerRerun g) s = .next t
        ∧ ((t.core g.val).pass.map (fun p => (p.job, p.cmd, p.tile, p.rerun)) = some (j.id, i, (runCells d.wSigned d.bits d.rows d.cols none (s.stepsOf g.val d c.eng.lowDue)).tile, true))
        ∧ t.byte a = s.byte a
        ∧ s.sameRegs [] t)
  ∧ (∀ (s : State) (g : CoreId) (j : Job) (i : Nat) (c : Cmd) (a : Nat),
      let d : TwillD := twillD c.desc
      (s.core g.val).pass = none →
      s.yieldDue g.val = false →
      s.engineCmd g.val (fun c => opcodeOf c.desc == 1 && c.eng.lowDue && !c.eng.rerunDue) = some (j, i, c) →
      s.goes j.id i 0x01 .running j c →
      s.cores.length = 32 →
      d.cin = false →
      s.stepsReady (j.tag s 0) g.val d = true →
      offChunks g.val a →
      ∃ t, exec (.warp16LowPass g) s = .next t
        ∧ ((t.core g.val).pass.map (fun p => (p.job, p.cmd, p.tile, p.low)) = some (j.id, i, (runCells d.wSigned d.bits d.rows d.cols none (s.stepsOf g.val d true)).tile, true))
        ∧ t.byte a = s.byte a
        ∧ s.sameRegs [] t)
  ∧ (∀ (s : State) (g : CoreId) (n : Nat),
      (s.core g.val).pass.isSome = true →
      ∃ t, exec (.chunkReady g n) s = .next t
        ∧ t.rd64 (Reg.SK_CHUNK_WAIT g.val) = (s.rd64 (Reg.SK_CHUNK_WAIT g.val) + n) % 2 ^ 64
        ∧ s.onlyRegs [Reg.SK_CHUNK_WAIT g.val, Reg.SK_CHUNK_WAIT g.val + 4] t)
  ∧ (∀ (s : State) (job idx : Nat) (j : Job) (c : Cmd),
      let d : TwillD := twillD c.desc
      s.goes job idx 0x01 .started j c →
      s.cores.length = 32 →
      j.core < 32 →
      d.cin = false →
      (0 < d.k ∧ 0 < d.bits) →
      (s.barrier (j.tag s 0) .read (boltAddr j.core d.weft) (min (d.bits * 64) (64 - boltAddr j.core d.weft % 64))).isSome = true →
      ∃ t, exec (.twillPass job idx) s = .next t
        ∧ (t.core j.core).pass = none
        ∧ t.endsAs job idx = some St.FIREWALL
        ∧ t.rd (Reg.TW_ABANDONED j.core) = s.rd (Reg.TW_ABANDONED j.core) + 1#32
        ∧ s.sameMem t)
  ∧ (∀ (s : State) (g : CoreId) (p : Pass) (j : Job) (c : Cmd),
      let d : TwillD := twillD c.desc
      (s.core g.val).pass = some p →
      s.goes p.job p.cmd 0x01 .running j c →
      j.core = g.val →
      d.raw →
      (p.rerun = true ∧ p.inject = none ∧ c.eng.injected = none) →
      p.tile.classify ≠ .clean →
      s.drainReady (j.tag s 0) g.val d = true →
      ∃ t, exec (.passDrainComplete g []) s = .next t
        ∧ t.rd (Reg.TW_LEDGER_FAILS g.val) = s.rd (Reg.TW_LEDGER_FAILS g.val) + 1#32
        ∧ t.endsAs p.job p.cmd = some St.LEDGER_FAIL
        ∧ t.bit (Reg.TW_STATUS g.val) 30 = true
        ∧ (t.core g.val).pass = none)

/-- THE WINDOW FEEDER (R129, R130, R135, R143, R146, R150, R152): a feeder command shows its run in WF_STATUS and starts it, a dense one as a pass whose sums are those of its pixels and weft; where no stage has a run it ends OK, and where the bolt refuses its first read it ends with FIREWALL and the feeder free. The end of a run counts it, starts the next, waits where a pre-emption is due, and after the last ends the command with the feeder free. The wait of a step for a slot is counted while the feeder runs. -/
def Obligations.FeederRuns : Prop :=
  (∀ (s : State) (job idx : Nat) (j : Job) (c : Cmd) (st r : Nat) (l : Layer),
      let ls : List Layer := s.layersOf j c
      let w : Nat := Reg.WF_STATUS j.core
      s.goes job idx 0x02 .started j c →
      s.cores.length = 32 →
      j.core < 32 →
      (nextRun ls 5 0 0 = some (st, r) ∧ ls[st]? = some l ∧ l.kind ≠ 0) →
      ∃ t, exec (.convTile job idx) s = .next t
        ∧ t.bit w 31 = true
        ∧ t.bit w 30 = false
        ∧ t.fld w 15 0 = r % 65536
        ∧ ((t.cmdOf job idx).map (fun c => (c.stage, c.aux, c.progress)) = some (.running, st, r))
        ∧ s.onlyRegs [w, Reg.WF_LINE_HWM j.core] t)
  ∧ (∀ (s : State) (job idx : Nat) (j : Job) (c : Cmd) (st r : Nat) (l : Layer),
      let ls : List Layer := s.layersOf j c
      let w : Nat := Reg.WF_STATUS j.core
      s.goes job idx 0x03 .started j c →
      s.cores.length = 32 →
      j.core < 32 →
      (nextRun ls 5 0 0 = some (st, r) ∧ ls[st]? = some l ∧ l.kind ≠ 0) →
      ∃ t, exec (.fusedTiles job idx) s = .next t
        ∧ t.bit w 31 = true
        ∧ t.bit w 30 = true
        ∧ t.fld w 15 0 = r % 65536
        ∧ ((t.cmdOf job idx).map (fun c => (c.stage, c.aux, c.progress)) = some (.running, st, r))
        ∧ s.onlyRegs [w, Reg.WF_LINE_HWM j.core] t)
  ∧ (∀ (s : State) (g : CoreId) (j : Job) (i : Nat) (c : Cmd) (l : Layer) (faults : List LaneFault),
      let ls : List Layer := s.layersOf j c
      s.feederCmd g.val = some (j, i, c) →
      s.goes j.id i (opcodeOf c.desc) .running j c →
      ls[c.aux]? = some l →
      l.kind = 0 →
      nextRun ls 5 c.aux (c.progress + 1) = none →
      ∃ t, exec (.convRunComplete g faults) s = .next t
        ∧ t.rd (Reg.WF_RUNS g.val) = s.rd (Reg.WF_RUNS g.val) + 1#32
        ∧ t.endsAs j.id i = some (successStatus c.own)
        ∧ t.fld (Reg.WF_STATUS g.val) 31 30 = 0)
  ∧ (∀ (s : State) (g : CoreId) (j : Job) (i : Nat) (c : Cmd) (l : Layer),
      let ls : List Layer := s.layersOf j c
      let n : Option (Nat × Nat) := nextRun ls 5 c.aux (c.progress + 1)
      s.feederCmd g.val = some (j, i, c) →
      s.goes j.id i (opcodeOf c.desc) .running j c →
      ls[c.aux]? = some l →
      l.kind ≠ 0 →
      n = none →
      ∃ t, exec (.convRunComplete g []) s = .next t
        ∧ (t.endsAs j.id i).isSome = true
        ∧ (t.endsAs j.id i = some (successStatus c.own) → t.rd (Reg.WF_RUNS g.val) = s.rd (Reg.WF_RUNS g.val) + 1#32)
        ∧ t.fld (Reg.WF_STATUS g.val) 31 30 = 0)
  ∧ (∀ (s : State) (g : CoreId) (n : Nat),
      s.bit (Reg.WF_STATUS g.val) 31 = true →
      ∃ t, exec (.lineStoreSlotFilled g n) s = .next t
        ∧ t.rd64 (Reg.WF_FEED_WAIT g.val) = (s.rd64 (Reg.WF_FEED_WAIT g.val) + n) % 2 ^ 64
        ∧ s.onlyRegs [Reg.WF_FEED_WAIT g.val, Reg.WF_FEED_WAIT g.val + 4] t)
  ∧ (∀ (s : State) (job idx : Nat) (j : Job) (c : Cmd),
      s.goes job idx 0x02 .started j c →
      nextRun (s.layersOf j c) 5 0 0 = none →
      ∃ t, exec (.convTile job idx) s = .next t
        ∧ t.endsAs job idx = some St.OK
        ∧ t.fld (Reg.WF_STATUS j.core) 31 30 = 0
        ∧ s.sameRegs [Reg.WF_STATUS j.core] t)
  ∧ (∀ (s : State) (job idx : Nat) (j : Job) (c : Cmd),
      s.goes job idx 0x03 .started j c →
      nextRun (s.layersOf j c) 5 0 0 = none →
      ∃ t, exec (.fusedTiles job idx) s = .next t
        ∧ t.endsAs job idx = some St.OK
        ∧ t.fld (Reg.WF_STATUS j.core) 31 30 = 0
        ∧ s.sameRegs [Reg.WF_STATUS j.core] t)
  ∧ (∀ (s : State) (job idx : Nat) (j : Job) (c : Cmd) (a : Nat),
      let l : Layer := convLayer c.desc
      let w : Nat := Reg.WF_STATUS j.core
      s.goes job idx 0x02 .started j c →
      s.cores.length = 32 →
      j.core < 32 →
      (l.kind = 0 ∧ l.cin = false) →
      0 < l.nRuns →
      s.runReady (j.tag s 1) j.core l 0 = true →
      offChunks j.core a →
      ∃ t, exec (.convTile job idx) s = .next t
        ∧ ((t.core j.core).pass.map (fun p => (p.job, p.cmd, p.tile, p.rerun)) = some (job, idx, (runCells l.wSigned l.bits l.cOut (l.run 0).2 none (s.runStepsOf j.core l 0)).tile, false))
        ∧ ((t.cmdOf job idx).map (fun c => (c.stage, c.aux, c.progress)) = some (.running, 0, 0))
        ∧ t.fld w 31 30 = 2
        ∧ t.byte a = s.byte a
        ∧ s.sameRegs [w, Reg.WF_LINE_HWM j.core] t)
  ∧ (∀ (s : State) (g : CoreId) (j : Job) (i : Nat) (c : Cmd) (l : Layer) (faults : List LaneFault) (st r : Nat),
      let ls : List Layer := s.layersOf j c
      s.feederCmd g.val = some (j, i, c) →
      s.goes j.id i 0x02 .running j c →
      ls[c.aux]? = some l →
      l.kind = 0 →
      nextRun ls 5 c.aux (c.progress + 1) = some (st, r) →
      (s.yieldDue g.val = true ∨ s.barred j c.desc = true) →
      ∃ t, exec (.convRunComplete g faults) s = .next t
        ∧ t.rd (Reg.WF_RUNS g.val) = s.rd (Reg.WF_RUNS g.val) + 1#32
        ∧ ((t.cmdOf j.id i).map (fun c => (c.stage, c.aux, c.progress, c.eng.runDue)) = some (.running, st, r, true))
        ∧ s.onlyRegs [Reg.WF_RUNS g.val] t)
  ∧ (∀ (s : State) (job idx y a b : Nat) (j : Job) (c : Cmd),
      let l : Layer := convLayer c.desc
      let o : Nat := boltAddr j.core l.inOff + (y - l.storeY0) * l.rowStride + (a - l.storeX0)
      s.goes job idx 0x02 .started j c →
      s.cores.length = 32 →
      j.core < 32 →
      (l.kind = 0 ∧ 0 < l.cIn ∧ 0 < l.nRuns) →
      (l.needs (l.run 0).1 (l.run 0).2).1.head? = some y →
      ((l.needs (l.run 0).1 (l.run 0).2).2.head? = some a ∧ (l.needs (l.run 0).1 (l.run 0).2).2.getLast? = some b ∧ a ≤ b) →
      (s.barrier (j.tag s 1) .read o (min (b + 1 - a) (64 - o % 64))).isSome = true →
      ∃ t, exec (.convTile job idx) s = .next t
        ∧ t.endsAs job idx = some St.FIREWALL
        ∧ t.fld (Reg.WF_STATUS j.core) 31 30 = 0
        ∧ t.rd (Reg.TW_ABANDONED j.core) = s.rd (Reg.TW_ABANDONED j.core) + 1#32
        ∧ (t.core j.core).pass = none)

/-- TIDY_CHAIN, DECODE_BATCH AND ATTN_BLOCK (R22 to R26, R153 to R185, R208 to R217): each of these commands, once started, runs to an end with a status where no pre-emption waits (one that waits may stop a chain between rows and a batch between positions: R184, R217); and whatever its descriptor and tables say, no byte of memory changes that a write of the stall's may not reach: none of the up to 16 bytes that end at it passes a barrier for the unit's tag. Apart from these writes a read may itself lose a context record (R221) and wait for a region's initialisation (R248), and ATTN_BLOCK stages its passes in the chunk buffers and may leave undefined bytes in its own scratch area. -/
def Obligations.TidyUnitsStayInside : Prop :=
  (∀ (s : State) (job idx a : Nat) (j : Job) (c : Cmd) (faults : List LaneFault),
      s.goes job idx 0x04 .started j c →
      s.yieldDue j.core = false →
      (a < 0x3000000000 ∨ 0x3004000000 + 16 ≤ a) →
      s.keptByReads a →
      (∀ m : Fin 2, ∀ k : Fin 16, (s.barrier (j.tag s (2 + m.val)) .write (a - k.val) 1).isSome = true) →
      ∃ t, exec (.tidyChain job idx faults) s = .next t
        ∧ (t.endsAs job idx).isSome = true
        ∧ t.byte a = s.byte a)
  ∧ (∀ (s : State) (job idx a : Nat) (j : Job) (c : Cmd) (faults : List LaneFault),
      s.goes job idx 0x06 .started j c →
      s.yieldDue j.core = false →
      (a < 0x3000000000 ∨ 0x3004000000 + 16 ≤ a) →
      s.keptByReads a →
      (∀ m : Fin 2, ∀ k : Fin 16, (s.barrier (j.tag s (2 + m.val)) .write (a - k.val) 1).isSome = true) →
      ∃ t, exec (.decodeBatch job idx faults) s = .next t
        ∧ (t.endsAs job idx).isSome = true
        ∧ t.byte a = s.byte a)
  ∧ (∀ (s : State) (job idx a : Nat) (j : Job) (c : Cmd) (faults : List PassFault) (lanes : List LaneFault),
      let d : AttnD := attnD c.desc
      s.goes job idx 0x05 .started j c →
      (a < 0x3000000000 ∨ 0x3004000000 + 16 ≤ a) →
      s.keptByReads a →
      offChunks j.core a →
      (∀ k : Fin 16, (s.barrier (j.tag s 2) .write (a - k.val) 1).isSome = true) →
      (a < boltAddr j.core d.scratch ∨ boltAddr j.core d.scratch + d.scratchSize ≤ a) →
      ∃ t, exec (.attnBlock job idx faults lanes) s = .next t
        ∧ (t.endsAs job idx).isSome = true
        ∧ t.byte a = s.byte a)
  ∧ (∀ (s : State) (job idx a : Nat) (j : Job) (c : Cmd) (faults : List LaneFault),
      s.goes job idx 0x04 .started j c →
      (a < 0x3000000000 ∨ 0x3004000000 + 16 ≤ a) →
      s.keptByReads a →
      (∀ m : Fin 2, ∀ k : Fin 16, (s.barrier (j.tag s (2 + m.val)) .write (a - k.val) 1).isSome = true) →
      ∃ t, exec (.tidyChain job idx faults) s = .next t
        ∧ t.byte a = s.byte a)
  ∧ (∀ (s : State) (job idx a : Nat) (j : Job) (c : Cmd) (faults : List LaneFault),
      s.goes job idx 0x06 .started j c →
      (a < 0x3000000000 ∨ 0x3004000000 + 16 ≤ a) →
      s.keptByReads a →
      (∀ m : Fin 2, ∀ k : Fin 16, (s.barrier (j.tag s (2 + m.val)) .write (a - k.val) 1).isSome = true) →
      ∃ t, exec (.decodeBatch job idx faults) s = .next t
        ∧ t.byte a = s.byte a)

/-- CONTEXTS (R190 to R202): CTX_CREATE leaves each FREE context of its set ACTIVE, owned by the stall, empty, with its generation, and leaves the others; CTX_RESET frees (mode 1) or empties (mode 0) each context of the generation it names, raises the generation, and leaves the others and every byte outside records; KV_SCATTER of one token into a context that does not wrap leaves the token's bytes in its slot, its position, flags and frame in its tag, and the record advanced. MOVE (R253 to R257, R264, R532): a MOVE into memory leaves at its destination the bytes of its source: in one block, row by row at both strides, or transposed element by element; the bytes are read before any is written, bytes outside the destination extent stand, and the porter's count grows by the bytes written. DECRYPT with a slot that does not serve the stall ends with FIREWALL and KEY_SLOT_REFUSED. A MOVE to another device leaves by its link and waits for its responses. In what order rows are written, and how a MOVE to another device is sent, are the model's choices (log entries 33 and 35). -/
def Obligations.ContextsAndMoves : Prop :=
  (∀ (s : State) (job idx n : Nat) (j : Job) (c : Cmd),
      let d : List Byte := c.desc
      let w : Nat := le d 18 2
      let len : Nat := le d 20 4
      let e : Nat := (latentBytes (bits (le d 16 1) 3 0)).getD 1
      s.goes job idx 0x08 .started j c →
      (0 < j.stall ∧ j.stall < 16) →
      ctxFirst d + ctxCount d ≤ 65536 →
      n ∈ ctxSet d →
      s.ctxState n = 0 →
      (∀ k ∈ ctxSet d, s.ctxState k = 0 → s.canWrite (j.portTag s c) (ctxCreateBase d k + len * slotBytes w e) (tagArrayBytes len) = true) →
      ∃ t, exec (.ctxCreate job idx) s = .next t
        ∧ t.endsAs job idx = some (successStatus c.own)
        ∧ (t.ctx n).state = 1
        ∧ (t.ctx n).owner = j.stall
        ∧ (t.ctx n).latentW = w
        ∧ (t.ctx n).maxLen = len
        ∧ (t.ctx n).nextPos = 0
        ∧ (t.ctx n).curLen = 0
        ∧ (t.ctx n).gen = (s.ctx n).gen)
  ∧ (∀ (s : State) (job idx n : Nat) (j : Job) (c : Cmd),
      let d : List Byte := c.desc
      let gf : Nat := le d 18 2
      s.goes job idx 0x09 .started j c →
      bits (le d 16 1) 1 0 = 1 →
      (n ∈ ctxSet d ∧ s.ctxState n ≠ 0 ∧ (s.ctx n).gen = gf) →
      ∃ t, exec (.ctxReset job idx) s = .next t
        ∧ t.endsAs job idx = some (successStatus c.own)
        ∧ t.ctx n = { state := 0, wrap := false, fmt := 0, owner := 0, latentW := 0, maxLen := 0, base := 0, gen := (gf + 1) % 65536, nextPos := 0, curLen := 0, scale := 0 }
        ∧ s.sameRegs [] t)
  ∧ (∀ (s : State) (job idx : Nat) (j : Job) (c : Cmd) (x : Token),
      let d : List Byte := c.desc
      let tag : Tag := j.portTag s c
      let r : CtxRec := s.ctx x.ctx
      let k : Nat := x.pos % r.maxLen
      let base : Nat := boltAddr j.core (le d 32 4 % 2 ^ 22)
      let n : Nat := r.latentW * r.e
      let p : Prov := provOf (s.peek (selvageAt base (le d 20 4 * le d 36 4)) 32)
      s.goes job idx 0x07 .started j c →
      s.kvTokens j.core d = [x] →
      r.wrap = false →
      0 < r.maxLen →
      x.pos + 1 < 2 ^ 32 →
      r.base + r.maxLen * r.slot + 8 * r.maxLen ≤ ctxAddr 0 →
      s.canRead true tag (kvListAt j.core d).1 (kvListAt j.core d).2 = true →
      s.canRead true tag (base + x.k * le d 36 4) n = true →
      (s.canWrite tag (r.tagAddr k) 4 = true ∧ s.canWrite tag (r.tagAddr k) 8 = true ∧ s.canWrite tag (r.slotAddr k) n = true) →
      ∃ t, exec (.kvScatter job idx) s = .next t
        ∧ t.endsAs job idx = some (successStatus c.own)
        ∧ t.ctx x.ctx = r.advance (max r.nextPos (x.pos + 1))
        ∧ t.peek (r.slotAddr k) n = s.view (base + x.k * le d 36 4) n
        ∧ (t.peek (r.tagAddr k) 8 = leBytes 4 (x.pos + 1) ++ leBytes 2 p.flags ++ leBytes 2 (if p.hasTime then p.frame % 65536 else 0)))
  ∧ (∀ (s : State) (job idx a : Nat) (j : Job) (c : Cmd) (g : CoreId),
      let m : MoveD := moveD c.desc
      let tag : Tag := j.portTag s c
      let cnt : Nat := Reg.MEM_PORT_BYTES j.core (b2n c.second)
      s.goes job idx 0x0A .started j c →
      (m.mode = 0 ∧ m.decrypt = false) →
      (c.progress = 0 ∧ s.yieldDue j.core = false) →
      s.movePayloadOk m = true →
      m.src + m.rowBytes ≤ 0x3000000000 →
      (m.dst + m.rowBytes ≤ 0x1000000000 ∨ (boltAddr g.val 0 ≤ m.dst ∧ m.dst + m.rowBytes ≤ boltAddr g.val 0 + 0x400000)) →
      j.core < 32 →
      s.canRead true tag m.src m.rowBytes = true →
      s.canWrite tag m.dst m.rowBytes = true →
      (a < m.dst ∨ m.dst + m.rowBytes ≤ a) →
      ∃ t, exec (.move job idx) s = .next t
        ∧ t.endsAs job idx = some St.OK
        ∧ t.peek m.dst m.rowBytes = s.view m.src m.rowBytes
        ∧ t.rd64 cnt = (s.rd64 cnt + m.rowBytes) % 2 ^ 64
        ∧ t.byte a = s.byte a
        ∧ s.sameRegs [cnt, cnt + 4] t)
  ∧ (∀ (s : State) (job idx r : Nat) (j : Job) (c : Cmd) (g : CoreId),
      let m : MoveD := moveD c.desc
      let tag : Tag := j.portTag s c
      s.goes job idx 0x0A .started j c →
      (m.mode = 1 ∧ m.decrypt = false) →
      (c.progress = 0 ∧ s.yieldDue j.core = false) →
      s.movePayloadOk m = true →
      m.src + m.rows * m.srcStride + m.rowBytes ≤ 0x3000000000 →
      (m.dst + m.rows * m.dstStride ≤ 0x1000000000 ∨ (boltAddr g.val 0 ≤ m.dst ∧ m.dst + m.rows * m.dstStride ≤ boltAddr g.val 0 + 0x400000)) →
      m.rowBytes ≤ m.dstStride →
      (∀ k < m.rows, s.canRead true tag (m.src + k * m.srcStride) m.rowBytes = true ∧ s.canWrite tag (m.dst + k * m.dstStride) m.rowBytes = true) →
      r < m.rows →
      ∃ t, exec (.move job idx) s = .next t
        ∧ t.endsAs job idx = some St.OK
        ∧ t.peek (m.dst + r * m.dstStride) m.rowBytes = s.view (m.src + r * m.srcStride) m.rowBytes)
  ∧ (∀ (s : State) (job idx i r : Nat) (j : Job) (c : Cmd) (g : CoreId),
      let m : MoveD := moveD c.desc
      let tag : Tag := j.portTag s c
      s.goes job idx 0x0A .started j c →
      (m.mode = 2 ∧ m.decrypt = false) →
      (c.progress = 0 ∧ s.yieldDue j.core = false) →
      s.movePayloadOk m = true →
      m.src + m.rows * m.srcStride + m.rowBytes ≤ 0x3000000000 →
      (m.dst + m.c * m.dstStride ≤ 0x1000000000 ∨ (boltAddr g.val 0 ≤ m.dst ∧ m.dst + m.c * m.dstStride ≤ boltAddr g.val 0 + 0x400000)) →
      m.rows * m.e ≤ m.dstStride →
      (∀ k < m.rows, s.canRead true tag (m.src + k * m.srcStride) m.rowBytes = true) →
      (∀ k < m.c, s.canWrite tag (m.dst + k * m.dstStride) (m.rows * m.e) = true) →
      (i < m.rows ∧ r < m.c) →
      ∃ t, exec (.move job idx) s = .next t
        ∧ t.endsAs job idx = some St.OK
        ∧ t.peek (m.dst + r * m.dstStride + i * m.e) m.e = s.view (m.src + i * m.srcStride + r * m.e) m.e)
  ∧ (∀ (s : State) (job idx : Nat) (j : Job) (c : Cmd),
      let m : MoveD := moveD c.desc
      s.goes job idx 0x0A .started j c →
      m.decrypt = true →
      s.securityUp = true →
      j.stall < 16 →
      s.dkeyServes m.key j.stall = false →
      ∃ t, exec (.move job idx) s = .next t
        ∧ t.endsAs job idx = some St.FIREWALL
        ∧ s.tells t (j.portTag s c).initiator.toNat Kind.KEY_SLOT_REFUSED j.stall m.src
        ∧ s.onlyRegs [] t)
  ∧ (∀ (s : State) (job idx dev o p : Nat) (j : Job) (c : Cmd),
      let m : MoveD := moveD c.desc
      s.goes job idx 0x0A .started j c →
      (m.mode = 0 ∧ m.decrypt = false ∧ m.selvage = 0) →
      regionOf m.dst = .remote dev o →
      (dev ≠ s.board.devnum ∧ 0 < m.rowBytes ∧ o + m.rowBytes ≤ 0xFE0000000) →
      s.portTo dev = some p →
      s.canRead true (j.portTag s c) m.src m.rowBytes = true →
      m.src + m.rowBytes ≤ 0x3000000000 →
      ∃ t, exec (.move job idx) s = .next t
        ∧ ((t.cmdOf job idx).map (fun c => (c.stage, c.progress)) = some (.running, (lines m.dst m.rowBytes).length))
        ∧ s.sameMem t)
  ∧ (∀ (s : State) (job idx n : Nat) (j : Job) (c : Cmd),
      let d : List Byte := c.desc
      s.goes job idx 0x08 .started j c →
      (0 < j.stall ∧ j.stall < 16) →
      n < 65536 →
      n ∈ ctxSet d →
      s.ctxState n ≠ 0 →
      ∃ t, exec (.ctxCreate job idx) s = .next t
        ∧ (t.endsAs job idx).isSome = true
        ∧ t.ctx n = s.ctx n)
  ∧ (∀ (s : State) (job idx n a : Nat) (j : Job) (c : Cmd),
      let d : List Byte := c.desc
      let gf : Nat := le d 18 2
      s.goes job idx 0x09 .started j c →
      bits (le d 16 1) 1 0 = 1 →
      (n ∈ ctxSet d ∧ (s.ctxState n = 0 ∨ (s.ctx n).gen ≠ gf)) →
      (∀ k ∈ ctxSet d, a < ctxAddr k ∨ ctxAddr k + 32 ≤ a) →
      ∃ t, exec (.ctxReset job idx) s = .next t
        ∧ t.ctx n = s.ctx n
        ∧ t.byte a = s.byte a)
  ∧ (∀ (s : State) (job idx n : Nat) (j : Job) (c : Cmd),
      let d : List Byte := c.desc
      let gf : Nat := le d 18 2
      s.goes job idx 0x09 .started j c →
      bits (le d 16 1) 1 0 = 0 →
      (0 < j.stall ∧ j.stall < 16) →
      ctxFirst d + ctxCount d ≤ 65536 →
      (n ∈ ctxSet d ∧ s.ctxState n ≠ 0 ∧ (s.ctx n).gen = gf) →
      (∀ k ∈ ctxSet d, s.canWrite (j.portTag s c) ((s.ctx k).base + (s.ctx k).maxLen * slotBytes (s.ctx k).latentW (s.ctx k).e) (tagArrayBytes (s.ctx k).maxLen) = true) →
      ∃ t, exec (.ctxReset job idx) s = .next t
        ∧ t.endsAs job idx = some (successStatus c.own)
        ∧ t.ctx n = { s.ctx n with state := 1, gen := (gf + 1) % 65536, nextPos := 0, curLen := 0 })
  ∧ (∀ (s : State) (job idx a : Nat) (j : Job) (c : Cmd) (g : CoreId),
      let m : MoveD := moveD c.desc
      s.goes job idx 0x0A .started j c →
      (m.mode = 0 ∧ m.decrypt = false) →
      (m.dst + m.rowBytes ≤ 0x1000000000 ∨ (boltAddr g.val 0 ≤ m.dst ∧ m.dst + m.rowBytes ≤ boltAddr g.val 0 + 0x400000)) →
      m.src + m.rowBytes ≤ 0x3000000000 →
      (a < m.dst ∨ m.dst + m.rowBytes ≤ a) →
      s.keptByReads a →
      ∃ t, exec (.move job idx) s = .next t
        ∧ t.byte a = s.byte a)

/-! ### Barrow: sessions, requests, ownership, windows -/

/-- BARROW (R397 to R401, R404, R405): a valid open request takes the first free slot with the next free number; a request with the SEQ that a session expects is answered and advances it, and a duplicate of an answered one changes neither claim nor expectation; READ and WRITE from a host are refused; REG_READ answers the words or NACKs the first refused, REG_WRITE is the owner's; unacknowledged requests are sent again, and too many resendings or too long an idle time end the session, unbind its windows and report it; the host's answers and refusals take their request away. Corners of frames from another address, and where numbers start again, are the model's choices (log entries 67 and 82). -/
def Obligations.SessionsAndRequests : Prop :=
  (∀ (s : State) (p : PortId) (a : HostAddr) (body : List Byte) (h k : Nat),
      let v : Nat := min (be body 1 1) (s.fld Reg.BAR_VERSION 15 8)
      let n : Nat := s.freeNum 9 s.bar.nextNum
      let st : Nat := be body 2 1
      (16 ≤ body.length ∧ st < 16 ∧ be body 3 1 = 0 ∧ be body 6 2 = 0) →
      (256 ≤ be body 4 2 ∧ be body 4 2 ≤ 8192 ∧ be body 4 2 % 64 = 0) →
      (s.sessions.find? fun x => x.addr == a && x.nonce == be body 8 8) = none →
      s.hostEntry p.val a = some h →
      (s.bit (Reg.BAR_HOST h) st = true ∧ (p.val = 2 → s.bit (Reg.BAR_HOST h) 28 = true)) →
      (be body 0 1 ≤ v ∧ s.fld Reg.BAR_VERSION 7 0 ≤ v) →
      s.bar.slots.findIdx? (·.isNone) = some k →
      ∃ t, exec (.barrowOpen p a body) s = .next t
        ∧ (t.bar.slots = s.bar.slots.set k (some { num := n, version := v, port := p.val, host := h, addr := a, stall := st, maxData := min (be body 4 2) (if p.val = 2 then 1024 else 8192), nonce := be body 8 8, last := s.refNs }))
        ∧ (t.bar.nextNum = n + 1 ∧ t.bar.owner = s.bar.owner)
        ∧ s.onlyRegs [] t)
  ∧ (∀ (s : State) (p : PortId) (a : HostAddr) (body : List Byte),
      (s.sessions.find? fun x => x.addr == a && x.nonce == be body 8 8) = none →
      (body.length < 16 ∨ s.hostEntry p.val a = none ∨ s.bar.slots.all (·.isSome) = true) →
      ∃ t, exec (.barrowOpen p a body) s = .next t
        ∧ t.bar = s.bar
        ∧ s.onlyRegs [] t)
  ∧ (∀ (s : State) (n : BitVec 16) (q : Word) (body : List Byte) (x : Session),
      s.hears n q x →
      ∃ t, exec (.heartbeat n q body) s = .next t
        ∧ ((t.session? n.toNat).map (fun y => (y.expect, y.last, y.claim)) = some (x.expect + 1, s.refNs, x.claim.map fun c => { c with due := s.refNs + c.lease * 1000000 }))
        ∧ t.replied n.toNat q.toNat = some (s.respFrame x q.toNat 4 (t.sessionState n.toNat))
        ∧ s.onlyRegs [] t)
  ∧ (∀ (s : State) (n : BitVec 16) (q : Word) (body : List Byte) (x : Session),
      s.session? n.toNat = some x →
      (q.toNat < x.expect ∧ x.expect ≤ q.toNat + 64 ∧ 1 ≤ q.toNat) →
      ∃ t, exec (.heartbeat n q body) s = .next t
        ∧ ((t.session? n.toNat).map (·.expect) = some x.expect ∧ (t.session? n.toNat).map (·.claim) = some x.claim)
        ∧ (t.session? n.toNat).map (·.resps) = some x.resps
        ∧ (t.session? n.toNat).map (·.dup) = some (satAdd 16 x.dup 1)
        ∧ s.onlyRegs [] t)
  ∧ (∀ (s : State) (n : BitVec 16) (q : Word) (body : List Byte),
      s.session? n.toNat = none →
      ∃ t, exec (.heartbeat n q body) s = .next t
        ∧ (t.rd Reg.BAR_DROPPED).toNat = min ((s.rd Reg.BAR_DROPPED).toNat + 1) (2 ^ 32 - 1)
        ∧ t.bar = s.bar
        ∧ s.onlyRegs [Reg.BAR_DROPPED] t)
  ∧ (∀ (s : State) (n : BitVec 16) (q : Word) (body : List Byte) (x : Session),
      s.hears n q x →
      ∃ t, exec (.hostReadWrite n q body) s = .next t
        ∧ t.replied n.toNat q.toNat = some (s.respFrame x q.toNat 5 (nackBody 6 0 0))
        ∧ s.onlyRegs [] t)
  ∧ (∀ (s : State) (n : BitVec 16) (q : Word) (body : List Byte) (x : Session) (off : Nat),
      s.hears n q x →
      regBodyBad body false = none →
      (be body 8 2 = 1 ∧ be body 0 8 = 0x3000000000 + off) →
      off / 0x100000 ≠ 13 →
      s.regDeny (s.sessionTag x) x.num off none = none →
      ∃ t, exec (.regRead n q body) s = .next t
        ∧ t.replied n.toNat q.toNat = some (s.respFrame x q.toNat 4 (beBytes 4 (s.regRead off).1.toNat)))
  ∧ (∀ (s : State) (n : BitVec 16) (q : Word) (body : List Byte) (x : Session),
      s.hears n q x →
      s.bar.owner ≠ some x.num →
      ∃ t, exec (.regWrite n q body) s = .next t
        ∧ t.replied n.toNat q.toNat = some (s.respFrame x q.toNat 5 (nackBody 2 0 s.ownerGen))
        ∧ s.onlyRegs [] t)
  ∧ (∀ (s : State) (n : BitVec 16) (x : Session) (r : Req),
      s.session? n.toNat = some x →
      x.reqs.head? = some r →
      r.at_ + s.fld Reg.BAR_RTO 15 0 * 1000 ≤ s.refNs →
      (∀ q ∈ x.reqs, q.sends ≤ s.fld Reg.BAR_RTO 19 16) →
      ∃ t, exec (.barrowRetransmit n) s = .next t
        ∧ ((t.session? n.toNat).map (·.reqs) = some (x.reqs.map fun q => { q with sends := q.sends + 1, at_ := s.refNs }))
        ∧ s.onlyRegs [] t)
  ∧ (∀ (s : State) (n : BitVec 16) (x : Session) (w : Fin 256),
      s.session? n.toNat = some x →
      x.last + s.fld Reg.BAR_IDLE 15 0 * 1000000 ≤ s.refNs →
      s.bar.owner ≠ some n.toNat →
      ∃ t, exec (.sessionIdleTimeout n) s = .next t
        ∧ t.session? n.toNat = none
        ∧ t.bar.owner = s.bar.owner
        ∧ t.winSession w.val ≠ some n.toNat
        ∧ s.tells t (0x140 + x.port) Kind.SESSION_LOST x.stall n.toNat
        ∧ s.sameMem t)
  ∧ (∀ (s : State) (n : BitVec 16) (q : Word) (body : List Byte) (r : Req),
      s.req? n.toNat q.toNat = some r →
      (∀ x ∈ s.sessions, x.num = n.toNat → q.toNat < x.nextSeq) →
      (match r.why with | .entry _ => decide (body.length = 64) | .completion _ => true) = true →
      ∃ t, exec (.barrowAck n q body) s = .next t
        ∧ t.req? n.toNat q.toNat = none
        ∧ s.sameMem t)
  ∧ (∀ (s : State) (n : BitVec 16) (q : Word) (body : List Byte) (r : Req) (k : Fin 64),
      s.req? n.toNat q.toNat = some r →
      (be body 0 1 = 4 ∨ be body 0 1 = 6) →
      s.cmd.rings.length = 64 →
      r.why = .completion k.val →
      ∃ t, exec (.barrowNack n q body) s = .next t
        ∧ (t.ring k.val).refusedHold = true
        ∧ s.sameMem t)
  ∧ (∀ (s : State) (n : BitVec 16) (q : Word) (body : List Byte) (x : Session) (off : Nat),
      s.hears n q x →
      regBodyBad body false = none →
      (be body 8 2 = 1 ∧ be body 0 8 = 0x3000000000 + off) →
      off / 0x100000 ≠ 13 →
      (s.regDeny (s.sessionTag x) x.num off none).isSome = true →
      ∃ t, exec (.regRead n q body) s = .next t
        ∧ t.replied n.toNat q.toNat = some (s.respFrame x q.toNat 5 (nackBody 5 0 0))
        ∧ s.onlyRegs [] t)
  ∧ (∀ (s : State) (n : BitVec 16) (q : Word) (body : List Byte) (x : Session),
      s.hears n q x →
      s.bar.owner = some x.num →
      regBodyBad body true = none →
      (be body 8 2 = 1 ∧ be body 0 8 = 0x3000000000 + Reg.TAL_HIST_RD) →
      s.regDeny (s.sessionTag x) x.num Reg.TAL_HIST_RD (some (BitVec.ofNat 32 (be body 12 4))) = none →
      ∃ t, exec (.regWrite n q body) s = .next t
        ∧ (t.rd Reg.TAL_HIST_RD).toNat = be body 12 4
        ∧ t.replied n.toNat q.toNat = some (s.respFrame x q.toNat 4 [])
        ∧ s.onlyRegs [Reg.TAL_HIST_RD] t)
  ∧ (∀ (s : State) (n : BitVec 16) (q : Word) (body : List Byte) (x : Session),
      s.hears n q x →
      s.bar.owner = some x.num →
      (regBodyBad body true).isSome = true →
      ∃ t, exec (.regWrite n q body) s = .next t
        ∧ (t.session? n.toNat).map (·.expect) = some (x.expect + 1)
        ∧ s.onlyRegs [] t)
  ∧ (∀ (s : State) (n : BitVec 16) (x : Session) (w : Fin 256),
      s.session? n.toNat = some x →
      x.last + s.fld Reg.BAR_IDLE 15 0 * 1000000 ≤ s.refNs →
      s.bar.owner = some n.toNat →
      ∃ t, exec (.sessionIdleTimeout n) s = .next t
        ∧ t.session? n.toNat = none
        ∧ t.bar.owner ≠ some n.toNat
        ∧ t.winSession w.val ≠ some n.toNat
        ∧ t.rd Reg.BAR_OWNER_GEN = s.rd Reg.BAR_OWNER_GEN + 1#32
        ∧ s.sameMem t)

/-- OWNERSHIP (R402, R403, R406 to R411): a valid CLAIM makes the session a candidate and, with no owner, starts an election; its end makes the first live candidate the owner; RELEASE and an expired lease end ownership, which clears ENABLE of every ring and raises the generation; BIND by the owner binds an unbound window to it; UNBIND unbinds it and abandons what is outstanding through it; DISCARD ends every job whose list waits on an unbound window. What BIND and UNBIND together do is the model's choice (log entry 29). -/
def Obligations.OwnershipAndWindows : Prop :=
  (∀ (s : State) (n : BitVec 16) (q : Word) (body : List Byte) (x : Session),
      let lease : Nat := be body 2 2
      let h : Nat := Reg.BAR_HOST x.host
      s.hears n q x →
      (4 ≤ body.length ∧ be body 1 1 = 0) →
      (10 ≤ lease ∧ lease ≤ 1000) →
      (s.bit h 29 = true ∧ s.fld h 23 16 ≤ be body 0 1) →
      ∃ t, exec (.claim n q body) s = .next t
        ∧ (t.session? n.toNat).map (·.claim) = some (some ⟨be body 0 1, lease, s.refNs + lease * 1000000⟩)
        ∧ t.bar.owner = s.bar.owner
        ∧ (t.bar.elect = if s.bar.owner = none ∧ s.bar.elect = none then some (s.refNs + s.fld Reg.BAR_ELECT 9 0 * 1000000) else s.bar.elect)
        ∧ t.replied n.toNat q.toNat = some (s.respFrame x q.toNat 4 (t.sessionState n.toNat))
        ∧ s.onlyRegs [] t)
  ∧ (∀ (s : State) (n : BitVec 16) (q : Word) (body : List Byte) (x : Session),
      s.hears n q x →
      (4 ≤ body.length ∧ be body 1 1 = 0) →
      (be body 2 2 < 10 ∨ 1000 < be body 2 2 ∨ s.bit (Reg.BAR_HOST x.host) 29 = false) →
      ∃ t, exec (.claim n q body) s = .next t
        ∧ (t.session? n.toNat).map (·.claim) = some x.claim
        ∧ (t.bar.owner = s.bar.owner ∧ t.bar.elect = s.bar.elect)
        ∧ s.onlyRegs [] t)
  ∧ (∀ (s : State) (d n : Nat) (r : Fin 64),
      s.bar.elect = some d →
      d ≤ s.refNs →
      s.firstCandidate = some n →
      ∃ t, exec (.electionWindowEnd) s = .next t
        ∧ t.bar.owner = some n
        ∧ t.bar.elect = none
        ∧ t.rd Reg.BAR_OWNER_GEN = s.rd Reg.BAR_OWNER_GEN + 1#32
        ∧ t.bit (Reg.CMD_RING_CTRL r.val) 31 = false
        ∧ s.sameMem t)
  ∧ (∀ (s : State) (d : Nat),
      s.bar.elect = some d →
      d ≤ s.refNs →
      s.firstCandidate = none →
      ∃ t, exec (.electionWindowEnd) s = .next t
        ∧ t.bar = { s.bar with elect := none }
        ∧ s.onlyRegs [] t)
  ∧ (∀ (s : State) (n : BitVec 16) (q : Word) (body : List Byte) (x : Session) (r : Fin 64),
      s.hears n q x →
      (2 ≤ body.length ∧ be body 0 2 = 0) →
      s.bar.owner = some x.num →
      ∃ t, exec (.release n q body) s = .next t
        ∧ t.bar.owner ≠ some x.num
        ∧ (t.session? n.toNat).map (·.claim) = some none
        ∧ t.rd Reg.BAR_OWNER_GEN = s.rd Reg.BAR_OWNER_GEN + 1#32
        ∧ t.bit (Reg.CMD_RING_CTRL r.val) 31 = false
        ∧ t.replied n.toNat q.toNat = some (s.respFrame x q.toNat 4 (t.sessionState n.toNat))
        ∧ s.sameMem t)
  ∧ (∀ (s : State) (n : BitVec 16) (q : Word) (body : List Byte) (x : Session),
      s.hears n q x →
      2 ≤ body.length →
      s.bar.owner ≠ some x.num →
      ∃ t, exec (.release n q body) s = .next t
        ∧ t.bar.owner = s.bar.owner
        ∧ (t.session? n.toNat).map (·.claim) = some none
        ∧ s.onlyRegs [] t)
  ∧ (∀ (s : State) (n : BitVec 16) (x : Session) (c : Claim),
      s.session? n.toNat = some x →
      x.claim = some c →
      c.due ≤ s.refNs →
      s.bar.owner = some n.toNat →
      ∃ t, exec (.claimLeaseExpire n) s = .next t
        ∧ (t.session? n.toNat).map (·.claim) = some none
        ∧ t.bar.owner ≠ some n.toNat
        ∧ t.rd Reg.BAR_OWNER_GEN = s.rd Reg.BAR_OWNER_GEN + 1#32
        ∧ s.sameMem t)
  ∧ (∀ (s : State) (t : Tag) (m : BitVec 16) (w : BitVec 8) (v : Word) (n : Nat),
      let r : Nat := Reg.BAR_WIN w.toNat
      s.grants t m.toNat r (v ||| 0x40000000#32) →
      s.bit r 31 = false →
      s.bar.owner = some n →
      ∃ u, exec (.windowBind t m w v) s = .next u
        ∧ u.bit r 31 = true
        ∧ u.fld r 15 0 = n % 65536
        ∧ u.fld r 25 24 = v.toNat / 2 ^ 24 % 4
        ∧ s.onlyRegs [r] u)
  ∧ (∀ (s : State) (t : Tag) (m : BitVec 16) (w : BitVec 8) (v : Word),
      let r : Nat := Reg.BAR_WIN w.toNat
      s.grants t m.toNat r (v ||| 0x20000000#32) →
      s.bit r 31 = true →
      ∃ u, exec (.windowUnbind t m w v) s = .next u
        ∧ u.bit r 31 = false
        ∧ u.winSession w.toNat = none
        ∧ (∀ x ∈ u.sessions, ∀ q ∈ x.reqs, q.win ≠ w.toNat)
        ∧ s.onlyRegs [r] u)
  ∧ (∀ (s : State) (t : Tag) (m : BitVec 16) (v : Word),
      s.grants t m.toNat Reg.BAR_OWNER (v ||| 0x40000000#32) →
      ∃ u, exec (.ownerDiscard t m v) s = .next u
        ∧ u.waitingLists = []
        ∧ u.cmd.jobs.length = s.cmd.jobs.length
        ∧ s.onlyRegs [] u)
  ∧ (∀ (s : State) (n : BitVec 16) (x : Session) (c : Claim),
      s.session? n.toNat = some x →
      x.claim = some c →
      c.due ≤ s.refNs →
      s.bar.owner ≠ some n.toNat →
      ∃ t, exec (.claimLeaseExpire n) s = .next t
        ∧ (t.session? n.toNat).map (·.claim) = some none
        ∧ t.bar.owner = s.bar.owner
        ∧ s.onlyRegs [] t)

/-! ### The command plane: doorbells, entries, the ring registers -/

/-- JOB RINGS (R267 to R275, R289, R301): a doorbell from a session that does not own the device draws NACK NOT_OWNER; the owner's draws ACK at once where ACCEPTED covers it, NACK RING_REFUSED where it asks for more than the ring holds or the ring is closed, waits while the scheduler core restarts, and else starts the read of the entry at ACCEPTED through the ring's window; the entry read is judged, read once more 100 us after a wrong first read, or halts the ring; the entry's journalling advances ACCEPTED, adds its log record and queues its job; SEQ is written only while a ring is disabled and empty, and CTRL keeps its size and stall while ENABLE is 1. The reason a closed ring's NACK gives where R273 leaves it open is the model's choice (log entry 54). -/
def Obligations.EntriesAreAccepted : Prop :=
  (∀ (s : State) (n : BitVec 16) (q : Word) (r : RingId) (e : BitVec 64) (x : Session),
      s.hears n q x →
      s.bar.owner ≠ some x.num →
      ∃ t, exec (.doorbell n q r e) s = .next t
        ∧ t.replied n.toNat q.toNat = some (s.respFrame x q.toNat 5 (nackBody 2 0 s.ownerGen))
        ∧ t.cmd = s.cmd
        ∧ s.onlyRegs [] t)
  ∧ (∀ (s : State) (n : BitVec 16) (q : Word) (r : RingId) (e : BitVec 64) (x : Session),
      s.hears n q x →
      s.bar.owner = some x.num →
      s.schedUp = true →
      e.toNat ≤ s.accepted r.val →
      ∃ t, exec (.doorbell n q r e) s = .next t
        ∧ t.replied n.toNat q.toNat = some (s.respFrame x q.toNat 4 (beBytes 8 (s.accepted r.val)))
        ∧ t.cmd = s.cmd
        ∧ s.onlyRegs [] t)
  ∧ (∀ (s : State) (n : BitVec 16) (q : Word) (r : RingId) (e : BitVec 64) (x : Session),
      s.hears n q x →
      s.bar.owner = some x.num →
      s.schedUp = true →
      s.accepted r.val < e.toNat →
      (s.published r.val + s.ringSize r.val < e.toNat ∨ s.ringOpen r.val = false) →
      ∃ t, exec (.doorbell n q r e) s = .next t
        ∧ t.replied n.toNat q.toNat = some (s.respFrame x q.toNat 5 (nackBody 3 0 r.val))
        ∧ t.cmd = s.cmd
        ∧ s.onlyRegs [] t)
  ∧ (∀ (s : State) (n : BitVec 16) (q : Word) (r : RingId) (e : BitVec 64) (x : Session) (y : Nat),
      let base : Nat := s.rd64 (Reg.CMD_RING_BASE r.val)
      let off : Nat := refOff base + s.accepted r.val % s.ringSize r.val * 64
      s.hears n q x →
      s.bar.owner = some x.num →
      s.schedUp = true →
      (s.accepted r.val < e.toNat ∧ e.toNat ≤ s.published r.val + s.ringSize r.val) →
      s.ringOpen r.val = true →
      s.cmd.rings.length = 64 →
      ((s.ring r.val).fetch = .idle ∧ s.fetchPaused = false ∧ s.cmd.replayLeft.any (fun z => z.1 == r.val) = false) →
      (refReserved base = 0 ∧ s.winRead (refWin base) off 64 = some y ∧ s.roomFor y 1 = true) →
      ∃ t, exec (.doorbell n q r e) s = .next t
        ∧ (t.ring r.val).fetch = .reading false
        ∧ (t.ring r.val).doors = (s.ring r.val).doors ++ [⟨x.num, q.toNat, e.toNat⟩]
        ∧ (((t.session? y).bind fun z => z.reqs.getLast?).map (fun z => (z.kind, z.body)) = some (1, accessBody (refWin base) off 64 []))
        ∧ t.replied n.toNat q.toNat = none
        ∧ s.onlyRegs [] t)
  ∧ (∀ (s : State) (n : BitVec 16) (q : Word) (r : RingId) (e : BitVec 64) (x : Session),
      s.hears n q x →
      s.bar.owner = some x.num →
      s.schedUp = false →
      s.cmd.rings.length = 64 →
      ∃ t, exec (.doorbell n q r e) s = .next t
        ∧ (t.ring r.val).doors = (s.ring r.val).doors ++ [⟨x.num, q.toNat, e.toNat⟩]
        ∧ t.replied n.toNat q.toNat = none
        ∧ s.onlyRegs [] t)
  ∧ (∀ (s : State) (r : RingId) (d : List Byte) (second : Bool),
      s.schedUp = true →
      (s.ring r.val).fetch = .reading second →
      (le d 0 8 = s.accepted r.val ∧ le d 60 4 = (crc32c (slice d 0 60)).toNat) →
      ∃ t, exec (.entryFetched r d) s = .next t
        ∧ ((t.ring r.val).fetch = .journalling d (if s.entryStatus r.val d = 0 then none else some (s.entryStatus r.val d)))
        ∧ t.cmd.jobs = s.cmd.jobs
        ∧ s.onlyRegs [] t)
  ∧ (∀ (s : State) (r : RingId) (d y : Nat),
      let base : Nat := s.rd64 (Reg.CMD_RING_BASE r.val)
      let off : Nat := refOff base + s.accepted r.val % s.ringSize r.val * 64
      s.schedUp = true →
      ((s.ring r.val).fetch = .waiting d ∧ d ≤ s.refNs) →
      (refReserved base = 0 ∧ s.winRead (refWin base) off 64 = some y ∧ s.roomFor y 1 = true) →
      ∃ t, exec (.entryReread r) s = .next t
        ∧ (t.ring r.val).fetch = .reading true
        ∧ (((t.session? y).bind fun z => z.reqs.getLast?).map (fun z => (z.kind, z.body)) = some (1, accessBody (refWin base) off 64 []))
        ∧ s.onlyRegs [] t)
  ∧ (∀ (s : State) (r : RingId) (d : List Byte) (st : Option Nat),
      let acc : Nat := s.accepted r.val
      let stall : Nat := s.ringStall r.val
      let e : List Byte := leBytes 8 acc ++ d.drop 8
      (s.ring r.val).fetch = .journalling d st →
      (s.schedUp = true ∧ s.journalOk = true) →
      acc + 1 < 2 ^ 64 →
      ∃ t, exec (.entryJournalled r) s = .next t
        ∧ t.accepted r.val = acc + 1
        ∧ t.published r.val = max (s.published r.val) (acc + 1 - s.ringSize r.val)
        ∧ t.cmd.jobs = s.cmd.jobs ++ [jobOf s.cmd.nextJob r.val stall (s.deadlineStall stall) s.refNs s.epoch e st]
        ∧ t.cmd.nextJob = s.cmd.nextJob + 1
        ∧ t.cmd.journal.log = s.cmd.journal.log ++ [{ idx := s.cmd.journal.total, ring := r.val, seq := acc, entry := e, time := s.refNs, epoch := s.epoch, completed := none, statuses := [] }]
        ∧ s.onlyRegs [Reg.CMD_RING_SEQ r.val, Reg.CMD_RING_SEQ r.val + 4, Reg.CMD_RING_PUB r.val, Reg.CMD_RING_PUB r.val + 4] t)
  ∧ (∀ (s : State) (t : Tag) (r : RingId) (v : Word),
      let c : Nat := Reg.CMD_RING_CTRL r.val
      s.grants t 0 c v →
      v.getLsbD 31 = true →
      (s.rd64 (Reg.CMD_RING_BASE r.val) ≠ 0 ∧ s.rd64 (Reg.CMD_RING_COMP r.val) ≠ 0) →
      ∃ u, exec (.ringCtrlWrite t r v) s = .next u
        ∧ (u.bit c 31 = true ∧ u.bit c 30 = false)
        ∧ (u.fld c 20 16 = if s.bit c 31 ∨ bits v.toNat 20 16 < 4 ∨ 16 < bits v.toNat 20 16 then s.fld c 20 16 else bits v.toNat 20 16)
        ∧ (u.fld c 11 8 = if s.bit c 31 then s.fld c 11 8 else bits v.toNat 11 8)
        ∧ s.onlyRegs [c] u)
  ∧ (∀ (s : State) (t : Tag) (r : RingId) (v : Word),
      let c : Nat := Reg.CMD_RING_CTRL r.val
      s.grants t 0 c v →
      v.getLsbD 31 = false →
      s.cmd.rings.length = 64 →
      ∃ u, exec (.ringCtrlWrite t r v) s = .next u
        ∧ u.bit c 31 = false
        ∧ (u.ring r.val).doors = []
        ∧ u.cmd.jobs = s.cmd.jobs
        ∧ s.onlyRegs [c] u)
  ∧ (∀ (s : State) (t : Tag) (r : RingId) (high : Bool) (v : Word),
      let c : Nat := Reg.CMD_RING_CTRL r.val
      let q : Nat := Reg.CMD_RING_SEQ r.val
      let p : Nat := Reg.CMD_RING_PUB r.val
      s.grants t 0 (q + if high then 4 else 0) v →
      (s.bit c 31 = false ∧ s.accepted r.val = s.published r.val) →
      ∃ u, exec (.ringSeqWrite t r high v) s = .next u
        ∧ (u.rd (q + if high then 4 else 0) = v)
        ∧ u.published r.val = u.accepted r.val
        ∧ s.onlyRegs [q, q + 4, p, p + 4] u)
  ∧ (∀ (s : State) (t : Tag) (r : RingId) (high : Bool) (v : Word),
      let q : Nat := Reg.CMD_RING_SEQ r.val
      s.grants t 0 (q + if high then 4 else 0) v →
      (s.bit (Reg.CMD_RING_CTRL r.val) 31 = true ∨ s.accepted r.val ≠ s.published r.val) →
      ∃ u, exec (.ringSeqWrite t r high v) s = .next u
        ∧ u.accepted r.val = s.accepted r.val
        ∧ s.onlyRegs [] u)
  ∧ (∀ (s : State) (r : RingId) (d : List Byte),
      s.schedUp = true →
      (s.ring r.val).fetch = .reading false →
      (le d 0 8 ≠ s.accepted r.val ∨ le d 60 4 ≠ (crc32c (slice d 0 60)).toNat) →
      ∃ t, exec (.entryFetched r d) s = .next t
        ∧ (t.ring r.val).fetch = .waiting (s.refNs + 100000)
        ∧ t.cmd.jobs = s.cmd.jobs
        ∧ s.onlyRegs [] t)
  ∧ (∀ (s : State) (r : RingId) (d : List Byte),
      s.schedUp = true →
      (s.ring r.val).fetch = .reading true →
      (le d 0 8 = s.accepted r.val ∧ le d 60 4 ≠ (crc32c (slice d 0 60)).toNat) →
      ∃ t, exec (.entryFetched r d) s = .next t
        ∧ (t.ring r.val).fetch = .journalling d (some St.CRC_MISMATCH)
        ∧ t.cmd.jobs = s.cmd.jobs
        ∧ s.onlyRegs [] t)
  ∧ (∀ (s : State) (r : RingId) (d : List Byte),
      s.schedUp = true →
      (s.ring r.val).fetch = .reading true →
      le d 0 8 ≠ s.accepted r.val →
      ∃ t, exec (.entryFetched r d) s = .next t
        ∧ t.bit (Reg.CMD_RING_CTRL r.val) 30 = true
        ∧ (t.ring r.val).fetch = .idle
        ∧ s.tells t 0x100 Kind.RING_SEQ_ERROR (s.ringStall r.val) r.val
        ∧ t.cmd.jobs = s.cmd.jobs
        ∧ s.onlyRegs [Reg.CMD_RING_CTRL r.val] t)

/-! ### Jobs: placement, starts, ends, completion -/

/-- PLACEMENT AND START (R276, R280, R281, R206, R314): a placeable job whose commands are known goes to the chosen core, or ends with the status of the check that failed, its other commands abandoned; a list in device memory is read once, and a read that fails ends the job with that status; a host list waits while its window is unbound. A command that may start runs its start checks: it is then started, or ending with the check's status, or it waits for its contexts, which CONTEXT_GRANT gives it together. -/
def Obligations.JobsArePlacedAndStart : Prop :=
  (∀ (s : State) (id g : Nat) (data : List Byte) (j : Job),
      let ds : List (List Byte) := j.cmds.map (·.desc)
      s.job? id = some j →
      (s.placeable j = true ∧ j.cmds ≠ []) →
      s.choose ((s.candidates j.stall j.coreMask ds).filter s.openCore) ds [] = some g →
      s.firstBad g j = none →
      ∃ t, exec (.jobPlace id data) s = .next t
        ∧ (t.job? id) = some { j with phase := .placed, core := g }
        ∧ t.cmd.jobs.length = s.cmd.jobs.length
        ∧ s.onlyRegs [] t)
  ∧ (∀ (s : State) (id g i st : Nat) (data : List Byte) (j : Job),
      let ds : List (List Byte) := j.cmds.map (·.desc)
      s.job? id = some j →
      (s.placeable j = true ∧ j.cmds ≠ []) →
      s.choose ((s.candidates j.stall j.coreMask ds).filter s.openCore) ds [] = some g →
      s.firstBad g j = some (i, st) →
      ∃ t, exec (.jobPlace id data) s = .next t
        ∧ (t.job? id).map (·.phase) = some .accepted
        ∧ ((t.job? id).map (fun z => z.cmds.map (·.status)) = some (j.cmds.mapIdx fun k _ => if k = i then st else St.ABANDONED))
        ∧ ((t.job? id).map (fun z => z.cmds.all fun c => c.stage = .done) = some true)
        ∧ s.onlyRegs [] t)
  ∧ (∀ (s : State) (id : Nat) (data : List Byte) (j : Job),
      let ds : List (List Byte) := j.cmds.map (·.desc)
      s.job? id = some j →
      (s.placeable j = true ∧ j.cmds ≠ []) →
      s.candidates j.stall j.coreMask ds = [] →
      ∃ t, exec (.jobPlace id data) s = .next t
        ∧ ((t.job? id).map (fun z => z.cmds.map (·.status)) = some (j.cmds.mapIdx fun k _ => if k = s.planWidthCmd j.stall j.coreMask ds then St.PLAN_WIDTH else St.ABANDONED))
        ∧ ((t.job? id).map (fun z => z.cmds.all fun c => c.stage = .done) = some true)
        ∧ s.onlyRegs [] t)
  ∧ (∀ (s : State) (id : Nat) (data : List Byte) (j : Job),
      s.job? id = some j →
      (s.placeable j = true ∧ j.cmds = [] ∧ j.listDev = true) →
      (okOf (readList j.stall j.nCmds j.list) s).isSome = true →
      ∃ t, exec (.jobPlace id data) s = .next t
        ∧ ((t.job? id).map (fun z => z.cmds.map (·.desc)) = okOf (readList j.stall j.nCmds j.list) s))
  ∧ (∀ (s : State) (id : Nat) (data : List Byte) (j : Job),
      s.job? id = some j →
      (s.placeable j = true ∧ j.cmds = [] ∧ j.listDev = false) →
      (refWin j.list ≠ 0 ∧ s.winSession (refWin j.list) = none) →
      ∃ t, exec (.jobPlace id data) s = .next t
        ∧ t = s)
  ∧ (∀ (s : State) (id i : Nat) (errs : List (BitVec 40 × Bool)) (links : List (Fin 16 × Bool)) (j : Job) (c : Cmd),
      let s0 : State := if s.rank j = 4 then s.grantSlice j.core else s
      let s1 : State := ({ s0.addErrors errs with links := (s0.addErrors errs).links ++ links.map fun l => (l.1.val, l.2) } : State).takeTurn j c.desc
      let info : CmdInfo := s1.cmdInfo j.core c.desc
      let s2 : State := if info.ctxs.isEmpty then s1 else s1.hold id i info.excl info.ctxs
      let c2 : Cmd := { c with second := s2.seatFor j.core c.desc }
      let s3 : State := s2.updCmd id i fun x => { x with began := true, stage := .started, budget := info.budget.ceil.toNat, second := s2.seatFor j.core c.desc }
      (s.job? id = some j ∧ j.cmd? i = some c) →
      (s.schedUp = true ∧ j.phase = .placed ∧ j.preempted = false) →
      (s0.mayStart j i c = true ∧ s0.mayUse j c.desc = true ∧ s0.waitsInit j.core c.desc = false) →
      (info.ctxs = [] ∨ s1.canHold id i info.excl info.ctxs = true) →
      okOf (beginBody id i j c2) s3 = some () →
      ∃ t, exec (.commandStart id i errs links) s = .next t
        ∧ (t.cmdOf id i).map (·.stage) = some .started
        ∧ (t.cmdOf id i).map (·.began) = some true
        ∧ (t.cmdOf id i).map (·.desc) = some c.desc
        ∧ (t.holds = if info.ctxs.isEmpty then s.holds else s.holds ++ info.ctxs.map fun k => { ctx := k, job := id, cmd := i, excl := info.excl }))
  ∧ (∀ (s : State) (id i : Nat) (j : Job) (c : Cmd),
      let s0 : State := if s.rank j = 4 then s.grantSlice j.core else s
      let s1 : State := s0.takeTurn j c.desc
      let info : CmdInfo := s1.cmdInfo j.core c.desc
      (s.job? id = some j ∧ j.cmd? i = some c) →
      (s.schedUp = true ∧ j.phase = .placed ∧ j.preempted = false) →
      (s0.mayStart j i c = true ∧ s0.mayUse j c.desc = true ∧ s0.waitsInit j.core c.desc = false) →
      (info.ctxs ≠ [] ∧ s1.canHold id i info.excl info.ctxs = false) →
      ∃ t, exec (.commandStart id i [] []) s = .next t
        ∧ (t.cmdOf id i).map (·.stage) = some .ctxWait
        ∧ t.holds = s.holds
        ∧ s0.onlyRegs [] t)
  ∧ (∀ (s : State) (id i : Nat) (j : Job) (c : Cmd),
      let s0 : State := if s.rank j = 4 then s.grantSlice j.core else s
      let s1 : State := s0.takeTurn j c.desc
      let info : CmdInfo := s1.cmdInfo j.core c.desc
      let s2 : State := s1.hold id i info.excl info.ctxs
      let c2 : Cmd := { c with second := s2.seatFor j.core c.desc }
      let s3 : State := s2.updCmd id i fun x => { x with began := true, stage := .started, budget := info.budget.ceil.toNat, second := s2.seatFor j.core c.desc }
      (s.job? id = some j ∧ j.cmd? i = some c) →
      (s.schedUp = true ∧ j.phase = .placed ∧ j.preempted = false ∧ c.stage = .ctxWait) →
      (s0.mayUse j c.desc = true ∧ s0.waitsInit j.core c.desc = false) →
      (info.ctxs ≠ [] ∧ s1.canHold id i info.excl info.ctxs = true) →
      okOf (beginBody id i j c2) s3 = some () →
      ∃ t, exec (.contextGrant id i) s = .next t
        ∧ (t.cmdOf id i).map (·.stage) = some .started
        ∧ (t.cmdOf id i).map (·.began) = some true
        ∧ (t.holds = s.holds ++ info.ctxs.map fun k => { ctx := k, job := id, cmd := i, excl := info.excl }))
  ∧ (∀ (s : State) (id : Nat) (data : List Byte) (j : Job),
      s.job? id = some j →
      (s.placeable j = true ∧ j.cmds = [] ∧ j.listDev = true) →
      endsWith (readList j.stall j.nCmds j.list) s St.CRC_MISMATCH = true →
      ∃ t, exec (.jobPlace id data) s = .next t
        ∧ (t.job? id).map (·.early) = some (some (St.CRC_MISMATCH, 0xFFFF))
        ∧ ((t.job? id).map (fun z => z.cmds.map (·.status)) = some (List.replicate j.nCmds St.ABANDONED)))
  ∧ (∀ (s : State) (id : Nat) (data : List Byte) (j : Job),
      s.job? id = some j →
      (s.placeable j = true ∧ j.cmds = [] ∧ j.listDev = true) →
      endsWith (readList j.stall j.nCmds j.list) s St.FIREWALL = true →
      ∃ t, exec (.jobPlace id data) s = .next t
        ∧ (t.job? id).map (·.early) = some (some (St.FIREWALL, 0xFFFF))
        ∧ ((t.job? id).map (fun z => z.cmds.map (·.status)) = some (List.replicate j.nCmds St.ABANDONED)))
  ∧ (∀ (s : State) (id : Nat) (data : List Byte) (j : Job),
      s.job? id = some j →
      (s.placeable j = true ∧ j.cmds = [] ∧ j.listDev = false) →
      refWin j.list = 0 →
      ∃ t, exec (.jobPlace id data) s = .next t
        ∧ (t.job? id).map (·.early) = some (some (St.FIREWALL, 0xFFFF))
        ∧ s.tells t 0x180 Kind.FABRIC_ERROR j.stall (hostAddrField j.list)
        ∧ s.onlyRegs [] t)
  ∧ (∀ (s : State) (id i st : Nat) (errs : List (BitVec 40 × Bool)) (links : List (Fin 16 × Bool)) (j : Job) (c : Cmd),
      let s0 : State := if s.rank j = 4 then s.grantSlice j.core else s
      let s1 : State := ({ s0.addErrors errs with links := (s0.addErrors errs).links ++ links.map fun l => (l.1.val, l.2) } : State).takeTurn j c.desc
      let info : CmdInfo := s1.cmdInfo j.core c.desc
      let s2 : State := if info.ctxs.isEmpty then s1 else s1.hold id i info.excl info.ctxs
      let c2 : Cmd := { c with second := s2.seatFor j.core c.desc }
      let s3 : State := s2.updCmd id i fun x => { x with began := true, stage := .started, budget := info.budget.ceil.toNat, second := s2.seatFor j.core c.desc }
      (s.job? id = some j ∧ j.cmd? i = some c) →
      (s.schedUp = true ∧ j.phase = .placed ∧ j.preempted = false) →
      (s0.mayStart j i c = true ∧ s0.mayUse j c.desc = true ∧ s0.waitsInit j.core c.desc = false) →
      (info.ctxs = [] ∨ s1.canHold id i info.excl info.ctxs = true) →
      endsWith (beginBody id i j c2) s3 st = true →
      ∃ t, exec (.commandStart id i errs links) s = .next t
        ∧ t.endsAs id i = some st
        ∧ (t.cmdOf id i).map (·.desc) = some c.desc)
  ∧ (∀ (s : State) (id i : Nat) (j : Job) (c : Cmd),
      let s0 : State := if s.rank j = 4 then s.grantSlice j.core else s
      let s1 : State := s0.takeTurn j c.desc
      let info : CmdInfo := s1.cmdInfo j.core c.desc
      (s.job? id = some j ∧ j.cmd? i = some c) →
      (s.schedUp = true ∧ j.phase = .placed ∧ j.preempted = false ∧ c.stage = .ctxWait) →
      (s0.mayUse j c.desc = true ∧ s0.waitsInit j.core c.desc = false) →
      (info.ctxs ≠ [] ∧ s1.canHold id i info.excl info.ctxs = false) →
      ∃ t, exec (.contextGrant id i) s = .next t
        ∧ (t.cmdOf id i).map (·.stage) = some .ctxWait
        ∧ t.holds = s.holds)
  ∧ (∀ (s : State) (id i st : Nat) (j : Job) (c : Cmd),
      let s0 : State := if s.rank j = 4 then s.grantSlice j.core else s
      let s1 : State := s0.takeTurn j c.desc
      let info : CmdInfo := s1.cmdInfo j.core c.desc
      let s2 : State := s1.hold id i info.excl info.ctxs
      let c2 : Cmd := { c with second := s2.seatFor j.core c.desc }
      let s3 : State := s2.updCmd id i fun x => { x with began := true, stage := .started, budget := info.budget.ceil.toNat, second := s2.seatFor j.core c.desc }
      (s.job? id = some j ∧ j.cmd? i = some c) →
      (s.schedUp = true ∧ j.phase = .placed ∧ j.preempted = false ∧ c.stage = .ctxWait) →
      (s0.mayUse j c.desc = true ∧ s0.waitsInit j.core c.desc = false) →
      (info.ctxs ≠ [] ∧ s1.canHold id i info.excl info.ctxs = true) →
      endsWith (beginBody id i j c2) s3 st = true →
      ∃ t, exec (.contextGrant id i) s = .next t
        ∧ t.endsAs id i = some st)
  ∧ (∀ (s : State) (id i : Nat) (errs : List (BitVec 40 × Bool)) (links : List (Fin 16 × Bool)) (j : Job) (c : Cmd),
      let s0 : State := if s.rank j = 4 then s.grantSlice j.core else s
      (s.job? id = some j ∧ j.cmd? i = some c) →
      (s.schedUp = true ∧ j.phase = .placed ∧ j.preempted = false) →
      s0.mayStart j i c = true →
      (opcodeOf c.desc = 0x10 ∨ opcodeOf c.desc = 0x11 ∨ opcodeOf c.desc = 0x12) →
      ∃ t, exec (.commandStart id i errs links) s = .next t
        ∧ (t.cmdOf id i).map (·.stage) = some .started
        ∧ (t.cmdOf id i).map (·.began) = some true
        ∧ (t.cmdOf id i).map (·.desc) = some c.desc)
  ∧ (∀ (s : State) (id i : Nat) (j : Job) (c : Cmd),
      let d : List Byte := c.desc
      let gf : Nat := le d 18 2
      let s0 : State := if s.rank j = 4 then s.grantSlice j.core else s
      (s.job? id = some j ∧ j.cmd? i = some c) →
      (s.schedUp = true ∧ j.phase = .placed ∧ j.preempted = false ∧ c.stage = .ctxWait) →
      (s0.mayUse j d = true ∧ s0.waitsInit j.core d = false) →
      (opcodeOf d = 0x09 ∧ j.stall < 16 ∧ s.ctxResetBudget d ≤ 237500 ∧ ctxSet d ≠ []) →
      s.canHold id i true (ctxSet d) = true →
      (∀ k ∈ ctxSet d, s.calm (ctxAddr k) 32 = true ∧ s.injection (ctxAddr k) = none ∧ (s.ctx k).owner = j.stall ∧ (s.ctx k).gen = gf ∧ ((s.ctx k).state = 1 ∨ (s.ctx k).state = 2)) →
      ∃ t, exec (.contextGrant id i) s = .next t
        ∧ (t.cmdOf id i).map (·.stage) = some .started
        ∧ (t.cmdOf id i).map (·.began) = some true
        ∧ (t.holds = s.holds ++ (ctxSet d).map fun k => { ctx := k, job := id, cmd := i, excl := true })
        ∧ s.sameMem t)

/-- ENDS (R271, R285, R286, R289, R317, R403, R421): COMMAND_END closes a successful command's selvages, gives up its contexts and makes its status final; a failure abandons every command of the job that has not started; JOB_COMPLETE makes the record, journals it and frees the job's place; COMPLETION_PUBLISH writes bytes 8 to 31 of the ring's next record through its completion window, or holds it; when the host has acknowledged, bytes 0 to 7 follow and then PUBLISHED advances; a passed deadline ends what has not started and is reported. -/
def Obligations.JobsEndAndComplete : Prop :=
  (∀ (s : State) (id i : Nat) (j : Job) (c : Cmd),
      let s1 : State := (runOn (closeBody j c) s).2
      (s.job? id = some j ∧ j.cmd? i = some c) →
      (c.stage = .ending ∧ j.runs (opcodeOf c.desc) = true) →
      (usesUnit c.desc = false ∨ s.controlUp j.core = true) →
      (succeeded c.status = true ∧ okOf (closeBody j c) s = some ()) →
      (j.stall < 16 ∧ s1.sound j.core = true) →
      ∃ t, exec (.commandEnd id i) s = .next t
        ∧ t.cmdOf id i = some { c with stage := .done, late := j.deadlinePassed }
        ∧ ((t.job? id).map (fun z => z.cmds.eraseIdx i) = some (j.cmds.eraseIdx i))
        ∧ (t.holds = s1.holds.filter (fun z => !(z.job == id && z.cmd == i)))
        ∧ s1.sameMem t)
  ∧ (∀ (s : State) (id n q : Nat) (j : Job),
      s.job? id = some j →
      j.src = .ring n q →
      (j.ended = true ∧ s.schedUp = true) →
      (j.phase = .accepted ∨ j.phase = .placed) →
      (succeeded j.outcome.1 = false ∨ s.completionRefused j n q = none) →
      ∃ t, exec (.jobComplete id) s = .next t
        ∧ t.job? id = some { j with phase := .completed, record := j.recordBytes s.ns s.synced }
        ∧ (t.cmd.after = s.cmd.after.filter fun a => a.1 != id)
        ∧ (t.cmd.journal.log = if s.journalOk then s.cmd.journal.log.map (fun r => if r.ring = n ∧ r.seq = q then { r with completed := some (j.recordBytes s.ns s.synced), statuses := j.statusBytes } else r) else s.cmd.journal.log)
        ∧ s.sameMem t)
  ∧ (∀ (s : State) (r : RingId) (j : Job) (y : Nat) (x : Session),
      let ref : Nat := s.compRef r.val (s.published r.val)
      (s.nextPublished r.val = some j ∧ j.phase = .completed) →
      ((s.ring r.val).refusedHold = false ∧ s.rd64 (Reg.CMD_RING_COMP r.val) ≠ 0 ∧ s.schedUp = true) →
      (j.statusPtr = 0 ∧ j.record.length = 32) →
      (s.winWrite (refWin ref) (refOff ref) 32).isSome = true →
      (refReserved (ref + 8) = 0 ∧ s.winWrite (refWin (ref + 8)) (refOff (ref + 8)) 24 = some y) →
      (s.session? y = some x ∧ 24 ≤ x.maxData ∧ x.reqs.length < 64) →
      ∃ t, exec (.completionPublish r) s = .next t
        ∧ ((t.job? j.id).map (·.phase) = some .publishing ∧ (t.job? j.id).map (·.pubStep) = some 0)
        ∧ (((t.session? y).bind fun z => z.reqs.getLast?).map (fun z => (z.kind, z.body, z.why)) = some (2, accessBody (refWin (ref + 8)) (refOff (ref + 8)) 24 (j.record.drop 8), .completion r.val))
        ∧ t.published r.val = s.published r.val
        ∧ s.onlyRegs [] t)
  ∧ (∀ (s : State) (r : RingId) (j : Job),
      let ref : Nat := s.compRef r.val (s.published r.val)
      s.nextPublished r.val = some j →
      ((s.ring r.val).refusedHold = true ∨ s.winWrite (refWin ref) (refOff ref) 32 = none) →
      ∃ t, exec (.completionPublish r) s = .next t
        ∧ t = s)
  ∧ (∀ (s : State) (r : RingId) (j : Job),
      (s.nextPublished r.val = some j ∧ j.phase = .publishing ∧ j.pubStep ≠ 0) →
      s.sessions.any (fun x => x.reqs.any fun z => z.why == .completion r.val) = true →
      s.published r.val + 1 < 2 ^ 64 →
      ∃ t, exec (.completionWriteAcked r) s = .next t
        ∧ t.published r.val = s.published r.val + 1
        ∧ t.rd (Reg.CMD_RING_JOBS r.val) = s.rd (Reg.CMD_RING_JOBS r.val) + 1#32
        ∧ (t.cmd.jobs = s.cmd.jobs.filter fun z => z.id != j.id)
        ∧ s.onlyRegs [Reg.CMD_RING_PUB r.val, Reg.CMD_RING_PUB r.val + 4, Reg.CMD_RING_JOBS r.val, Reg.CMD_STATUS] t)
  ∧ (∀ (s : State) (r : RingId) (j : Job) (y : Nat) (x : Session),
      let ref : Nat := s.compRef r.val (s.published r.val)
      (s.nextPublished r.val = some j ∧ j.phase = .publishing ∧ j.pubStep = 0 ∧ 8 ≤ j.record.length) →
      s.sessions.any (fun x => x.reqs.any fun z => z.why == .completion r.val) = true →
      (refReserved ref = 0 ∧ s.winWrite (refWin ref) (refOff ref) 8 = some y) →
      (s.session? y = some x ∧ 24 ≤ x.maxData ∧ x.reqs.length < 64) →
      ∃ t, exec (.completionWriteAcked r) s = .next t
        ∧ (t.job? j.id).map (·.pubStep) = some 1
        ∧ t.published r.val = s.published r.val
        ∧ (((t.session? y).bind fun z => z.reqs.getLast?).map (fun z => (z.kind, z.body, z.why)) = some (2, accessBody (refWin ref) (refOff ref) 8 (j.record.take 8), .completion r.val))
        ∧ s.onlyRegs [] t)
  ∧ (∀ (s : State) (id d n q : Nat) (j : Job),
      s.job? id = some j →
      j.src = .ring n q →
      (j.deadline = some d ∧ d ≤ s.refNs ∧ j.deadlinePassed = false) →
      (j.phase = .accepted ∨ j.phase = .placed) →
      ∃ t, exec (.jobDeadlinePassed id) s = .next t
        ∧ t.job? id = some j.passDeadline
        ∧ s.tells t 0x100 Kind.DEADLINE_MISSED j.stall (n * 2 ^ 32 + q % 2 ^ 32)
        ∧ s.onlyRegs [Reg.SCH_STALL_STEPS j.stall, Reg.SCH_STALL_STEPS j.stall + 4] t)
  ∧ (∀ (s : State) (id i : Nat) (j : Job) (c : Cmd),
      (s.job? id = some j ∧ j.cmd? i = some c) →
      (c.stage = .ending ∧ j.runs (opcodeOf c.desc) = true) →
      (usesUnit c.desc = false ∨ s.controlUp j.core = true) →
      (succeeded c.status = false ∧ c.status ≠ St.VERSION_MISMATCH) →
      (j.stall < 16 ∧ s.sound j.core = true) →
      ∃ t, exec (.commandEnd id i) s = .next t
        ∧ t.cmdOf id i = some { c with stage := .done, late := j.deadlinePassed }
        ∧ ((t.job? id).map (fun z => z.cmds.map (·.status)) = some (j.cmds.mapIdx fun k x => if k ≠ i ∧ x.began = false ∧ (x.stage = .idle ∨ x.stage = .ctxWait) then St.ABANDONED else x.status))
        ∧ ((t.job? id).map (fun z => z.cmds.map (·.stage)) = some (j.cmds.mapIdx fun k x => if k = i ∨ x.began = false ∧ (x.stage = .idle ∨ x.stage = .ctxWait) then .done else x.stage))
        ∧ (t.holds = s.holds.filter (fun z => !(z.job == id && z.cmd == i)))
        ∧ s.sameMem t)
  ∧ (∀ (s : State) (id i st : Nat) (j : Job) (c : Cmd),
      let s1 : State := (runOn (closeBody j c) s).2
      (s.job? id = some j ∧ j.cmd? i = some c) →
      (c.stage = .ending ∧ j.runs (opcodeOf c.desc) = true) →
      (usesUnit c.desc = false ∨ s.controlUp j.core = true) →
      (succeeded c.status = true ∧ endsWith (closeBody j c) s st = true) →
      (j.stall < 16 ∧ s1.sound j.core = true) →
      ∃ t, exec (.commandEnd id i) s = .next t
        ∧ t.cmdOf id i = some { c with stage := .done, status := st, late := j.deadlinePassed }
        ∧ (t.holds = s1.holds.filter (fun z => !(z.job == id && z.cmd == i)))
        ∧ s1.sameMem t)
  ∧ (∀ (s : State) (id n q ref : Nat) (j : Job),
      let k : Job := { j with early := some (St.FIREWALL, 0xFFFF) }
      s.job? id = some j →
      j.src = .ring n q →
      (j.ended = true ∧ s.schedUp = true) →
      (j.phase = .accepted ∨ j.phase = .placed) →
      (succeeded j.outcome.1 = true ∧ s.completionRefused j n q = some ref) →
      ∃ t, exec (.jobComplete id) s = .next t
        ∧ t.job? id = some { k with phase := .completed, record := k.recordBytes s.ns s.synced }
        ∧ s.tells t 0x180 Kind.FABRIC_ERROR j.stall (hostAddrField ref)
        ∧ s.onlyRegs [] t)
  ∧ (∀ (s : State) (id i : Nat) (j : Job) (c : Cmd),
      (s.job? id = some j ∧ j.cmd? i = some c) →
      (c.stage = .ending ∧ j.runs (opcodeOf c.desc) = true) →
      (usesUnit c.desc = false ∨ s.controlUp j.core = true) →
      (succeeded c.status = true ∧ s.framedOuts j.core c.desc = []) →
      (j.stall < 16 ∧ s.sound j.core = true) →
      ∃ t, exec (.commandEnd id i) s = .next t
        ∧ t.cmdOf id i = some { c with stage := .done, late := j.deadlinePassed }
        ∧ (t.holds = s.holds.filter (fun z => !(z.job == id && z.cmd == i)))
        ∧ s.sameMem t)
  ∧ (∀ (s : State) (id i a : Nat) (j : Job) (c : Cmd) (b : Buf),
      let at_ : Nat := selvageAt b.base b.extent
      (s.job? id = some j ∧ j.cmd? i = some c) →
      (c.stage = .ending ∧ j.runs (opcodeOf c.desc) = true) →
      (usesUnit c.desc = false ∨ s.controlUp j.core = true) →
      (succeeded c.status = true ∧ s.framedOuts j.core c.desc = [b]) →
      s.canWrite (j.tagFor s c b.unit) at_ 32 = true →
      (boltAddr j.core 0 ≤ at_ ∧ at_ + 32 ≤ boltAddr j.core 0 + 0x400000) →
      (j.stall < 16 ∧ j.core < 32 ∧ s.sound j.core = true) →
      (a < at_ ∨ at_ + 32 ≤ a) →
      ∃ t, exec (.commandEnd id i) s = .next t
        ∧ t.cmdOf id i = some { c with stage := .done, late := j.deadlinePassed }
        ∧ (t.holds = s.holds.filter (fun z => !(z.job == id && z.cmd == i)))
        ∧ t.peek at_ 32 = selvageBytes { c.prov with flags := c.prov.flags ||| c.own } j.stall b.extent (crc32c (s.peek b.base b.extent)).toNat
        ∧ t.byte a = s.byte a)

/-! ### Commands that hold no core unit -/

/-- FENCES, SIGNALS, WAITS (R282 to R284, R379, R380, R532): a FENCE completes where its condition holds and else waits, and a waiting one completes once it holds; a SIGNAL of its stall's sixteen raises the signal to the greater value, at once or once the job is journalled, and one of another stall's, or for a device whose link is down, ends with FIREWALL and is reported; a WAIT_TIME whose target has come completes at once or, refusing late starts, ends with OUT_OF_LIMIT, as does a target that no time field can hold; else it waits for its target. -/
def Obligations.FencesSignalsAndWaits : Prop :=
  (∀ (s : State) (id i : Nat) (j : Job) (c : Cmd),
      s.goes id i 0x10 .started j c →
      s.fenceMet j i c.desc = true →
      ∃ t, exec (.fence id i) s = .next t
        ∧ t.endsAs id i = some St.OK
        ∧ s.onlyRegs [] t)
  ∧ (∀ (s : State) (id i : Nat) (j : Job) (c : Cmd),
      s.goes id i 0x10 .running j c →
      s.fenceMet j i c.desc = true →
      ∃ t, exec (.fenceConditionMet id i) s = .next t
        ∧ t.endsAs id i = some St.OK
        ∧ s.onlyRegs [] t)
  ∧ (∀ (s : State) (j : Job) (i : Nat) (d : List Byte),
      let prior : Bool := bitOf (le d 16 1) 0
      let signal : Bool := bitOf (le d 16 1) 1
      (s.fenceMet j i d = true ↔ ((prior = true → ∀ c ∈ j.cmds.take i, c.stage = .done) ∧ (signal = true → le d 24 8 ≤ s.rd64 (Reg.CMD_SIG (le d 17 1))))))
  ∧ (∀ (s : State) (id i : Nat) (j : Job) (c : Cmd),
      let d : List Byte := c.desc
      let sig : Nat := le d 17 1
      let v : Nat := le d 24 8
      let dev : Nat := bits (le d 16 1) 1 0
      s.goes id i 0x11 .started j c →
      sig / 16 = j.stall →
      (bitOf (le d 16 1) 2 = false ∧ dev = s.board.devnum) →
      ∃ t, exec (.signal id i) s = .next t
        ∧ t.endsAs id i = some St.OK
        ∧ t.rd64 (Reg.CMD_SIG sig) = max (s.rd64 (Reg.CMD_SIG sig)) v
        ∧ s.onlyRegs [Reg.CMD_SIG sig, Reg.CMD_SIG sig + 4] t)
  ∧ (∀ (s : State) (id i : Nat) (j : Job) (c : Cmd),
      s.goes id i 0x11 .started j c →
      le c.desc 17 1 / 16 ≠ j.stall →
      ∃ t, exec (.signal id i) s = .next t
        ∧ t.endsAs id i = some St.FIREWALL
        ∧ s.tells t 0x100 Kind.SIGNAL_REFUSED j.stall (le c.desc 17 1 + bits (le c.desc 16 1) 1 0 * 2 ^ 8)
        ∧ s.onlyRegs [] t)
  ∧ (∀ (s : State) (id i : Nat) (j : Job) (c : Cmd),
      let w : Int := s.waitTarget j c.desc
      s.goes id i 0x12 .started j c →
      (0 ≤ w ∧ w < 2 ^ 63 ∧ s.actionDue w.toNat 0 = true) →
      ∃ t, exec (.waitTime id i) s = .next t
        ∧ (t.endsAs id i = some (if bitOf (le c.desc 16 1) 2 then St.OUT_OF_LIMIT else St.OK))
        ∧ s.onlyRegs [] t)
  ∧ (∀ (s : State) (id i : Nat) (j : Job) (c : Cmd),
      s.goes id i 0x12 .running j c →
      s.actionDue c.target 0 = true →
      ∃ t, exec (.waitTimeReached id i) s = .next t
        ∧ t.endsAs id i = some St.OK
        ∧ s.onlyRegs [] t)
  ∧ (∀ (s : State) (id i : Nat) (j : Job) (c : Cmd),
      s.goes id i 0x10 .started j c →
      s.fenceMet j i c.desc = false →
      ∃ t, exec (.fence id i) s = .next t
        ∧ (t.cmdOf id i).map (·.stage) = some .running
        ∧ s.onlyRegs [] t)
  ∧ (∀ (s : State) (id i : Nat) (j : Job) (c : Cmd),
      let d : List Byte := c.desc
      let sig : Nat := le d 17 1
      let v : Nat := le d 24 8
      let dev : Nat := bits (le d 16 1) 1 0
      s.goes id i 0x11 .started j c →
      sig / 16 = j.stall →
      bitOf (le d 16 1) 2 = true →
      ∃ t, exec (.signal id i) s = .next t
        ∧ t.endsAs id i = some St.OK
        ∧ t.cmd.after = s.cmd.after ++ [(id, dev, sig, v)]
        ∧ s.onlyRegs [] t)
  ∧ (∀ (s : State) (id i : Nat) (j : Job) (c : Cmd),
      let d : List Byte := c.desc
      let sig : Nat := le d 17 1
      let dev : Nat := bits (le d 16 1) 1 0
      s.goes id i 0x11 .started j c →
      sig / 16 = j.stall →
      (bitOf (le d 16 1) 2 = false ∧ dev ≠ s.board.devnum ∧ s.portTo dev = none) →
      ∃ t, exec (.signal id i) s = .next t
        ∧ t.endsAs id i = some St.FIREWALL
        ∧ s.tells t 0x100 Kind.SIGNAL_REFUSED j.stall (sig + dev * 2 ^ 8 + 2 ^ 10)
        ∧ s.onlyRegs [] t)
  ∧ (∀ (s : State) (id i : Nat) (j : Job) (c : Cmd),
      let d : List Byte := c.desc
      let sig : Nat := le d 17 1
      let dev : Nat := bits (le d 16 1) 1 0
      s.goes id i 0x11 .started j c →
      sig / 16 = j.stall →
      (bitOf (le d 16 1) 2 = false ∧ dev ≠ s.board.devnum ∧ (s.portTo dev).isSome = true) →
      ∃ t, exec (.signal id i) s = .next t
        ∧ (t.cmdOf id i).map (·.stage) = some .running
        ∧ s.onlyRegs [] t)
  ∧ (∀ (s : State) (id i : Nat) (j : Job) (c : Cmd),
      let w : Int := s.waitTarget j c.desc
      s.goes id i 0x12 .started j c →
      (w < 0 ∨ 2 ^ 63 ≤ w) →
      ∃ t, exec (.waitTime id i) s = .next t
        ∧ t.endsAs id i = some St.OUT_OF_LIMIT
        ∧ s.onlyRegs [] t)
  ∧ (∀ (s : State) (id i : Nat) (j : Job) (c : Cmd),
      let w : Int := s.waitTarget j c.desc
      s.goes id i 0x12 .started j c →
      (0 ≤ w ∧ w < 2 ^ 63 ∧ s.actionDue w.toNat 0 = false) →
      ∃ t, exec (.waitTime id i) s = .next t
        ∧ (t.cmdOf id i).map (·.stage) = some .running
        ∧ (t.cmdOf id i).map (·.target) = some w.toNat
        ∧ s.onlyRegs [] t)

/-- PUBLISH, STATS_READ, SENSOR_WRITE (R353 to R355, R390 to R393): a PUBLISH whose checks pass queues as many frames as its queue has room for and goes on queueing as room comes; it ends when its last frame has left or was dropped, with DEADLINE_MISSED if one was; a STATS_READ copies its record, waits for it, or ends where it will never come or the stream is not its stall's; a SENSOR_WRITE enters its setting in the queue in the order of frames, waits for room, or ends late. Which unit's tag these commands carry is the model's choice (log entry 91). -/
def Obligations.PublishStatsAndSensors : Prop :=
  (∀ (s : State) (id i : Nat) (j : Job) (c : Cmd) (target : Option Nat),
      let p : PubD := pubD c.desc
      let tag : Tag := s.portTag p.port j.stall
      let sel : List Byte := s.view (selvageAt p.src p.len) 32
      let pay : List Byte := s.view p.src p.len
      let tsel : List Byte := s.view (selvageAt p.template p.tlen) 32
      let tem : List Byte := s.view p.template p.tlen
      let room : Nat := min (p.n - c.progress) (64 - (s.txQueue p.port p.queue).length)
      s.goes id i 0x13 .started j c →
      (s.canRead true tag (selvageAt p.src p.len) 32 = true ∧ s.canRead true tag p.src p.len = true) →
      (crc32c pay).toNat = le sel 24 4 →
      (s.canRead true tag (selvageAt p.template p.tlen) 32 = true ∧ s.canRead true tag p.template p.tlen = true) →
      (crc32c tem).toNat = le tsel 24 4 →
      ((pubTarget p (provOf sel)).toOption = some target ∧ s.silenced j.stall = false ∧ p.mon = none) →
      ∃ t, exec (.publish id i) s = .next t
        ∧ (t.cmdOf id i).map (·.stage) = some .running
        ∧ (t.cmdOf id i).map (·.progress) = some (c.progress + room)
        ∧ s.sameMem t)
  ∧ (∀ (s : State) (id i : Nat) (j : Job) (c : Cmd) (target : Option Nat),
      let p : PubD := pubD c.desc
      let tag : Tag := s.portTag p.port j.stall
      let sel : List Byte := s.view (selvageAt p.src p.len) 32
      let room : Nat := min (p.n - c.progress) (64 - (s.txQueue p.port p.queue).length)
      s.goes id i 0x13 .running j c →
      c.progress < p.n →
      (s.canRead true tag (selvageAt p.src p.len) 32 = true ∧ s.canRead true tag p.src p.len = true) →
      s.canRead true tag p.template p.tlen = true →
      (pubTarget p (provOf sel)).toOption.join = target →
      ∃ t, exec (.publishQueueSpace id i) s = .next t
        ∧ (t.cmdOf id i).map (·.stage) = some .running
        ∧ (t.cmdOf id i).map (·.progress) = some (c.progress + room)
        ∧ s.sameMem t)
  ∧ (∀ (s : State) (id i : Nat) (j : Job) (c : Cmd),
      s.goes id i 0x13 .running j c →
      ((pubD c.desc).n ≤ c.progress ∧ s.framesWait id i = false) →
      ∃ t, exec (.publishLastFrameSent id i) s = .next t
        ∧ (t.endsAs id i = some (if c.aux = 0 then successStatus c.own else St.DEADLINE_MISSED))
        ∧ s.onlyRegs [] t)
  ∧ (∀ (s : State) (id i f : Nat) (j : Job) (c : Cmd),
      let src : Nat := tabStats (s.stream (le c.desc 16 1 % 128)).table + f % 4 * statsSlot
      let dst : Nat := boltAddr j.core (le c.desc 24 4)
      let tag : Tag := s.tagOf j.stall 0x120
      let v : List Byte := s.view (selvageAt src statsBytes) 32
      let b : List Byte := s.view src statsBytes
      s.goes id i 0x14 .started j c →
      s.streamOwned (le c.desc 16 1 % 128) j.stall = true →
      s.statsAt j c.desc = .ready f →
      (s.canRead true tag (selvageAt src statsBytes) 32 = true ∧ s.canRead true tag src statsBytes = true) →
      (s.canWrite tag dst statsBytes = true ∧ s.canWrite tag (selvageAt dst statsBytes) 32 = true) →
      (j.core < 32 ∧ le c.desc 24 4 + statsBytes + 32 ≤ 0x400000) →
      (src + statsBytes + 32 ≤ boltAddr j.core 0 ∨ (boltAddr j.core 0 + 0x400000 ≤ src ∧ src + statsBytes + 32 ≤ 0x2000000000)) →
      (selvageCrcOk v = true ∧ bits (le v 13 1) 7 4 = 1 ∧ le v 20 4 = statsBytes ∧ le v 14 2 &&& flagRefuseOf c.desc = 0) →
      ∃ t, exec (.statsRead id i) s = .next t
        ∧ (t.endsAs id i = some (if (crc32c b).toNat = le v 24 4 then St.OK else St.CRC_MISMATCH))
        ∧ t.peek dst statsBytes = b
        ∧ (t.peek (selvageAt dst statsBytes) 32 = if (crc32c b).toNat = le v 24 4 then selvageBytes (provOf v) tag.stall.val statsBytes (crc32c b).toNat else selvageOpen {} tag.stall.val statsBytes 0))
  ∧ (∀ (s : State) (id i f : Nat) (j : Job) (c : Cmd),
      let src : Nat := tabStats (s.stream (le c.desc 16 1 % 128)).table + f % 4 * statsSlot
      let dst : Nat := boltAddr j.core (le c.desc 24 4)
      let tag : Tag := s.tagOf j.stall 0x120
      let v : List Byte := s.view (selvageAt src statsBytes) 32
      let b : List Byte := s.view src statsBytes
      s.goes id i 0x14 .running j c →
      s.streamOwned (le c.desc 16 1 % 128) j.stall = true →
      s.statsAt j c.desc = .ready f →
      (s.canRead true tag (selvageAt src statsBytes) 32 = true ∧ s.canRead true tag src statsBytes = true) →
      (s.canWrite tag dst statsBytes = true ∧ s.canWrite tag (selvageAt dst statsBytes) 32 = true) →
      (j.core < 32 ∧ le c.desc 24 4 + statsBytes + 32 ≤ 0x400000) →
      (src + statsBytes + 32 ≤ boltAddr j.core 0 ∨ (boltAddr j.core 0 + 0x400000 ≤ src ∧ src + statsBytes + 32 ≤ 0x2000000000)) →
      (selvageCrcOk v = true ∧ bits (le v 13 1) 7 4 = 1 ∧ le v 20 4 = statsBytes ∧ le v 14 2 &&& flagRefuseOf c.desc = 0) →
      ∃ t, exec (.statsRecordWritten id i) s = .next t
        ∧ (t.endsAs id i = some (if (crc32c b).toNat = le v 24 4 then St.OK else St.CRC_MISMATCH))
        ∧ t.peek dst statsBytes = b
        ∧ (t.peek (selvageAt dst statsBytes) 32 = if (crc32c b).toNat = le v 24 4 then selvageBytes (provOf v) tag.stall.val statsBytes (crc32c b).toNat else selvageOpen {} tag.stall.val statsBytes 0))
  ∧ (∀ (s : State) (id i : Nat) (j : Job) (c : Cmd),
      let x : SensD := sensD c.desc
      let n : Nat := x.stream
      let aim : Nat := (if x.rel then ((s.firedFrame j n).elim 0 (·.1) + x.target) % 2 ^ 32 else x.target)
      let late : Bool := decide (ahead (aim + 2 ^ 32 - s.strLatency n + 1) (s.frameCount n) ≤ 0)
      s.goes id i 0x15 .started j c →
      (s.streams.length = 128 ∧ n < 128 ∧ s.streamOwned n j.stall = true) →
      (s.stream n).queue.length < 16 →
      (late = false ∨ x.late = true) →
      ∃ t, exec (.sensorWrite id i) s = .next t
        ∧ t.endsAs id i = some St.OK
        ∧ ((t.stream n).queue = (insertSetting { frame := (if late then (s.frameCount n + s.strLatency n) % 2 ^ 32 else aim), tag := x.tag, tune := x.tune, writes := (List.range x.n).map (writeRec c.held), confirm := x.expect.take x.confirm } (s.stream n).queue).map (s.stamped n))
        ∧ s.sameMem t)
  ∧ (∀ (s : State) (id i : Nat) (j : Job) (c : Cmd),
      let x : SensD := sensD c.desc
      let n : Nat := x.stream
      let aim : Nat := (if x.rel then ((s.firedFrame j n).elim 0 (·.1) + x.target) % 2 ^ 32 else x.target)
      let late : Bool := decide (ahead (aim + 2 ^ 32 - s.strLatency n + 1) (s.frameCount n) ≤ 0)
      s.goes id i 0x15 .running j c →
      (s.streams.length = 128 ∧ n < 128 ∧ s.streamOwned n j.stall = true) →
      (s.stream n).queue.length < 16 →
      (late = false ∨ x.late = true) →
      ∃ t, exec (.sensorQueueSpace id i) s = .next t
        ∧ t.endsAs id i = some St.OK
        ∧ ((t.stream n).queue = (insertSetting { frame := (if late then (s.frameCount n + s.strLatency n) % 2 ^ 32 else aim), tag := x.tag, tune := x.tune, writes := (List.range x.n).map (writeRec c.held), confirm := x.expect.take x.confirm } (s.stream n).queue).map (s.stamped n))
        ∧ s.sameMem t)
  ∧ (∀ (s : State) (id i : Nat) (j : Job) (c : Cmd) (target : Option Nat),
      let p : PubD := pubD c.desc
      let tag : Tag := s.portTag p.port j.stall
      let sel : List Byte := s.view (selvageAt p.src p.len) 32
      let pay : List Byte := s.view p.src p.len
      let tsel : List Byte := s.view (selvageAt p.template p.tlen) 32
      let tem : List Byte := s.view p.template p.tlen
      let room : Nat := min (p.n - c.progress) (64 - (s.txQueue p.port p.queue).length)
      s.goes id i 0x13 .started j c →
      (s.canRead true tag (selvageAt p.src p.len) 32 = true ∧ s.canRead true tag p.src p.len = true) →
      (crc32c pay).toNat = le sel 24 4 →
      (s.canRead true tag (selvageAt p.template p.tlen) 32 = true ∧ s.canRead true tag p.template p.tlen = true) →
      (crc32c tem).toNat = le tsel 24 4 →
      ((pubTarget p (provOf sel)).toOption = some target ∧ s.silenced j.stall = false ∧ p.mon = none) →
      (s.portUp p.port = true ∧ s.eth.length = 3 ∧ (s.ethPort p.port).queues.length = 8) →
      ∃ t, exec (.publish id i) s = .next t
        ∧ (t.txQueue p.port p.queue = s.txQueue p.port p.queue ++ (List.range room).map fun k => { bytes := pubFrame p tem pay sel (c.progress + k), launch := if c.progress + k = 0 then target else none, due := false, job := id, cmd := i }))
  ∧ (∀ (s : State) (id i : Nat) (j : Job) (c : Cmd) (target : Option Nat),
      let p : PubD := pubD c.desc
      let tag : Tag := s.portTag p.port j.stall
      let sel : List Byte := s.view (selvageAt p.src p.len) 32
      let pay : List Byte := s.view p.src p.len
      let tem : List Byte := s.view p.template p.tlen
      let room : Nat := min (p.n - c.progress) (64 - (s.txQueue p.port p.queue).length)
      s.goes id i 0x13 .running j c →
      c.progress < p.n →
      (s.canRead true tag (selvageAt p.src p.len) 32 = true ∧ s.canRead true tag p.src p.len = true) →
      s.canRead true tag p.template p.tlen = true →
      (pubTarget p (provOf sel)).toOption.join = target →
      (s.portUp p.port = true ∧ s.eth.length = 3 ∧ (s.ethPort p.port).queues.length = 8) →
      ∃ t, exec (.publishQueueSpace id i) s = .next t
        ∧ (t.txQueue p.port p.queue = s.txQueue p.port p.queue ++ (List.range room).map fun k => { bytes := pubFrame p tem pay sel (c.progress + k), launch := if c.progress + k = 0 then target else none, due := false, job := id, cmd := i }))
  ∧ (∀ (s : State) (id i : Nat) (j : Job) (c : Cmd),
      let p : PubD := pubD c.desc
      let tag : Tag := s.portTag p.port j.stall
      let sel : List Byte := s.view (selvageAt p.src p.len) 32
      let pay : List Byte := s.view p.src p.len
      s.goes id i 0x13 .started j c →
      (s.canRead true tag (selvageAt p.src p.len) 32 = true ∧ s.canRead true tag p.src p.len = true) →
      (crc32c pay).toNat ≠ le sel 24 4 →
      ∃ t, exec (.publish id i) s = .next t
        ∧ t.endsAs id i = some St.CRC_MISMATCH
        ∧ s.tells t (0x140 + p.port) Kind.PAYLOAD_CRC (j.stall % 16) p.src
        ∧ s.onlyRegs [] t)
  ∧ (∀ (s : State) (id i : Nat) (j : Job) (c : Cmd),
      let p : PubD := pubD c.desc
      let tag : Tag := s.portTag p.port j.stall
      let sel : List Byte := s.view (selvageAt p.src p.len) 32
      let pay : List Byte := s.view p.src p.len
      let tsel : List Byte := s.view (selvageAt p.template p.tlen) 32
      let tem : List Byte := s.view p.template p.tlen
      s.goes id i 0x13 .started j c →
      (s.canRead true tag (selvageAt p.src p.len) 32 = true ∧ s.canRead true tag p.src p.len = true) →
      (crc32c pay).toNat = le sel 24 4 →
      (s.canRead true tag (selvageAt p.template p.tlen) 32 = true ∧ s.canRead true tag p.template p.tlen = true) →
      (crc32c tem).toNat = le tsel 24 4 →
      (pubTarget p (provOf sel)).toOption = none →
      ∃ t, exec (.publish id i) s = .next t
        ∧ t.endsAs id i = some St.OUT_OF_LIMIT
        ∧ s.onlyRegs [] t)
  ∧ (∀ (s : State) (id i : Nat) (j : Job) (c : Cmd),
      let p : PubD := pubD c.desc
      let tag : Tag := s.portTag p.port j.stall
      let sel : List Byte := s.view (selvageAt p.src p.len) 32
      let pay : List Byte := s.view p.src p.len
      let tsel : List Byte := s.view (selvageAt p.template p.tlen) 32
      let tem : List Byte := s.view p.template p.tlen
      s.goes id i 0x13 .started j c →
      (s.canRead true tag (selvageAt p.src p.len) 32 = true ∧ s.canRead true tag p.src p.len = true) →
      (crc32c pay).toNat = le sel 24 4 →
      (s.canRead true tag (selvageAt p.template p.tlen) 32 = true ∧ s.canRead true tag p.template p.tlen = true) →
      (crc32c tem).toNat = le tsel 24 4 →
      ((pubTarget p (provOf sel)).toOption.isSome = true ∧ s.silenced j.stall = true) →
      ∃ t, exec (.publish id i) s = .next t
        ∧ t.endsAs id i = some St.DEADLINE_MISSED
        ∧ s.onlyRegs [] t)
  ∧ (∀ (s : State) (id i st : Nat) (j : Job) (c : Cmd),
      s.goes id i 0x13 .started j c →
      endsWith (pubBody id i j c) s st = true →
      ∃ t, exec (.publish id i) s = .next t
        ∧ t.endsAs id i = some st)
  ∧ (∀ (s : State) (id i : Nat) (j : Job) (c : Cmd),
      s.goes id i 0x13 .running j c →
      (pubD c.desc).n ≤ c.progress →
      ∃ t, exec (.publishQueueSpace id i) s = .next t
        ∧ t = s)
  ∧ (∀ (s : State) (id i : Nat) (j : Job) (c : Cmd),
      s.goes id i 0x13 .running j c →
      (c.progress < (pubD c.desc).n ∨ s.framesWait id i = true) →
      ∃ t, exec (.publishLastFrameSent id i) s = .next t
        ∧ t = s)
  ∧ (∀ (s : State) (id i : Nat) (j : Job) (c : Cmd),
      s.goes id i 0x14 .started j c →
      s.streamOwned (le c.desc 16 1 % 128) j.stall = true →
      s.statsAt j c.desc = .gone →
      ∃ t, exec (.statsRead id i) s = .next t
        ∧ t.endsAs id i = some St.OUT_OF_LIMIT
        ∧ s.onlyRegs [] t)
  ∧ (∀ (s : State) (id i : Nat) (j : Job) (c : Cmd),
      s.goes id i 0x14 .started j c →
      s.streamOwned (le c.desc 16 1 % 128) j.stall = true →
      s.statsAt j c.desc = .wait →
      ∃ t, exec (.statsRead id i) s = .next t
        ∧ (t.cmdOf id i).map (·.stage) = some .running
        ∧ s.onlyRegs [] t)
  ∧ (∀ (s : State) (id i : Nat) (j : Job) (c : Cmd),
      let n : Nat := le c.desc 16 1 % 128
      s.goes id i 0x14 .started j c →
      s.streamOwned n j.stall = false →
      ∃ t, exec (.statsRead id i) s = .next t
        ∧ t.endsAs id i = some St.FIREWALL
        ∧ s.tells t 0x180 Kind.FABRIC_ERROR j.stall (0x3000000000 + Reg.ING_STR_CTRL n)
        ∧ s.onlyRegs [] t)
  ∧ (∀ (s : State) (id i : Nat) (j : Job) (c : Cmd),
      s.goes id i 0x14 .running j c →
      s.streamOwned (le c.desc 16 1 % 128) j.stall = true →
      s.statsAt j c.desc = .gone →
      ∃ t, exec (.statsRecordWritten id i) s = .next t
        ∧ t.endsAs id i = some St.OUT_OF_LIMIT
        ∧ s.onlyRegs [] t)
  ∧ (∀ (s : State) (id i : Nat) (j : Job) (c : Cmd),
      s.goes id i 0x14 .running j c →
      s.streamOwned (le c.desc 16 1 % 128) j.stall = true →
      s.statsAt j c.desc = .wait →
      ∃ t, exec (.statsRecordWritten id i) s = .next t
        ∧ (t.cmdOf id i).map (·.stage) = some .running
        ∧ s.onlyRegs [] t)
  ∧ (∀ (s : State) (id i : Nat) (j : Job) (c : Cmd),
      let n : Nat := le c.desc 16 1 % 128
      s.goes id i 0x14 .running j c →
      s.streamOwned n j.stall = false →
      ∃ t, exec (.statsRecordWritten id i) s = .next t
        ∧ t.endsAs id i = some St.FIREWALL
        ∧ s.tells t 0x180 Kind.FABRIC_ERROR j.stall (0x3000000000 + Reg.ING_STR_CTRL n)
        ∧ s.onlyRegs [] t)
  ∧ (∀ (s : State) (id i : Nat) (j : Job) (c : Cmd),
      let x : SensD := sensD c.desc
      let n : Nat := x.stream
      s.goes id i 0x15 .started j c →
      (s.streams.length = 128 ∧ n < 128 ∧ s.streamOwned n j.stall = true) →
      16 ≤ (s.stream n).queue.length →
      ∃ t, exec (.sensorWrite id i) s = .next t
        ∧ (t.cmdOf id i).map (·.stage) = some .running
        ∧ t.streams = s.streams
        ∧ s.onlyRegs [] t)
  ∧ (∀ (s : State) (id i : Nat) (j : Job) (c : Cmd),
      let x : SensD := sensD c.desc
      let n : Nat := x.stream
      let aim : Nat := (if x.rel then ((s.firedFrame j n).elim 0 (·.1) + x.target) % 2 ^ 32 else x.target)
      let late : Bool := decide (ahead (aim + 2 ^ 32 - s.strLatency n + 1) (s.frameCount n) ≤ 0)
      s.goes id i 0x15 .started j c →
      (s.streams.length = 128 ∧ n < 128 ∧ s.streamOwned n j.stall = true) →
      (s.stream n).queue.length < 16 →
      (late = true ∧ x.late = false) →
      ∃ t, exec (.sensorWrite id i) s = .next t
        ∧ t.endsAs id i = some St.DEADLINE_MISSED
        ∧ t.streams = s.streams
        ∧ s.onlyRegs [] t)
  ∧ (∀ (s : State) (id i : Nat) (j : Job) (c : Cmd),
      let x : SensD := sensD c.desc
      let n : Nat := x.stream
      s.goes id i 0x15 .started j c →
      s.streamOwned n j.stall = false →
      ∃ t, exec (.sensorWrite id i) s = .next t
        ∧ t.endsAs id i = some St.FIREWALL
        ∧ s.tells t 0x180 Kind.FABRIC_ERROR j.stall (0x3000000000 + Reg.ING_STR_CTRL n)
        ∧ s.onlyRegs [] t)
  ∧ (∀ (s : State) (id i : Nat) (j : Job) (c : Cmd),
      let x : SensD := sensD c.desc
      let n : Nat := x.stream
      s.goes id i 0x15 .running j c →
      (s.streams.length = 128 ∧ n < 128 ∧ s.streamOwned n j.stall = true) →
      16 ≤ (s.stream n).queue.length →
      ∃ t, exec (.sensorQueueSpace id i) s = .next t
        ∧ (t.cmdOf id i).map (·.stage) = some .running
        ∧ t.streams = s.streams
        ∧ s.onlyRegs [] t)
  ∧ (∀ (s : State) (id i : Nat) (j : Job) (c : Cmd),
      let x : SensD := sensD c.desc
      let n : Nat := x.stream
      let aim : Nat := (if x.rel then ((s.firedFrame j n).elim 0 (·.1) + x.target) % 2 ^ 32 else x.target)
      let late : Bool := decide (ahead (aim + 2 ^ 32 - s.strLatency n + 1) (s.frameCount n) ≤ 0)
      s.goes id i 0x15 .running j c →
      (s.streams.length = 128 ∧ n < 128 ∧ s.streamOwned n j.stall = true) →
      (s.stream n).queue.length < 16 →
      (late = true ∧ x.late = false) →
      ∃ t, exec (.sensorQueueSpace id i) s = .next t
        ∧ t.endsAs id i = some St.DEADLINE_MISSED
        ∧ t.streams = s.streams
        ∧ s.onlyRegs [] t)
  ∧ (∀ (s : State) (id i : Nat) (j : Job) (c : Cmd),
      let x : SensD := sensD c.desc
      let n : Nat := x.stream
      s.goes id i 0x15 .running j c →
      s.streamOwned n j.stall = false →
      ∃ t, exec (.sensorQueueSpace id i) s = .next t
        ∧ t.endsAs id i = some St.FIREWALL
        ∧ s.tells t 0x180 Kind.FABRIC_ERROR j.stall (0x3000000000 + Reg.ING_STR_CTRL n)
        ∧ s.onlyRegs [] t)

/-! ### Stalls and standing graphs -/

/-- STALLS (R303 to R306): a write of stall 0's control register changes nothing; ENABLE = 1 runs the checks of R304 in order, and the stall is enabled with its carve-outs where all pass, refused with the error's number and without them where one fails; ENABLE = 0 clears it and its carve-outs go once its placed work has finished; RESET ends every command of its jobs, drops its pending instances and its debt, and is reported. How a reset treats nodes that have no job yet is the model's choice (log entry 63). -/
def Obligations.StallsAreAdmitted : Prop :=
  (∀ (s : State) (t : Tag) (n : StallId) (v : Word),
      let c : Nat := Reg.SCH_STALL_CTRL n.val
      let a : Nat × State := (s.storeReg t.stall.val c (v ||| 0x80000000#32)).admitStall n.val
      s.grants t 0 c (v ||| 0x80000000#32) →
      (n.val ≠ 0 ∧ s.bit c 31 = false ∧ v.getLsbD 29 = false) →
      ∃ u, exec (.stallEnable t n v) s = .next u
        ∧ u.bit c 31 = (a.1 == 0)
        ∧ u.fld (Reg.SCH_STALL_STATUS n.val) 3 0 = a.1
        ∧ u.sch.carves = a.2.sch.carves
        ∧ u.fld c 9 0 = bits v.toNat 9 0
        ∧ s.sameMem u)
  ∧ (∀ (s : State) (t : Tag) (v : Word),
      s.grants t 0 (Reg.SCH_STALL_CTRL 0) (v ||| 0x80000000#32) →
      ∃ u, exec (.stallEnable t 0 v) s = .next u
        ∧ s.onlyRegs [] u
        ∧ (u.sch = s.sch ∧ u.cmd = s.cmd))
  ∧ (∀ (s : State) (t : Tag) (n : StallId) (v : Word),
      let c : Nat := Reg.SCH_STALL_CTRL n.val
      s.grants t 0 c (v &&& ~~~0x80000000#32) →
      (n.val ≠ 0 ∧ s.bit c 31 = true ∧ v.getLsbD 29 = false) →
      ∃ u, exec (.stallDisable t n v) s = .next u
        ∧ (u.bit c 31 = false ∧ u.bit c 30 = s.bit c 30)
        ∧ n.val ∈ u.sch.releasing
        ∧ (u.sch.carves = s.sch.carves.filter (fun e => e.1 != n.val))
        ∧ (u.sch.oldCarves = s.sch.oldCarves ++ s.sch.carves.filter (fun e => e.1 == n.val))
        ∧ u.cmd = s.cmd
        ∧ s.onlyRegs [c] u)
  ∧ (∀ (s : State) (n : StallId),
      (n.val ∈ s.sch.releasing ∧ s.placedWork n.val = false) →
      ∃ u, exec (.stallCarveRelease n) s = .next u
        ∧ (u.sch.oldCarves = s.sch.oldCarves.filter (fun e => e.1 != n.val))
        ∧ (u.sch.releasing = s.sch.releasing.filter (fun x => x != n.val))
        ∧ u.sch.carves = s.sch.carves
        ∧ u.cmd = s.cmd
        ∧ s.sameMem u)
  ∧ (∀ (s : State) (t : Tag) (n : StallId) (v : Word),
      s.grants t 0 (Reg.SCH_STALL_CTRL n.val) (v ||| 0x20000000#32) →
      n.val ≠ 0 →
      ∃ u, exec (.stallReset t n v) s = .next u
        ∧ ((u.cmd.jobs.all fun j => j.stall != n.val || j.cmds.all fun c => c.stage = .done) = true)
        ∧ u.debt n.val = 0
        ∧ ((u.holds.all fun h => s.cmd.jobs.all fun j => j.stall != n.val || j.ended || h.job != j.id) = true))
  ∧ (∀ (s : State) (t : Tag) (n : StallId) (v : Word),
      let c : Nat := Reg.SCH_STALL_CTRL n.val
      s.grants t 0 c (v ||| 0x80000000#32) →
      (n.val ≠ 0 ∧ s.bit c 31 = false ∧ v.getLsbD 29 = false) →
      (bits v.toNat 9 0 = 0 ∨ 1000 < bits v.toNat 9 0 ∨ 237500 < s.allow n.val) →
      ∃ u, exec (.stallEnable t n v) s = .next u
        ∧ u.bit c 31 = false
        ∧ u.fld (Reg.SCH_STALL_STATUS n.val) 3 0 = 1
        ∧ (u.sch = s.sch ∧ u.cmd = s.cmd)
        ∧ s.onlyRegs [c, Reg.SCH_STALL_STATUS n.val] u)
  ∧ (∀ (s : State) (n : StallId),
      (n.val ∉ s.sch.releasing ∨ s.placedWork n.val = true) →
      ∃ u, exec (.stallCarveRelease n) s = .next u
        ∧ u = s)
  ∧ (∀ (s : State) (n : StallId) (e : Nat × Nat × Bool × Nat),
      (n.val ∈ s.sch.releasing ∧ s.placedWork n.val = false) →
      (e ∈ s.sch.oldCarves ∧ e.1 = n.val) →
      ∃ u, exec (.stallCarveRelease n) s = .next u
        ∧ (u.bit (if e.2.2.1 then Reg.SK_CARVE e.2.1 e.2.2.2 else Reg.BT_CARVE e.2.1 e.2.2.2) 31 = false))
  ∧ (∀ (s : State) (t : Tag) (n : StallId) (v : Word) (g : GraphId),
      s.grants t 0 (Reg.SCH_STALL_CTRL n.val) (v ||| 0x20000000#32) →
      n.val ≠ 0 →
      s.graphStall g.val = n.val →
      ∃ u, exec (.stallReset t n v) s = .next u
        ∧ (u.graph g.val).pend = none)
  ∧ (∀ (s : State) (t : Tag) (n : StallId) (v : Word),
      s.grants t 0 (Reg.SCH_STALL_CTRL n.val) (v ||| 0x20000000#32) →
      n.val ≠ 0 →
      s.cmd.after = [] →
      ∃ u, exec (.stallReset t n v) s = .next u
        ∧ s.tells u 0x100 Kind.STALL_RESET n.val n.val)
  ∧ (∀ (s : State) (t : Tag) (n : StallId) (v : Word) (k : StreamId),
      s.grants t 0 (Reg.SCH_STALL_CTRL n.val) (v ||| 0x20000000#32) →
      n.val ≠ 0 →
      s.fld (Reg.ING_STR_CTRL k.val) 27 24 = n.val →
      ∃ u, exec (.stallReset t n v) s = .next u
        ∧ ((u.stream k.val).queue = (s.stream k.val).queue.filter fun y => y.phase != .queued))

/-- GRAPHS (R34, R35, R307 to R310, R325, R328): enabling a graph loads it and admits it or leaves it disabled with the error's number; disabling drops the pending instance and a held firing; a held firing is released when PERIOD_US has passed and starts an instance or becomes the pending one; the pending instance starts when there is room; an eligible node becomes a job on its home core; an instance ends once every node has, and its failure is counted; a passed deadline is counted once for an instance and reported with the node. -/
def Obligations.GraphsLoadAndFire : Prop :=
  (∀ (s : State) (t : Tag) (m : BitVec 16) (n : GraphId) (v : Word),
      let r : Nat := Reg.SCH_GRAPH_CTRL n.val
      let l : Nat × List Node × Option (List Task) × State := (((s.storeReg t.stall.val r (v ||| 0x80000000#32)).setBit r 31 false).updSched fun c => { c with tasks := c.tasks.filter fun z => z.graph != n.val }).loadGraph n.val
      s.grants t m.toNat r (v ||| 0x80000000#32) →
      (s.bit r 31 = false ∧ s.graphs.length = 64) →
      l.1 = 0 →
      ∃ u, exec (.graphEnable ⟨t, m⟩ n v) s = .next u
        ∧ u.bit r 31 = true
        ∧ u.bit r 30 = l.2.2.1.isSome
        ∧ u.fld r 27 24 = 0
        ∧ (u.graph n.val).nodes = l.2.1
        ∧ (u.graph n.val).insts = (s.graph n.val).insts
        ∧ (u.graph n.val).pend = none
        ∧ u.cmd.jobs = s.cmd.jobs
        ∧ l.2.2.2.sameMem u)
  ∧ (∀ (s : State) (t : Tag) (m : BitVec 16) (n : GraphId) (v : Word),
      let r : Nat := Reg.SCH_GRAPH_CTRL n.val
      s.grants t m.toNat r (v &&& ~~~0x80000000#32) →
      (s.bit r 31 = true ∧ s.graphs.length = 64) →
      ∃ u, exec (.graphDisable ⟨t, m⟩ n v) s = .next u
        ∧ u.bit r 31 = false
        ∧ ((u.graph n.val).pend = none ∧ (u.graph n.val).heldFire = none ∧ (u.graph n.val).closed = [])
        ∧ ((u.graph n.val).insts.map (fun i => { i with own := none }) = (s.graph n.val).insts.map fun i => { i with own := none })
        ∧ ((u.graph n.val).insts.all (fun i => i.own.isSome) = true)
        ∧ u.bit r 30 = (s.bit r 30 && !(s.graph n.val).insts.isEmpty)
        ∧ u.fld r 29 0 = s.fld r 29 0
        ∧ u.cmd = s.cmd
        ∧ s.onlyRegs [r] u)
  ∧ (∀ (s : State) (n : GraphId) (due : Nat) (frames : List (Nat × Nat × Nat)),
      let g : Graph := s.graph n.val
      g.heldFire = some (due, frames) →
      (s.schedUp = true ∧ due ≤ s.refNs) →
      (g.pend = none ∧ g.insts.length < s.instLimit n.val) →
      ∃ u, exec (.graphTriggerHoldEnd n) s = .next u
        ∧ (u.graph n.val).insts = g.insts ++ [{ id := g.nextInst, fired := s.refNs, frames := frames }]
        ∧ u.rd (Reg.SCH_GRAPH_FIRED n.val) = s.rd (Reg.SCH_GRAPH_FIRED n.val) + 1#32
        ∧ ((u.graph n.val).heldFire = none ∧ (u.graph n.val).lastFire = some s.refNs)
        ∧ s.onlyRegs [Reg.SCH_GRAPH_FIRED n.val] u)
  ∧ (∀ (s : State) (n : GraphId) (at_ : Nat) (frames : List (Nat × Nat × Nat)),
      let g : Graph := s.graph n.val
      g.pend = some (at_, frames) →
      (s.schedUp = true ∧ g.insts.length < s.instLimit n.val) →
      ∃ u, exec (.pendingInstanceStart n) s = .next u
        ∧ (u.graph n.val).insts = g.insts ++ [{ id := g.nextInst, fired := at_, frames := frames }]
        ∧ (u.graph n.val).pend = none
        ∧ u.rd (Reg.SCH_GRAPH_FIRED n.val) = s.rd (Reg.SCH_GRAPH_FIRED n.val) + 1#32
        ∧ s.onlyRegs [Reg.SCH_GRAPH_FIRED n.val] u)
  ∧ (∀ (s : State) (n : GraphId) (inst node g : Nat) (i : Inst) (x : Node) (j : Job),
      let s1 : State := s.makeNodeJob n.val i node x
      (s.inst? n.val inst = some i ∧ (s.instNodes n.val i)[node]? = some x) →
      (s.schedUp = true ∧ s.stallEnabled (s.instStall n.val i) = true) →
      (i.missed = false ∧ node ∉ i.missedNodes ∧ node ∉ i.placed) →
      (x.deps.all fun d => (s.nodeJob n.val inst d).any Job.passed) = true →
      (s1.nodeJob n.val inst node = some j ∧ s1.job? j.id = some j ∧ j.phase = .accepted ∧ j.ended = false) →
      (s1.instHome n.val i node = some g ∧ s1.openCore g = true) →
      (s1.candidates j.stall j.coreMask (j.cmds.map (·.desc)) ≠ [] ∧ s1.firstBad g j = none) →
      ∃ u, exec (.nodeEligible n inst node) s = .next u
        ∧ u.job? j.id = some { j with phase := .placed, core := g }
        ∧ u.cmd.jobs.length = s.cmd.jobs.length + 1
        ∧ (u.inst? n.val inst).map (·.placed) = some (i.placed ++ [node])
        ∧ s.onlyRegs [] u)
  ∧ (∀ (s : State) (n : GraphId) (inst : Nat) (k : Nat) (i : Inst),
      let s1 : State := s.settleInst n.val i
      let o : Nat := (decideStatus (i.missed || !i.missedNodes.isEmpty) (s1.instCmds n.val i)).1
      s.inst? n.val inst = some i →
      (s.schedUp = true ∧ s1.instEnded n.val i = true) →
      ∃ u, exec (.instanceEnd n inst) s = .next u
        ∧ u.inst? n.val inst = none
        ∧ u.nodeJob n.val inst k = none
        ∧ (u.rd (Reg.SCH_GRAPH_FAILED n.val) = if 0x20 ≤ o ∧ o < 0x40 then s.rd (Reg.SCH_GRAPH_FAILED n.val) + 1#32 else s.rd (Reg.SCH_GRAPH_FAILED n.val))
        ∧ s.sameMem u)
  ∧ (∀ (s : State) (n : GraphId) (inst k : Nat) (i : Inst) (x : Node),
      (s.inst? n.val inst = some i ∧ (s.instNodes n.val i)[k]? = some x) →
      s.deadlineStall (s.instStall n.val i) = true →
      (i.fired + x.dlUs * 1000 ≤ s.refNs ∧ k ∉ i.missedNodes ∧ i.missed = false ∧ (s.nodeJob n.val inst k).any Job.ended = false) →
      ∃ u, exec (.instanceDeadlinePassed n inst (some k)) s = .next u
        ∧ s.tells u 0x100 Kind.DEADLINE_MISSED (s.instStall n.val i) (2 ^ 39 + n.val * 2 ^ 32 + k)
        ∧ (u.inst? n.val inst).map (·.missedNodes) = some (i.missedNodes ++ [k])
        ∧ (u.rd (Reg.SCH_GRAPH_MISSED n.val) = (if i.missedNodes = [] then s.rd (Reg.SCH_GRAPH_MISSED n.val) + 1#32 else s.rd (Reg.SCH_GRAPH_MISSED n.val)))
        ∧ (s.onlyRegs (Reg.SCH_GRAPH_MISSED n.val :: s.cmd.jobs.flatMap fun j => [Reg.SCH_STALL_STEPS j.stall, Reg.SCH_STALL_STEPS j.stall + 4]) u))
  ∧ (∀ (s : State) (n : GraphId) (inst : Nat) (i : Inst),
      s.inst? n.val inst = some i →
      s.deadlineStall (s.instStall n.val i) = true →
      (i.fired + s.instDl n.val i * 1000 ≤ s.refNs ∧ i.missed = false ∧ s.instEnded n.val i = false) →
      ∃ u, exec (.instanceDeadlinePassed n inst none) s = .next u
        ∧ (u.inst? n.val inst).map (·.missed) = some true
        ∧ (u.rd (Reg.SCH_GRAPH_MISSED n.val) = (if i.missedNodes = [] then s.rd (Reg.SCH_GRAPH_MISSED n.val) + 1#32 else s.rd (Reg.SCH_GRAPH_MISSED n.val)))
        ∧ (s.onlyRegs (Reg.SCH_GRAPH_MISSED n.val :: s.cmd.jobs.flatMap fun j => [Reg.SCH_STALL_STEPS j.stall, Reg.SCH_STALL_STEPS j.stall + 4]) u))
  ∧ (∀ (s : State) (t : Tag) (m : BitVec 16) (n : GraphId) (v : Word),
      let r : Nat := Reg.SCH_GRAPH_CTRL n.val
      let l : Nat × List Node × Option (List Task) × State := (((s.storeReg t.stall.val r (v ||| 0x80000000#32)).setBit r 31 false).updSched fun c => { c with tasks := c.tasks.filter fun z => z.graph != n.val }).loadGraph n.val
      s.grants t m.toNat r (v ||| 0x80000000#32) →
      (s.bit r 31 = false ∧ s.graphs.length = 64) →
      l.1 ≠ 0 →
      ∃ u, exec (.graphEnable ⟨t, m⟩ n v) s = .next u
        ∧ u.bit r 31 = false
        ∧ u.fld r 27 24 = l.1 % 16
        ∧ u.graphs = s.graphs
        ∧ u.cmd.jobs = s.cmd.jobs
        ∧ l.2.2.2.sameMem u)
  ∧ (∀ (s : State) (t : Tag) (m : BitVec 16) (n : GraphId) (v : Word),
      let r : Nat := Reg.SCH_GRAPH_CTRL n.val
      s.grants t m.toNat r (v ||| 0x80000000#32) →
      (s.bit r 31 = false ∧ s.graphs.length = 64) →
      s.stallEnabled (bits v.toNat 23 20) = false →
      ∃ u, exec (.graphEnable ⟨t, m⟩ n v) s = .next u
        ∧ u.bit r 31 = false
        ∧ u.fld r 27 24 = 1
        ∧ u.cmd = s.cmd
        ∧ s.onlyRegs [r] u)
  ∧ (∀ (s : State) (n : GraphId) (due : Nat) (frames : List (Nat × Nat × Nat)),
      let g : Graph := s.graph n.val
      g.heldFire = some (due, frames) →
      (s.schedUp = true ∧ due ≤ s.refNs) →
      (g.pend = none ∧ s.instLimit n.val ≤ g.insts.length) →
      ∃ u, exec (.graphTriggerHoldEnd n) s = .next u
        ∧ (u.graph n.val).pend = some (s.refNs, frames)
        ∧ (u.graph n.val).insts = g.insts
        ∧ ((u.graph n.val).heldFire = none ∧ (u.graph n.val).lastFire = some s.refNs)
        ∧ s.onlyRegs [] u)
  ∧ (∀ (s : State) (n : GraphId) (due : Nat) (frames : List (Nat × Nat × Nat)),
      let g : Graph := s.graph n.val
      g.heldFire = some (due, frames) →
      (s.schedUp = true ∧ due ≤ s.refNs) →
      g.pend.isSome = true →
      ∃ u, exec (.graphTriggerHoldEnd n) s = .next u
        ∧ (u.graph n.val).pend = some (s.refNs, frames)
        ∧ (u.graph n.val).insts = g.insts
        ∧ u.rd (Reg.SCH_GRAPH_SKIPPED n.val) = s.rd (Reg.SCH_GRAPH_SKIPPED n.val) + 1#32
        ∧ s.tells u 0x100 Kind.TRIGGER_SKIPPED (s.graphStall n.val) n.val
        ∧ ((u.graph n.val).heldFire = none ∧ (u.graph n.val).lastFire = some s.refNs)
        ∧ s.onlyRegs [Reg.SCH_GRAPH_SKIPPED n.val] u)
  ∧ (∀ (s : State) (n : GraphId) (inst : Nat) (k : Nat) (i : Inst),
      let s1 : State := s.settleInst n.val i
      s.inst? n.val inst = some i →
      (s.schedUp = true ∧ s1.instEnded n.val i = true) →
      s.instFailed n.val i = false →
      ∃ u, exec (.instanceEnd n inst) s = .next u
        ∧ u.inst? n.val inst = none
        ∧ u.nodeJob n.val inst k = none
        ∧ s.onlyRegs [Reg.SCH_GRAPH_FAILED n.val, Reg.SCH_GRAPH_CTRL n.val] u)

/-! ### Pre-emption, spills, slices -/

/-- PRE-EMPTION (R316, R318 to R323): a request of eligible work of higher rank names the victim and notes whether it stands inside a segment; at a boundary of every command the victim gives up its units, and the wait inside a segment is its stall's debt; a spill copies the live bytes that the new work overlaps, a restore copies them back and the job goes on, and a failed copy ends the job; at the end of a slice the next one is granted and a stall with less virtual time asks the other to give way. Which extents count as live is the model's choice (log entry 89). -/
def Obligations.PreemptionSpillsAndSlices : Prop :=
  (∀ (s : State) (g : CoreId) (id : Nat) (j v : Job),
      s.job? id = some j →
      (s.schedUp = true ∧ s.sch.preempt.length = 32 ∧ s.sch.preempt.getD g.val none = none) →
      (j.phase = .placed ∧ j.core = g.val ∧ j.preempted = false ∧ s.eligible j = true) →
      s.victimOn g.val (s.rank j) (fun _ => true) = some v →
      ∃ t, exec (.preemptionRequest g id) s = .next t
        ∧ t.sch.preempt.getD g.val none = some { victim := v.id, winner := some id, since := s.refNs, waits := s.inSegment v }
        ∧ s.rank j < s.rank v
        ∧ t.cmd = s.cmd
        ∧ s.onlyRegs [] t)
  ∧ (∀ (s : State) (g : CoreId) (id : Nat) (j : Job) (v : Nat) (l : List (Nat × Nat)) (rest : List (Nat × List (Nat × Nat))),
      s.job? id = some j →
      (s.schedUp = true ∧ s.sch.preempt.length = 32 ∧ s.sch.preempt.getD g.val none = none) →
      (j.phase = .placed ∧ j.core = g.val ∧ j.preempted = false ∧ s.eligible j = true) →
      (s.victimOn g.val (s.rank j) (fun _ => true) = none ∧ s.spillDue j = (v, l) :: rest) →
      ∃ t, exec (.preemptionRequest g id) s = .next t
        ∧ t.sch.preempt.getD g.val none = some { victim := v, winner := some id, since := s.refNs, spilling := true }
        ∧ t.cmd = s.cmd
        ∧ s.onlyRegs [] t)
  ∧ (∀ (s : State) (g : CoreId) (p : Preempt) (v : Job),
      s.sch.preempt.getD g.val none = some p →
      s.job? p.victim = some v →
      (p.spilling = false ∧ (s.core g.val).pass = none ∧ v.cmds.all (s.atBoundary v) = true) →
      v.cmds.any (fun c => c.stage = .running && opcodeOf c.desc == 2) = false →
      (p.winner = none ∧ p.waits = false) →
      ∃ t, exec (.preemptionSwitch g) s = .next t
        ∧ t.job? p.victim = some { v with preempted := true }
        ∧ t.sch.preempt.getD g.val none = none
        ∧ s.onlyRegs [] t)
  ∧ (∀ (s : State) (g : CoreId) (p : Preempt) (w : Nat) (j v : Job),
      let s1 : State := s.setPreempt g.val none
      let l : List (Nat × Nat × Nat) := (((s1.spillDue j).find? fun x => x.1 == v.id).elim [] (·.2)).map fun x => (x.1, x.2, s1.spillPlace v.stall g.val x.1)
      let r : Option (Nat × Nat) × State := spillAll (s1.tagOf v.stall (unitSrc g.val 5)) l s1
      s.sch.preempt.getD g.val none = some p →
      (p.spilling = true ∧ p.winner = some w) →
      (s.job? w = some j ∧ s.job? p.victim = some v) →
      r.1 = none →
      ∃ t, exec (.spillComplete g) s = .next t
        ∧ t.sch.preempt.getD g.val none = none
        ∧ (t.job? v.id).map (·.spilled) = some (v.spilled ++ l)
        ∧ r.2.sameMem t)
  ∧ (∀ (s : State) (g : CoreId) (id : Nat) (v : Job),
      let s0 : State := if s.rank v = 4 then s.grantSlice g.val else s
      let l : List (Nat × Nat × Nat) := v.spilled.map fun x => (x.2.2, x.2.1, x.1)
      let r : Option (Nat × Nat) × State := spillAll (s0.tagOf v.stall (unitSrc g.val 5)) l s0
      s.job? id = some v →
      (s.schedUp = true ∧ v.preempted = true ∧ v.phase = .placed ∧ v.core = g.val) →
      (s0.jobsOn g.val).any (fun k => s0.rank k < s0.rank v && (s0.eligible k || k.holdsUnits)) = false →
      (s0.rank v != 4 || (s0.sch.slice.getD g.val none).any fun x => x.1 == v.stall) = true →
      (s.sch.preempt.getD g.val none = none ∧ (s.core g.val).testing = false) →
      (s0.sound g.val = true ∧ s0.clusterUp (g.val / 8) = true ∧ unitsFit (s0.unitsUsed g.val) (s0.resumeNeed v) = true) →
      v.decryptSeats.any (s0.seated g.val 3).contains = false →
      r.1 = none →
      ∃ t, exec (.restoreComplete g id) s = .next t
        ∧ t.job? id = some { v with preempted := false, spilled := [], cmds := r.2.reseat g.val (r.2.seated g.val 2) (r.2.seated g.val 3 ++ v.decryptSeats) v.cmds }
        ∧ r.2.sameMem t)
  ∧ (∀ (s : State) (g : CoreId) (steps n k : Nat),
      let s1 : State := (s.updSched fun c => { c with slice := c.slice.set g.val none }).grantSlice g.val
      s.sch.slice.getD g.val none = some (n, k) →
      (s.schedUp = true ∧ k ≤ steps) →
      ∃ t, exec (.beSliceEnd ⟨g, steps⟩) s = .next t
        ∧ t.sch.slice = s1.sch.slice
        ∧ t.cmd = s.cmd
        ∧ s1.onlyRegs [] t)
  ∧ (∀ (s : State) (g : CoreId) (steps n k : Nat) (m : Nat × Nat) (v w : Job),
      let s1 : State := (s.updSched fun c => { c with slice := c.slice.set g.val none }).grantSlice g.val
      s.sch.slice.getD g.val none = some (n, k) →
      (s.schedUp = true ∧ k ≤ steps) →
      (s1.sch.slice.getD g.val none = some m ∧ m.1 ≠ n ∧ s1.sch.preempt.getD g.val none = none) →
      s1.victimOn g.val 3 (fun z => z.stall != m.1) = some v →
      (s1.jobsOn g.val).find? (fun z => z.stall == m.1 && s1.eligible z) = some w →
      ∃ t, exec (.beSliceEnd ⟨g, steps⟩) s = .next t
        ∧ t.sch.preempt = s1.sch.preempt.set g.val (some { victim := v.id, winner := some w.id, since := s.refNs, waits := s1.inSegment v })
        ∧ t.cmd = s.cmd
        ∧ s1.onlyRegs [] t)
  ∧ (∀ (s : State) (g : CoreId) (p : Preempt) (v : Job),
      let d : Nat := (s.refNs - p.since) * 950 / 1000
      s.sch.preempt.getD g.val none = some p →
      s.job? p.victim = some v →
      (p.spilling = false ∧ (s.core g.val).pass = none ∧ v.cmds.all (s.atBoundary v) = true) →
      v.cmds.any (fun c => c.stage = .running && opcodeOf c.desc == 2) = false →
      (p.winner = none ∧ p.waits = true) →
      ∃ t, exec (.preemptionSwitch g) s = .next t
        ∧ t.job? p.victim = some { v with preempted := true }
        ∧ t.sch.preempt.getD g.val none = none
        ∧ t.debt v.stall = min (s.debt v.stall + d) (2 ^ 24 - 1)
        ∧ s.onlyRegs [Reg.SCH_STALL_DEBT v.stall] t)
  ∧ (∀ (s : State) (g : CoreId) (p : Preempt) (v : Job),
      s.sch.preempt.getD g.val none = some p →
      s.job? p.victim = some v →
      (p.spilling = false ∧ (s.core g.val).pass = none ∧ v.cmds.all (s.atBoundary v) = true) →
      p.winner.isSome = true →
      ∃ t, exec (.preemptionSwitch g) s = .next t
        ∧ t.job? p.victim = some { v with preempted := true }
        ∧ (t.sch.preempt.getD g.val none = none ∨ t.sch.preempt.getD g.val none = some { p with spilling := true }))
  ∧ (∀ (s : State) (g : CoreId) (p : Preempt) (v : Job),
      s.sch.preempt.getD g.val none = some p →
      s.job? p.victim = some v →
      (p.spilling = false ∧ (s.core g.val).pass = none ∧ v.cmds.all (s.atBoundary v) = true) →
      v.cmds.any (fun c => c.stage = .running && opcodeOf c.desc == 2) = true →
      ∃ t, exec (.preemptionSwitch g) s = .next t
        ∧ t.job? p.victim = some { v with preempted := true }
        ∧ t.bit (Reg.WF_STATUS v.core) 31 = false
        ∧ (t.core v.core).lineHeld = [])
  ∧ (∀ (s : State) (g : CoreId) (p : Preempt) (w st a : Nat) (j v : Job),
      let s1 : State := s.setPreempt g.val none
      let l : List (Nat × Nat × Nat) := (((s1.spillDue j).find? fun x => x.1 == v.id).elim [] (·.2)).map fun x => (x.1, x.2, s1.spillPlace v.stall g.val x.1)
      let r : Option (Nat × Nat) × State := spillAll (s1.tagOf v.stall (unitSrc g.val 5)) l s1
      s.sch.preempt.getD g.val none = some p →
      (p.spilling = true ∧ p.winner = some w) →
      (s.job? w = some j ∧ s.job? p.victim = some v) →
      r.1 = some (st, a) →
      ∃ t, exec (.spillComplete g) s = .next t
        ∧ t.sch.preempt.getD g.val none = none
        ∧ (t.job? v.id).map (·.preempted) = some false
        ∧ ((t.job? v.id).map (fun z => z.cmds.any Cmd.inProgress) = some false)
        ∧ r.2.sameMem t)
  ∧ (∀ (s : State) (g : CoreId) (p : Preempt) (w src n : Nat) (j v : Job),
      let s1 : State := s.setPreempt g.val none
      let place : Nat := s1.spillPlace v.stall g.val src
      let tag : Tag := s1.tagOf v.stall (unitSrc g.val 5)
      s.sch.preempt.getD g.val none = some p →
      (p.spilling = true ∧ p.winner = some w) →
      (s.job? w = some j ∧ s.job? p.victim = some v) →
      s1.spillDue j = [(v.id, [(src, n)])] →
      (s1.canRead true tag src n = true ∧ s1.canWrite tag place n = true) →
      (place % 64 = src % 64 ∧ place + n ≤ 0x1000000000 ∧ 0x1000000000 ≤ src ∧ src + n ≤ 0x2000000000) →
      ∃ t, exec (.spillComplete g) s = .next t
        ∧ t.sch.preempt.getD g.val none = none
        ∧ (t.job? v.id).map (·.spilled) = some (v.spilled ++ [(src, n, place)])
        ∧ t.peek place n = s.view src n)
  ∧ (∀ (s : State) (g : CoreId) (id : Nat) (v : Job),
      let s0 : State := if s.rank v = 4 then s.grantSlice g.val else s
      let l : List (Nat × Nat × Nat) := v.spilled.map fun x => (x.2.2, x.2.1, x.1)
      let r : Option (Nat × Nat) × State := spillAll (s0.tagOf v.stall (unitSrc g.val 5)) l s0
      s.job? id = some v →
      (s.schedUp = true ∧ v.preempted = true ∧ v.phase = .placed ∧ v.core = g.val) →
      (s0.jobsOn g.val).any (fun k => s0.rank k < s0.rank v && (s0.eligible k || k.holdsUnits)) = false →
      (s0.rank v != 4 || (s0.sch.slice.getD g.val none).any fun x => x.1 == v.stall) = true →
      (s.sch.preempt.getD g.val none = none ∧ (s.core g.val).testing = false) →
      (s0.sound g.val = true ∧ s0.clusterUp (g.val / 8) = true ∧ unitsFit (s0.unitsUsed g.val) (s0.resumeNeed v) = true) →
      v.decryptSeats.any (s0.seated g.val 3).contains = false →
      r.1.isSome = true →
      ∃ t, exec (.restoreComplete g id) s = .next t
        ∧ (t.job? id).map (·.preempted) = some false
        ∧ ((t.job? id).map (fun z => z.cmds.any Cmd.inProgress) = some false)
        ∧ r.2.sameMem t)
  ∧ (∀ (s : State) (g : CoreId) (id : Nat) (v : Job),
      let s0 : State := if s.rank v = 4 then s.grantSlice g.val else s
      s.job? id = some v →
      (s.schedUp = true ∧ v.preempted = true ∧ v.phase = .placed ∧ v.core = g.val) →
      (s0.jobsOn g.val).any (fun k => s0.rank k < s0.rank v && (s0.eligible k || k.holdsUnits)) = false →
      (s0.rank v != 4 || (s0.sch.slice.getD g.val none).any fun x => x.1 == v.stall) = true →
      (s.sch.preempt.getD g.val none = none ∧ (s.core g.val).testing = false) →
      (s0.sound g.val = true ∧ s0.clusterUp (g.val / 8) = true ∧ unitsFit (s0.unitsUsed g.val) (s0.resumeNeed v) = true) →
      v.decryptSeats.any (s0.seated g.val 3).contains = false →
      v.spilled = [] →
      ∃ t, exec (.restoreComplete g id) s = .next t
        ∧ t.job? id = some { v with preempted := false, cmds := s0.reseat g.val (s0.seated g.val 2) (s0.seated g.val 3 ++ v.decryptSeats) v.cmds }
        ∧ s0.onlyRegs [] t)
  ∧ (∀ (s : State) (g : CoreId) (id src n place : Nat) (v : Job),
      let s0 : State := if s.rank v = 4 then s.grantSlice g.val else s
      let tag : Tag := s0.tagOf v.stall (unitSrc g.val 5)
      s.job? id = some v →
      (s.schedUp = true ∧ v.preempted = true ∧ v.phase = .placed ∧ v.core = g.val) →
      (s0.jobsOn g.val).any (fun k => s0.rank k < s0.rank v && (s0.eligible k || k.holdsUnits)) = false →
      (s0.rank v != 4 || (s0.sch.slice.getD g.val none).any fun x => x.1 == v.stall) = true →
      (s.sch.preempt.getD g.val none = none ∧ (s.core g.val).testing = false) →
      (s0.sound g.val = true ∧ s0.clusterUp (g.val / 8) = true ∧ unitsFit (s0.unitsUsed g.val) (s0.resumeNeed v) = true) →
      v.decryptSeats.any (s0.seated g.val 3).contains = false →
      v.spilled = [(src, n, place)] →
      (s0.canRead true tag place n = true ∧ s0.canWrite tag src n = true) →
      (place % 64 = src % 64 ∧ place + n ≤ 0x1000000000 ∧ boltAddr g.val 0 ≤ src ∧ src + n ≤ boltAddr g.val 0 + 0x400000) →
      ∃ t, exec (.restoreComplete g id) s = .next t
        ∧ ((t.job? id).map (fun z => (z.preempted, z.spilled)) = some (false, []))
        ∧ t.peek src n = s.view place n)
  ∧ (∀ (s : State) (g : CoreId) (steps n k : Nat),
      let s1 : State := (s.updSched fun c => { c with slice := c.slice.set g.val none }).grantSlice g.val
      s.sch.slice.getD g.val none = some (n, k) →
      (s.schedUp = true ∧ k ≤ steps) →
      ((s1.sch.slice.getD g.val none).all fun x => x.1 == n) = true →
      ∃ t, exec (.beSliceEnd ⟨g, steps⟩) s = .next t
        ∧ t = s1)
  ∧ (∀ (s : State) (g : CoreId) (steps n k : Nat),
      s.sch.slice.getD g.val none = some (n, k) →
      steps < k →
      ∃ t, exec (.beSliceEnd ⟨g, steps⟩) s = .next t
        ∧ t = s)

/-! ### Streams, the image pipeline, the hand-over, sensor settings -/

/-- INGEST (R331 to R333, R337 to R341, R359, R362): ENABLE = 1 runs the checks of R331 and enables the context with its counter at 0 and its table read, or leaves it disabled with the error's number; ENABLE = 0 closes the open frame and empties the setting queue; a packet whose header cannot be corrected is counted and discarded, and one that no context takes is counted; a frame start opens the next frame with its capture time, a long packet of the context's data type adds a row or, beyond LINES, marks the frame OVERLONG, a packet without an open frame is reported once, a frame end closes the frame, and so does a time-out; a link error is reported and loses the lanes' sync. That the row brings what the receiver decoded is the model's choice (log entry 78). -/
def Obligations.FramesArrive : Prop :=
  (∀ (s : State) (t : Tag) (n : StreamId) (v : Word),
      let r : Nat := Reg.ING_STR_CTRL n.val
      let c : Nat × List Byte × List Byte × State := ((s.storeReg t.stall.val r (v ||| 0x80000000#32)).setBit r 31 false).checkStream n.val
      s.grants t 0 r (v ||| 0x80000000#32) →
      (s.strOn n.val = false ∧ s.streams.length = 128) →
      c.1 = 0 →
      ∃ u, exec (.streamEnable t n v) s = .next u
        ∧ (u.bit r 31 = true ∧ u.fld r 30 28 = 0)
        ∧ u.rd (Reg.ING_STR_FRAME n.val) = 0#32
        ∧ u.stream n.val = { table := c.2.1, tune := c.2.2.1, tail := (s.stream n.val).tail }
        ∧ u.cmd.jobs = s.cmd.jobs
        ∧ c.2.2.2.sameMem u)
  ∧ (∀ (s : State) (t : Tag) (n : StreamId) (v : Word),
      let r : Nat := Reg.ING_STR_CTRL n.val
      s.grants t 0 r (v &&& ~~~0x80000000#32) →
      (s.strOn n.val = true ∧ s.streams.length = 128) →
      ∃ u, exec (.streamDisable t n v) s = .next u
        ∧ u.bit r 31 = false
        ∧ (u.stream n.val).cur = none
        ∧ (u.stream n.val).queue = []
        ∧ u.fld r 30 0 = s.fld r 30 0)
  ∧ (∀ (s : State) (p : Fin 12),
      (s.phase = .live ∧ s.bit (Reg.ING_CSI_CTRL p.val) 31 = true) →
      ∃ t, exec (.csiLanesLocked p) s = .next t
        ∧ t.bit (Reg.ING_CSI_STATUS p.val) 31 = true
        ∧ s.onlyRegs [Reg.ING_CSI_STATUS p.val] t)
  ∧ (∀ (s : State) (p : Fin 12) (vc : Fin 16),
      (s.phase = .live ∧ s.bit (Reg.ING_CSI_CTRL p.val) 31 = true) →
      ∃ t, exec (.csiFrameStart p vc 2) s = .next t
        ∧ t.fld (Reg.ING_CSI_ERR p.val) 31 16 = min (s.fld (Reg.ING_CSI_ERR p.val) 31 16 + 1) 65535
        ∧ t.streams = s.streams
        ∧ s.onlyRegs [Reg.ING_CSI_ERR p.val] t)
  ∧ (∀ (s : State) (p : Fin 12) (vc : Fin 16) (n k : Nat),
      (s.phase = .live ∧ s.bit (Reg.ING_CSI_CTRL p.val) 31 = true) →
      (s.csiStreams p.val vc.val = [(n, 0)] ∧ s.streams.length = 128) →
      k ≠ n →
      ((s.stream n).cur = none ∧ (s.stream n).lastStart = none ∧ s.isp.copy = none ∧ s.isp.run = none) →
      ∃ t, exec (.csiFrameStart p vc 0) s = .next t
        ∧ t.rd (Reg.ING_STR_FRAME n) = s.rd (Reg.ING_STR_FRAME n) + 1#32
        ∧ (t.stream n).cur.map (·.frame) = some ((s.frameCount n + 1) % 2 ^ 32)
        ∧ ((t.stream n).cur.map (·.capture) = some (s.capture 5 0) ∧ (t.stream n).cur.map (·.got) = some 0)
        ∧ (t.stream n).lastStart = some s.refNs
        ∧ t.stream k = s.stream k)
  ∧ (∀ (s : State) (p : Fin 12) (vc : Fin 16) (dt : BitVec 6) (codes : List Nat) (n e k : Nat) (f : InFrame),
      (s.phase = .live ∧ s.bit (Reg.ING_CSI_CTRL p.val) 31 = true) →
      (s.csiStreams p.val vc.val = [(n, e)] ∧ s.streams.length = 128) →
      k ≠ n →
      ((s.stream n).cur = some f ∧ dt ≠ 0x12#6 ∧ s.strDt n = dt.toNat ∧ s.strStagger n ≠ 1) →
      f.rows.getD e 0 < s.strLines n →
      ∃ t, exec (.csiLongPacket p vc dt 0 codes true) s = .next t
        ∧ ((t.stream n).cur.map (·.got) = some (f.got + 1) ∧ (t.stream n).cur.map (·.last) = some s.refNs)
        ∧ (t.stream n).cur.map (·.rows) = some (updAt (· + 1) e f.rows)
        ∧ ((t.stream n).cur.map (·.flags) = some (f.flags ||| (if codes.length < s.strWidth n then 1 else if s.strWidth n < codes.length then 2 else 0)))
        ∧ t.stream k = s.stream k)
  ∧ (∀ (s : State) (p : Fin 12) (vc : Fin 16) (n : Nat),
      (s.phase = .live ∧ s.bit (Reg.ING_CSI_CTRL p.val) 31 = true) →
      (s.csiStreams p.val vc.val = [(n, 0)] ∧ s.streams.length = 128) →
      ((s.stream n).cur = none ∧ (s.stream n).ignoring = false ∧ (s.stream n).noStart = false) →
      s.strDt n ≠ 0x12 →
      ∃ t, exec (.csiLongPacket p vc (BitVec.ofNat 6 (s.strDt n)) 0 [] true) s = .next t
        ∧ s.tells t (0x130 + p.val) Kind.FRAME_NO_START (s.strStall n) (strAddr n (s.frameCount n))
        ∧ ((t.stream n).noStart = true ∧ (t.stream n).cur = none)
        ∧ s.onlyRegs [] t)
  ∧ (∀ (s : State) (p : Fin 12) (vc : Fin 16) (n e k : Nat) (f : InFrame),
      (s.phase = .live ∧ s.bit (Reg.ING_CSI_CTRL p.val) 31 = true) →
      (s.csiStreams p.val vc.val = [(n, e)] ∧ s.streams.length = 128) →
      k ≠ n →
      ((s.stream n).cur = some f ∧ s.strStagger n ≠ 2) →
      ∃ t, exec (.csiFrameEnd p vc 0) s = .next t
        ∧ (t.stream n).cur = none
        ∧ t.stream k = s.stream k)
  ∧ (∀ (s : State) (p : Fin 12) (lane : Fin 4) (lost : Bool),
      (s.phase = .live ∧ s.bit (Reg.ING_CSI_CTRL p.val) 31 = true) →
      ∃ t, exec (.csiLinkError p lane lost) s = .next t
        ∧ s.tells t (0x130 + p.val) Kind.CSI_LINK_ERROR 0 lane.val
        ∧ t.bit (Reg.ING_CSI_STATUS p.val) 31 = (s.bit (Reg.ING_CSI_STATUS p.val) 31 && !lost)
        ∧ s.onlyRegs [Reg.ING_CSI_STATUS p.val] t)
  ∧ (∀ (s : State) (n : StreamId) (f : InFrame),
      (s.stream n.val).cur = some f →
      f.last + s.strPeriod n.val ≤ s.refNs →
      ∃ t, exec (.frameTimeout n) s = .next t
        ∧ (t.stream n.val).cur = none
        ∧ t.refNs = s.refNs)
  ∧ (∀ (s : State) (t : Tag) (n : StreamId) (v : Word),
      let r : Nat := Reg.ING_STR_CTRL n.val
      let c : Nat × List Byte × List Byte × State := ((s.storeReg t.stall.val r (v ||| 0x80000000#32)).setBit r 31 false).checkStream n.val
      s.grants t 0 r (v ||| 0x80000000#32) →
      (s.strOn n.val = false ∧ s.streams.length = 128) →
      c.1 ≠ 0 →
      ∃ u, exec (.streamEnable t n v) s = .next u
        ∧ (u.bit r 31 = false ∧ u.fld r 30 28 = c.1 % 8)
        ∧ u.stream n.val = s.stream n.val
        ∧ u.cmd.jobs = s.cmd.jobs
        ∧ c.2.2.2.sameMem u)
  ∧ (∀ (s : State) (t : Tag) (n : StreamId) (v : Word),
      let r : Nat := Reg.ING_STR_CTRL n.val
      s.grants t 0 r (v ||| 0x80000000#32) →
      (s.strOn n.val = false ∧ s.streams.length = 128) →
      (s.rd (Reg.ING_STR_PERIOD n.val)).toNat < 100 →
      ∃ u, exec (.streamEnable t n v) s = .next u
        ∧ (u.bit r 31 = false ∧ u.fld r 30 28 = 1)
        ∧ u.stream n.val = s.stream n.val
        ∧ s.onlyRegs [r] u)
  ∧ (∀ (s : State) (t : Tag) (n : StreamId) (v : Word),
      let r : Nat := Reg.ING_STR_CTRL n.val
      s.grants t 0 r (v &&& ~~~0x80000000#32) →
      (s.strOn n.val = true ∧ s.streams.length = 128) →
      (s.stream n.val).cur = none →
      ∃ u, exec (.streamDisable t n v) s = .next u
        ∧ u.bit r 31 = false
        ∧ (u.stream n.val).cur = none
        ∧ (u.stream n.val).queue = []
        ∧ s.onlyRegs [r] u)
  ∧ (∀ (s : State) (p : Fin 12),
      (s.phase ≠ .live ∨ s.bit (Reg.ING_CSI_CTRL p.val) 31 = false) →
      ∃ t, exec (.csiLanesLocked p) s = .next t
        ∧ t = s)
  ∧ (∀ (s : State) (p : Fin 12) (vc : Fin 16) (e : Fin 2),
      (s.phase = .live ∧ s.bit (Reg.ING_CSI_CTRL p.val) 31 = true) →
      s.csiStreams p.val vc.val = [] →
      ∃ t, exec (.csiFrameStart p vc (Fin.castLE (by decide) e)) s = .next t
        ∧ (t.rd (Reg.ING_CSI_UNMAPPED p.val)).toNat = min ((s.rd (Reg.ING_CSI_UNMAPPED p.val)).toNat + 1) (2 ^ 32 - 1)
        ∧ (t.rd (Reg.ING_CSI_ECC_CE p.val)).toNat = min ((s.rd (Reg.ING_CSI_ECC_CE p.val)).toNat + e.val) (2 ^ 32 - 1)
        ∧ t.streams = s.streams
        ∧ s.onlyRegs [Reg.ING_CSI_UNMAPPED p.val, Reg.ING_CSI_ECC_CE p.val] t)
  ∧ (∀ (s : State) (p : Fin 12) (vc : Fin 16) (dt : BitVec 6) (codes : List Nat) (n e k : Nat) (f : InFrame),
      (s.phase = .live ∧ s.bit (Reg.ING_CSI_CTRL p.val) 31 = true) →
      (s.csiStreams p.val vc.val = [(n, e)] ∧ s.streams.length = 128) →
      k ≠ n →
      ((s.stream n).cur = some f ∧ dt ≠ 0x12#6 ∧ s.strDt n = dt.toNat ∧ s.strStagger n ≠ 1) →
      s.strLines n ≤ f.rows.getD e 0 →
      ∃ t, exec (.csiLongPacket p vc dt 0 codes true) s = .next t
        ∧ ((t.stream n).cur.map (·.got) = some (f.got + 1) ∧ (t.stream n).cur.map (·.last) = some s.refNs)
        ∧ (t.stream n).cur.map (·.rows) = some (updAt (· + 1) e f.rows)
        ∧ (t.stream n).cur.map (·.flags) = some (f.flags ||| 2)
        ∧ s.onlyRegs [] t
        ∧ t.stream k = s.stream k)
  ∧ (∀ (s : State) (p : Fin 12) (vc : Fin 16) (n : Nat),
      (s.phase = .live ∧ s.bit (Reg.ING_CSI_CTRL p.val) 31 = true) →
      (s.csiStreams p.val vc.val = [(n, 0)] ∧ s.streams.length = 128) →
      ((s.stream n).cur = none ∧ (s.stream n).ignoring = false ∧ (s.stream n).noStart = false) →
      s.strStagger n ≠ 2 →
      ∃ t, exec (.csiFrameEnd p vc 0) s = .next t
        ∧ s.tells t (0x130 + p.val) Kind.FRAME_NO_START (s.strStall n) (strAddr n (s.frameCount n))
        ∧ ((t.stream n).noStart = false ∧ (t.stream n).cur = none)
        ∧ s.onlyRegs [] t)
  ∧ (∀ (s : State) (n : StreamId) (f : InFrame),
      (s.stream n.val).cur = some f →
      s.refNs < f.last + s.strPeriod n.val →
      ∃ t, exec (.frameTimeout n) s = .next t
        ∧ t = s)

/-- PIPELINE, HAND-OVER, SETTINGS (R334 to R336, R348 to R350, R355 to R357): the pipeline takes the raw frame that was complete first, runs it once more where its lanes disagree, and at its end counts the frame, or drops it where its data cannot be read; the hand-over engine takes the frame of the first stream that may publish, and at the end of the copy the stream shows the frame as its last and every graph sees it, or a failed copy drops it; a due setting puts its first record on its free bus, and each record done brings the next; a record refused is sent once more and reported. -/
def Obligations.FramesAreProcessed : Prop :=
  (∀ (s : State) (n : Nat) (rest : List Nat) (f : InFrame) (more : List InFrame),
      (s.phase = .live ∧ s.isp.run = none ∧ s.isp.order = n :: rest) →
      (s.stream n).raws = f :: more →
      s.isp.copy.any (fun c => c.1 == n && c.2.frame % 2 == f.frame % 2) = false →
      ∃ t, exec (.ispFrameStart) s = .next t
        ∧ (t.isp.run = some (n, f, false) ∧ t.isp.order = rest)
        ∧ (t.stream n).raws = more
        ∧ s.onlyRegs [] t)
  ∧ (∀ (s : State) (n : Nat) (f : InFrame),
      s.isp.run = some (n, f, false) →
      ∃ t, exec (.ispFrameComplete false true) s = .next t
        ∧ (t = s.updIsp fun i => { i with run := some (n, f, true) }))
  ∧ (∀ (s : State) (n : Nat) (f : InFrame),
      let s1 : State := s.updIsp fun i => { i with run := none }
      let s2 : State := (runOn (readRaw n f) s1).2
      (s.isp.run = some (n, f, false) ∧ n < 128) →
      ((okOf (readRaw n f) s1).isSome = true ∧ (okOf (readStatic (s2.ispTag n) f.tune) s2).isSome = true) →
      ∃ t, exec (.ispFrameComplete false false) s = .next t
        ∧ t.isp.run = none
        ∧ t.rd Reg.ISP_FRAMES = s.rd Reg.ISP_FRAMES + 1#32)
  ∧ (∀ (s : State) (f : InFrame) (d : Bool),
      let n : Nat := s.fld Reg.ISP_INLINE 6 0
      (s.stream n).inl = some f →
      (okOf (readStatic (s.ispTag n) f.tune) s).isSome = true →
      ∃ t, exec (.ispFrameComplete true d) s = .next t
        ∧ (t.stream n).inl = none
        ∧ t.rd Reg.ISP_FRAMES = s.rd Reg.ISP_FRAMES + 1#32)
  ∧ (∀ (s : State) (n : StreamId) (f : InFrame) (more : List InFrame),
      (s.stream n.val).done = f :: more →
      (s.phase = .live ∧ s.isp.copy = none) →
      (s.isp.hand.find? fun k => !(s.stream k).done.isEmpty && !s.heldStream k) = some n.val →
      ∃ t, exec (.handoverStart n) s = .next t
        ∧ (t.isp.copy.map (fun x => (x.1, x.2.frame)) = some (n.val, f.frame))
        ∧ ((t.stream n.val).done = more ∧ t.isp.hand = s.isp.hand.erase n.val)
        ∧ t.cmd.jobs = s.cmd.jobs)
  ∧ (∀ (s : State) (n : StreamId) (f : InFrame),
      let s1 : State := s.updIsp fun i => { i with copy := none }
      let l : List (Nat × Nat × Nat) := s1.handBufs n.val f
      s.isp.copy = some (n.val, f) →
      (okOf (eachDo (handOver (s1.ingTag n.val)) l) s1 = some () ∧ f.bad = false) →
      ∃ t, exec (.handoverComplete n) s = .next t
        ∧ t.isp.copy = none
        ∧ (t.fld (Reg.ING_STR_LAST n.val) 31 16 = f.frame % 65536 ∧ t.fld (Reg.ING_STR_LAST n.val) 15 0 = f.got % 65536))
  ∧ (∀ (s : State) (n : StreamId) (y : Setting) (w : Nat × Nat × Nat) (rest : List (Nat × Nat × Nat)),
      (s.phase = .live ∧ s.streams.length = 128) →
      ((s.stream n.val).settings.find? Setting.due = some y ∧ y.writes = w :: rest) →
      ((List.range 128).any fun k => s.strCtrl k == s.strCtrl n.val && (s.stream k).settings.any Setting.busy) = false →
      s.issuesFirst n.val = true →
      ∃ t, exec (.settingIssue n) s = .next t
        ∧ t.out = s.out ++ [.bus (s.strCtrl n.val) (s.fld (Reg.ING_STR_SENSOR n.val) 22 16) (s.busBytes n.val w)]
        ∧ (t.stream n.val).settings.find? Setting.busy = some { y with phase := .onBus 0 }
        ∧ s.onlyRegs [] t)
  ∧ (∀ (s : State) (n : StreamId) (y : Setting) (k : Nat),
      s.streams.length = 128 →
      ((s.stream n.val).settings.find? Setting.busy = some y ∧ y.phase = .onBus k) →
      k + 1 < y.writes.length →
      ∃ t, exec (.sensorBusDone n true) s = .next t
        ∧ t.out = s.out ++ [.bus (s.strCtrl n.val) (s.fld (Reg.ING_STR_SENSOR n.val) 22 16) (s.busBytes n.val (y.writes.getD (k + 1) (0, 1, 0)))]
        ∧ (t.stream n.val).settings.find? Setting.busy = some { y with phase := .onBus (k + 1) }
        ∧ s.onlyRegs [] t)
  ∧ (∀ (s : State) (n : StreamId) (y : Setting) (k : Nat),
      let w : Nat × Nat × Nat := y.writes.getD k (0, 1, 0)
      s.streams.length = 128 →
      ((s.stream n.val).settings.find? Setting.busy = some y ∧ y.phase = .onBus k) →
      y.writes.length ≤ k + 1 →
      ∃ t, exec (.sensorBusDone n false) s = .next t
        ∧ t.out = s.out ++ [.bus (s.strCtrl n.val) (s.fld (Reg.ING_STR_SENSOR n.val) 22 16) (s.busBytes n.val w)]
        ∧ s.tells t 0x121 Kind.SENSOR_BUS_ERROR (s.strStall n.val) (s.strCtrl n.val * 2 ^ 36 + s.fld (Reg.ING_STR_SENSOR n.val) 22 16 * 2 ^ 16 + w.1)
        ∧ s.onlyRegs [] t)
  ∧ (∀ (s : State) (n : StreamId) (y : Setting) (k : Nat),
      s.streams.length = 128 →
      ((s.stream n.val).settings.find? Setting.busy = some y ∧ y.phase = .onBus k) →
      y.writes.length ≤ k + 1 →
      ∃ t, exec (.sensorBusDone n true) s = .next t
        ∧ t.out = s.out
        ∧ s.onlyRegs [] t)
  ∧ (∀ (s : State) (n : StreamId) (y : Setting) (k : Nat),
      let w : Nat × Nat × Nat := y.writes.getD k (0, 1, 0)
      s.streams.length = 128 →
      ((s.stream n.val).settings.find? Setting.busy = some y ∧ y.phase = .onBus k) →
      k + 1 < y.writes.length →
      ∃ t, exec (.sensorBusDone n false) s = .next t
        ∧ t.out = s.out ++ [.bus (s.strCtrl n.val) (s.fld (Reg.ING_STR_SENSOR n.val) 22 16) (s.busBytes n.val w), .bus (s.strCtrl n.val) (s.fld (Reg.ING_STR_SENSOR n.val) 22 16) (s.busBytes n.val (y.writes.getD (k + 1) (0, 1, 0)))]
        ∧ (t.stream n.val).settings.find? Setting.busy = some { y with failed := true, phase := .onBus (k + 1) }
        ∧ s.tells t 0x121 Kind.SENSOR_BUS_ERROR (s.strStall n.val) (s.strCtrl n.val * 2 ^ 36 + s.fld (Reg.ING_STR_SENSOR n.val) 22 16 * 2 ^ 16 + w.1)
        ∧ s.onlyRegs [] t)
  ∧ (∀ (s : State) (n : StreamId) (f : InFrame),
      let s1 : State := s.updIsp fun i => { i with copy := none }
      let l : List (Nat × Nat × Nat) := s1.handBufs n.val f
      s.isp.copy = some (n.val, f) →
      (okOf (eachDo (handOver (s1.ingTag n.val)) l) s1 = none ∨ f.bad = true) →
      ∃ t, exec (.handoverComplete n) s = .next t
        ∧ t.isp.copy = none
        ∧ (t.rd (Reg.ING_STR_DROPPED n.val)).toNat = min ((s.rd (Reg.ING_STR_DROPPED n.val)).toNat + 1) (2 ^ 32 - 1))
  ∧ (∀ (s : State) (n : StreamId) (f : InFrame) (a b len : Nat),
      let tag : Tag := s.ingTag n.val
      let m : Nat := roundUp len 64 + 32
      (s.isp.copy = some (n.val, f) ∧ f.bad = false) →
      s.handBufs n.val f = [(a, b, len)] →
      (s.canRead false tag a len = true ∧ s.canRead false tag (selvageAt a len) 32 = true) →
      (s.canWrite tag b len = true ∧ s.canWrite tag (selvageAt b len) 32 = true) →
      ((a + m ≤ b ∨ b + m ≤ a) ∧ a + m ≤ 0x1020000000 ∧ b + m ≤ 0x1020000000) →
      ∃ t, exec (.handoverComplete n) s = .next t
        ∧ t.isp.copy = none
        ∧ (t.fld (Reg.ING_STR_LAST n.val) 31 16 = f.frame % 65536 ∧ t.fld (Reg.ING_STR_LAST n.val) 15 0 = f.got % 65536)
        ∧ t.peek b len = s.peek a len
        ∧ t.peek (selvageAt b len) 32 = s.peek (selvageAt a len) 32)
  ∧ (∀ (s : State) (n : Nat) (f : InFrame),
      let s1 : State := s.updIsp fun i => { i with run := none }
      (s.isp.run = some (n, f, false) ∧ n < 128) →
      okOf (readRaw n f) s1 = none →
      ∃ t, exec (.ispFrameComplete false false) s = .next t
        ∧ t.isp.run = none
        ∧ (t.rd (Reg.ING_STR_DROPPED n)).toNat = min ((s.rd (Reg.ING_STR_DROPPED n)).toNat + 1) (2 ^ 32 - 1))

/-! ### Ethernet ports and Bilvan links -/

/-- ETHERNET (R386 to R389, R394): a launch time reached makes its queue's first frame eligible, or drops it while the link is down; a port sends the first eligible frame of its highest queue that is on time, else what its control queue holds, and the management port a fault frame first; a frame of a wrong length or FCS is counted and dropped, one not addressed to the port or of a reserved type is counted, 802.1X goes to the management FIFO, an ARP request for the port's own address is answered; a link that goes down is reported; POP removes the oldest management frame and SEND queues one of 60 to 508 bytes. The formats of FCS and ARP are the model's presumption (log entry 80). -/
def Obligations.EthernetPorts : Prop :=
  (∀ (s : State) (p : Fin 2) (q : Fin 8) (x : TxFrame) (rest : List TxFrame),
      s.txQueue p.val q.val = x :: rest →
      (x.launch.isSome = true ∧ x.due = false ∧ s.phase = .live ∧ s.actionDue (x.launch.getD 0) (s.launchAdvance p.val) = true) →
      s.portUp p.val = true →
      ∃ t, exec (.launchTimeReached p q) s = .next t
        ∧ t.txQueue p.val q.val = { x with due := true } :: rest
        ∧ t.out = s.out
        ∧ s.onlyRegs [] t)
  ∧ (∀ (s : State) (p : PortId) (q : Nat) (qs : List Nat) (x : TxFrame) (rest : List TxFrame),
      (p.val < 2 ∧ s.portUp p.val = true ∧ s.macsecOn p.val = false) →
      (s.dueQueues p.val = q :: qs ∧ s.txQueue p.val q = x :: rest) →
      (x.late = false ∧ s.actionPast (x.launch.getD 0) (s.launchAdvance p.val) ≤ (s.rd (Reg.ETH_LATE_NS p.val)).toNat * nsUnit) →
      ∃ t, exec (.ethTxFrameStart p) s = .next t
        ∧ t.out = s.out ++ [.frame p.val x.bytes]
        ∧ t.txQueue p.val q = rest
        ∧ s.sameMem t)
  ∧ (∀ (s : State) (p : PortId) (f : List Byte),
      (s.portUp p.val = true ∧ s.macsecOn p.val = false) →
      (p.val < 2 ∧ s.dueQueues p.val = []) →
      (s.ethPort p.val).ctrl.find? (s.ctlAble p.val) = some (.reply f) →
      ∃ t, exec (.ethTxFrameStart p) s = .next t
        ∧ t.out = s.out ++ [.frame p.val f]
        ∧ (t.ethPort p.val).ctrl = (s.ethPort p.val).ctrl.erase (.reply f))
  ∧ (∀ (s : State) (mac : Nat) (dst : HostAddr) (port : Nat) (udp : List Byte),
      s.portUp 2 = true →
      (s.ethPort 2).ctrl.find? CtlFrame.isFault = some (.fault mac dst port udp) →
      ∃ t, exec (.ethTxFrameStart 2) s = .next t
        ∧ t.out = s.out ++ [.fault mac dst port udp]
        ∧ (t.ethPort 2).ctrl = (s.ethPort 2).ctrl.erase (.fault mac dst port udp)
        ∧ s.onlyRegs [Reg.ETH_TX_FRAMES 2, Reg.ETH_TX_FRAMES 2 + 4] t)
  ∧ (∀ (s : State) (p : PortId) (up : Bool),
      let c : Nat := Reg.ETH_PORT_CTRL p.val
      (s.phase = .live ∧ s.bit c 31 = true) →
      (s.bit c 30 = true ∧ up = false) →
      ∃ t, exec (.ethLinkChange p up) s = .next t
        ∧ t.bit c 30 = false
        ∧ s.tells t (0x140 + p.val) Kind.ETH_LINK_DOWN 0 0
        ∧ s.onlyRegs [c, Reg.ETH_LAUNCH_LATE p.val] t)
  ∧ (∀ (s : State) (p : PortId) (frame : List Byte),
      let f : List Byte := frame.take (frame.length - 4)
      s.portUp p.val = true →
      (frame.length < 64 ∨ s.fld (Reg.ETH_PORT_CTRL p.val) 13 0 < frame.length ∨ le frame (frame.length - 4) 4 ≠ fcsOf f) →
      ∃ t, exec (.ethFrameReceive p frame) s = .next t
        ∧ t.fld (Reg.ETH_RX_DROP p.val) 31 16 = min (s.fld (Reg.ETH_RX_DROP p.val) 31 16 + 1) 65535
        ∧ t.eth = s.eth
        ∧ s.onlyRegs [Reg.ETH_RX_DROP p.val] t)
  ∧ (∀ (s : State) (p : PortId) (f : List Byte) (crc : List Byte),
      (s.portUp p.val = true ∧ s.macsecOn p.val = false) →
      (60 ≤ f.length ∧ f.length + 4 ≤ s.fld (Reg.ETH_PORT_CTRL p.val) 13 0 ∧ crc.length = 4 ∧ le crc 0 4 = fcsOf f) →
      s.rd64 (Reg.ETH_RX_FRAMES p.val) + 1 < 2 ^ 64 →
      (s.addressed p.val (destMac f) = false ∨ etherType f = 0x8808) →
      ∃ t, exec (.ethFrameReceive p (f ++ crc)) s = .next t
        ∧ t.rd64 (Reg.ETH_RX_FRAMES p.val) = s.rd64 (Reg.ETH_RX_FRAMES p.val) + 1
        ∧ t.fld (Reg.ETH_RX_DROP p.val) 15 0 = min (s.fld (Reg.ETH_RX_DROP p.val) 15 0 + 1) 65535
        ∧ (t.eth = s.eth ∧ t.out = s.out))
  ∧ (∀ (s : State) (t : Tag) (p : PortId) (v : Word),
      s.grants t 0 (Reg.ETH_MGMT_RX_STATUS p.val) (v ||| 0x40000000#32) →
      ∃ u, exec (.mgmtRxPop t p v) s = .next u
        ∧ (u.ethPort p.val).rx = (s.ethPort p.val).rx.tail
        ∧ s.onlyRegs [] u)
  ∧ (∀ (s : State) (t : Tag) (p : PortId) (v : Word),
      let c : Nat := Reg.ETH_MGMT_TX_CTRL p.val
      let n : Nat := bits v.toNat 9 0
      let buf : List Byte := leBytes 512 (s.rdN (Reg.ETH_MGMT_TX_DATA p.val 0) 128)
      s.grants t 0 c (v ||| 0x80000000#32) →
      s.eth.length = 3 →
      (s.bit c 31 = false ∧ 60 ≤ n ∧ n ≤ 508) →
      ∃ u, exec (.mgmtTxSend t p v) s = .next u
        ∧ (u.ethPort p.val).ctrl = (s.ethPort p.val).ctrl ++ [.mgmt (buf.take n)]
        ∧ u.bit c 31 = true
        ∧ s.onlyRegs [c] u)
  ∧ (∀ (s : State) (p : Fin 2) (q : Fin 8) (x : TxFrame) (rest : List TxFrame),
      s.txQueue p.val q.val = x :: rest →
      (x.launch.isSome = true ∧ x.due = false ∧ s.phase = .live ∧ s.actionDue (x.launch.getD 0) (s.launchAdvance p.val) = true) →
      s.portUp p.val = false →
      ∃ t, exec (.launchTimeReached p q) s = .next t
        ∧ (t.txQueue p.val q.val).length ≤ rest.length
        ∧ t.out = s.out
        ∧ s.onlyRegs [Reg.ETH_LAUNCH_LATE p.val] t)
  ∧ (∀ (s : State) (p : PortId) (q : Nat) (qs : List Nat) (x : TxFrame) (rest : List TxFrame),
      (p.val < 2 ∧ s.portUp p.val = true ∧ s.macsecOn p.val = false) →
      (s.dueQueues p.val = q :: qs ∧ s.txQueue p.val q = x :: rest) →
      (x.late = false ∧ s.actionPast (x.launch.getD 0) (s.launchAdvance p.val) ≤ (s.rd (Reg.ETH_LATE_NS p.val)).toNat * nsUnit) →
      etherType x.bytes ≠ 0x88F7 →
      ∃ t, exec (.ethTxFrameStart p) s = .next t
        ∧ s.onlyRegs [Reg.ETH_TX_FRAMES p.val, Reg.ETH_TX_FRAMES p.val + 4] t)
  ∧ (∀ (s : State) (p : PortId) (f : List Byte),
      (s.portUp p.val = true ∧ s.macsecOn p.val = false) →
      (p.val < 2 ∧ s.dueQueues p.val = []) →
      (s.ethPort p.val).ctrl.find? (s.ctlAble p.val) = some (.reply f) →
      etherType f ≠ 0x88F7 →
      ∃ t, exec (.ethTxFrameStart p) s = .next t
        ∧ s.onlyRegs [Reg.ETH_TX_FRAMES p.val, Reg.ETH_TX_FRAMES p.val + 4] t)
  ∧ (∀ (s : State) (p : PortId) (up : Bool),
      let c : Nat := Reg.ETH_PORT_CTRL p.val
      (s.phase = .live ∧ s.bit c 31 = true) →
      (s.bit c 30 = false ∧ up = true) →
      ∃ t, exec (.ethLinkChange p up) s = .next t
        ∧ t.bit c 30 = true
        ∧ t.eth = s.eth
        ∧ s.onlyRegs [c] t)
  ∧ (∀ (s : State) (p : PortId) (up : Bool),
      let c : Nat := Reg.ETH_PORT_CTRL p.val
      (s.phase = .live ∧ s.bit c 31 = true) →
      s.bit c 30 = up →
      ∃ t, exec (.ethLinkChange p up) s = .next t
        ∧ t = s)
  ∧ (∀ (s : State) (p : PortId) (f : List Byte) (crc : List Byte),
      (s.portUp p.val = true ∧ s.macsecOn p.val = false) →
      (60 ≤ f.length ∧ f.length + 4 ≤ s.fld (Reg.ETH_PORT_CTRL p.val) 13 0 ∧ crc.length = 4 ∧ le crc 0 4 = fcsOf f) →
      s.rd64 (Reg.ETH_RX_FRAMES p.val) + 1 < 2 ^ 64 →
      (s.addressed p.val (destMac f) = true ∧ etherType f = 0x888E ∧ f.length ≤ 512) →
      ((s.ethPort p.val).rx.length < 16 ∧ s.eth.length = 3) →
      ∃ t, exec (.ethFrameReceive p (f ++ crc)) s = .next t
        ∧ (t.ethPort p.val).rx = (s.ethPort p.val).rx ++ [f])
  ∧ (∀ (s : State) (p : PortId) (f : List Byte) (crc : List Byte),
      (s.portUp p.val = true ∧ s.macsecOn p.val = false) →
      (60 ≤ f.length ∧ f.length + 4 ≤ s.fld (Reg.ETH_PORT_CTRL p.val) 13 0 ∧ crc.length = 4 ∧ le crc 0 4 = fcsOf f) →
      s.rd64 (Reg.ETH_RX_FRAMES p.val) + 1 < 2 ^ 64 →
      (s.addressed p.val (destMac f) = true ∧ s.isArp p.val f = true ∧ s.eth.length = 3) →
      ∃ t, exec (.ethFrameReceive p (f ++ crc)) s = .next t
        ∧ (t.ethPort p.val).ctrl = (s.ethPort p.val).ctrl ++ [.reply (s.arpReply p.val f ++ List.replicate (60 - (s.arpReply p.val f).length) 0#8)])
  ∧ (∀ (s : State) (t : Tag) (p : PortId) (v : Word),
      let c : Nat := Reg.ETH_MGMT_TX_CTRL p.val
      let n : Nat := bits v.toNat 9 0
      s.grants t 0 c (v ||| 0x80000000#32) →
      s.eth.length = 3 →
      (s.bit c 31 = false ∧ (n < 60 ∨ 508 < n)) →
      ∃ u, exec (.mgmtTxSend t p v) s = .next u
        ∧ u.eth = s.eth
        ∧ u.bit c 31 = false
        ∧ s.onlyRegs [c] u)
  ∧ (∀ (s : State) (t : Tag) (p : PortId) (v : Word),
      let c : Nat := Reg.ETH_MGMT_TX_CTRL p.val
      s.grants t 0 c (v ||| 0x80000000#32) →
      s.eth.length = 3 →
      s.bit c 31 = true →
      ∃ u, exec (.mgmtTxSend t p v) s = .next u
        ∧ u.eth = s.eth
        ∧ s.onlyRegs [] u)

/-- BILVAN (R283, R522 to R534): ENABLE starts training and ENABLE = 0 takes the link down; training that passes the checks of R526 brings the link up with its lanes, partner and version, and a failed one shows its number, is reported when new and tried again after 100 ms; a bad packet is counted and draws a NAK, the next in sequence takes effect and is acknowledged, an early one draws a NAK, a repeated one is discarded; unacknowledged packets are sent again after 2 us of silence and after 8 sendings the link goes down, as it does after 16 us without the partner; a read of BIL_PEER_FAULT removes the oldest forwarded record. The order of packets of one link and the level sent at link-up are the model's inferences (log entries 85 and 86). -/
def Obligations.BilvanLinks : Prop :=
  (∀ (s : State) (t : Tag) (p : PortId) (v : Word),
      let c : Nat := Reg.BIL_PORT_CTRL p.val
      s.grants t 0 c (v ||| 0x80000000#32) →
      s.bil.length = 3 →
      s.bit c 31 = false →
      ∃ u, exec (.bilPortEnable t p v) s = .next u
        ∧ u.bit c 31 = true
        ∧ ((u.bilPort p.val).training = true ∧ (u.bilPort p.val).retryAt = none)
        ∧ s.onlyRegs [c] u)
  ∧ (∀ (s : State) (t : Tag) (p : PortId) (v : Word),
      let c : Nat := Reg.BIL_PORT_CTRL p.val
      s.grants t 0 c (v &&& ~~~0x80000000#32) →
      (s.bit c 31 = true ∧ s.bit c 30 = true ∧ s.bil.length = 3) →
      ∃ u, exec (.bilPortDisable t p v) s = .next u
        ∧ (u.bit c 31 = false ∧ u.bit c 30 = false ∧ u.rd (Reg.BIL_PORT_STATUS p.val) = 0#32)
        ∧ ((u.bilPort p.val).queue = [] ∧ (u.bilPort p.val).sent = [] ∧ (u.bilPort p.val).training = false)
        ∧ s.onlyRegs [c, Reg.BIL_PORT_STATUS p.val] u)
  ∧ (∀ (s : State) (p : PortId) (r : TrainResult),
      let e : Nat := s.trainErr p.val r
      (s.bilPort p.val).training = true →
      e ≠ 0 →
      (s.bilPort p.val).lastErr ≠ e →
      ∃ t, exec (.bilTrainingDone p r) s = .next t
        ∧ t.fld (Reg.BIL_PORT_STATUS p.val) 3 0 = e
        ∧ ((t.bilPort p.val).training = false ∧ (t.bilPort p.val).retryAt = some (s.refNs + 100000000) ∧ (t.bilPort p.val).lastErr = e)
        ∧ s.onlyRegs [Reg.BIL_PORT_STATUS p.val] t
        ∧ (s.tells t (0x150 + p.val) Kind.BIL_TRAIN_FAIL 0 (e + (if 3 ≤ e then r.dev.val * 2 ^ 8 + r.port.val * 2 ^ 12 else 0))))
  ∧ (∀ (s : State) (p : PortId) (r : TrainResult),
      let c : Nat := Reg.BIL_PORT_CTRL p.val
      let n : Nat := laneCount r.locked
      let hi : Nat := s.fld Reg.BIL_VERSION 15 8
      (s.bilPort p.val).training = true →
      s.trainErr p.val r = 0 →
      ∃ t, exec (.bilTrainingDone p r) s = .next t
        ∧ (t.bit c 30 = true ∧ t.fld c 26 24 = (if n = 4 then 4 else 2) ∧ t.fld c 17 16 = r.dev.val ∧ t.fld c 7 0 = min hi r.maxVer.toNat)
        ∧ t.fld (Reg.BIL_PORT_STATUS p.val) 3 0 = 0
        ∧ (t.bit (Reg.BIL_PORT_STATUS p.val) 31 = (List.range 7).all (fun i => r.images.getD i 0 == s.rd (Reg.FW_IMAGE i)))
        ∧ ((t.bilPort p.val).training = false ∧ (t.bilPort p.val).expect = 0 ∧ (t.bilPort p.val).lastErr = 0 ∧ (t.bilPort p.val).heard = s.refNs)
        ∧ s.onlyRegs [c, Reg.BIL_PORT_STATUS p.val] t)
  ∧ (∀ (s : State) (p : PortId) (d : Nat),
      (s.bilPort p.val).retryAt = some d →
      (d ≤ s.refNs ∧ s.bit (Reg.BIL_PORT_CTRL p.val) 31 = true) →
      ∃ t, exec (.bilTrainRetry p) s = .next t
        ∧ ((t.bilPort p.val).training = true ∧ (t.bilPort p.val).retryAt = none)
        ∧ s.onlyRegs [] t)
  ∧ (∀ (s : State) (p : PortId),
      s.bilUp p.val = true →
      ∃ t, exec (.bilPacketReceive p .bad) s = .next t
        ∧ t.out = s.out ++ [.link p.val .nak]
        ∧ (t.rd (Reg.BIL_CRC_ERR p.val)).toNat = min ((s.rd (Reg.BIL_CRC_ERR p.val)).toNat + 1) (2 ^ 32 - 1)
        ∧ s.onlyRegs [Reg.BIL_CRC_ERR p.val] t)
  ∧ (∀ (s : State) (p : PortId) (seq : BitVec 12) (m : BilMsg),
      let e : Nat := (s.bilPort p.val).expect
      let gap : Nat := (seq.toNat + 4096 - e) % 4096
      (s.bilUp p.val = true ∧ seq.toNat ≠ e) →
      gap < 2048 →
      ∃ t, exec (.bilPacketReceive p (.msg seq m)) s = .next t
        ∧ t.out = s.out ++ [.link p.val .nak]
        ∧ (t.bil = updAt (fun b => { b with heard := s.refNs }) p.val s.bil)
        ∧ s.onlyRegs [] t)
  ∧ (∀ (s : State) (p : PortId) (seq : BitVec 12) (st : StallId) (sig : BitVec 8) (v : BitVec 64),
      (s.bilUp p.val = true ∧ seq.toNat = (s.bilPort p.val).expect ∧ s.bil.length = 3) →
      sig.toNat / 16 = st.val →
      ∃ t, exec (.bilPacketReceive p (.msg seq (.signal st sig v))) s = .next t
        ∧ t.rd64 (Reg.CMD_SIG sig.toNat) = max (s.rd64 (Reg.CMD_SIG sig.toNat)) v.toNat
        ∧ t.out = s.out ++ [.link p.val (.ack seq true)]
        ∧ s.onlyRegs [Reg.CMD_SIG sig.toNat, Reg.CMD_SIG sig.toNat + 4] t
        ∧ (t.bilPort p.val).expect = ((s.bilPort p.val).expect + 1) % 4096)
  ∧ (∀ (s : State) (p : PortId),
      let b : BilPort := s.bilPort p.val
      (s.bilUp p.val = true ∧ b.sent ≠ [] ∧ b.heard + 2000 ≤ s.refNs) →
      b.sent.all (fun x => x.sends < 8) = true →
      ∃ t, exec (.bilRetryTimeout p) s = .next t
        ∧ ((t.bilPort p.val).sent = b.sent.map fun x => { x with sends := x.sends + 1 })
        ∧ (t.out = s.out ++ b.sent.map fun x => .link p.val (.msg (BitVec.ofNat 12 x.seq) x.what.msg))
        ∧ (t.bilPort p.val).heard = s.refNs
        ∧ (t.rd (Reg.BIL_RETRIES p.val)).toNat = min ((s.rd (Reg.BIL_RETRIES p.val)).toNat + b.sent.length) (2 ^ 32 - 1)
        ∧ s.onlyRegs [Reg.BIL_RETRIES p.val] t)
  ∧ (∀ (s : State) (p : PortId),
      (s.bilUp p.val = true ∧ s.bit (Reg.BIL_PORT_CTRL p.val) 31 = true ∧ s.bil.length = 3) →
      (s.bilPort p.val).heard + 16000 ≤ s.refNs →
      ∃ t, exec (.bilPartnerSilence p) s = .next t
        ∧ t.bilUp p.val = false
        ∧ ((t.bilPort p.val).training = true ∧ (t.bilPort p.val).sent = [] ∧ (t.bilPort p.val).queue = [])
        ∧ s.onlyRegs [Reg.BIL_PORT_CTRL p.val, Reg.BIL_PORT_STATUS p.val] t)
  ∧ (∀ (s : State) (p : PortId),
      (s.bilUp p.val = true ∧ s.bit (Reg.BIL_PORT_CTRL p.val) 31 = true ∧ s.bil.length = 3) →
      ((s.bilPort p.val).sent.any (fun x => 8 ≤ x.sends) = true ∧ (s.bilPort p.val).heard + 2000 ≤ s.refNs) →
      ∃ t, exec (.bilRetryTimeout p) s = .next t
        ∧ t.bilUp p.val = false
        ∧ ((t.bilPort p.val).training = true ∧ (t.bilPort p.val).sent = [] ∧ (t.bilPort p.val).queue = [])
        ∧ s.onlyRegs [Reg.BIL_PORT_CTRL p.val, Reg.BIL_PORT_STATUS p.val] t)
  ∧ (∀ (s : State) (t : Tag) (p : PortId),
      let off : Nat := Reg.BIL_PEER_FAULT p.val
      (s.phase = .live ∧ s.regDeny t 0 off none = none) →
      ∃ u, exec (.bilPeerFaultRead t p) s = .next u
        ∧ u.out = s.out ++ [.read (regAddr off) (((s.bilPort p.val).peer.headD 0#128).extractLsb' 0 32)]
        ∧ (u.bilPort p.val).peer = (s.bilPort p.val).peer.tail
        ∧ s.onlyRegs [] u)
  ∧ (∀ (s : State) (t : Tag) (p : PortId) (v : Word),
      let c : Nat := Reg.BIL_PORT_CTRL p.val
      s.grants t 0 c (v ||| 0x80000000#32) →
      s.bil.length = 3 →
      s.bit c 31 = true →
      ∃ u, exec (.bilPortEnable t p v) s = .next u
        ∧ u.bit c 31 = true
        ∧ u.bil = s.bil
        ∧ s.onlyRegs [c] u)
  ∧ (∀ (s : State) (t : Tag) (p : PortId) (v : Word),
      let c : Nat := Reg.BIL_PORT_CTRL p.val
      s.grants t 0 c (v &&& ~~~0x80000000#32) →
      (s.bit c 31 = true ∧ s.bit c 30 = true ∧ s.bil.length = 3) →
      ((s.bilPort p.val).queue = [] ∧ (s.bilPort p.val).sent = []) →
      ∃ u, exec (.bilPortDisable t p v) s = .next u
        ∧ s.tells u (0x150 + p.val) Kind.BIL_LINK_DOWN 0 (s.fld c 17 16)
        ∧ u.cmd = s.cmd)
  ∧ (∀ (s : State) (p : PortId) (r : TrainResult),
      let e : Nat := s.trainErr p.val r
      (s.bilPort p.val).training = true →
      e ≠ 0 →
      (s.bilPort p.val).lastErr = e →
      ∃ t, exec (.bilTrainingDone p r) s = .next t
        ∧ t.fld (Reg.BIL_PORT_STATUS p.val) 3 0 = e
        ∧ ((t.bilPort p.val).training = false ∧ (t.bilPort p.val).retryAt = some (s.refNs + 100000000) ∧ (t.bilPort p.val).lastErr = e)
        ∧ s.onlyRegs [Reg.BIL_PORT_STATUS p.val] t
        ∧ t.tal = s.tal)
  ∧ (∀ (s : State) (p : PortId) (r : TrainResult),
      let c : Nat := Reg.BIL_PORT_CTRL p.val
      let n : Nat := laneCount r.locked
      let hi : Nat := s.fld Reg.BIL_VERSION 15 8
      (s.bilPort p.val).training = true →
      s.trainErr p.val r = 0 →
      (n = 4 ∧ hi ≤ r.maxVer.toNat) →
      ∃ t, exec (.bilTrainingDone p r) s = .next t
        ∧ t.bit c 30 = true
        ∧ t.tal = s.tal)
  ∧ (∀ (s : State) (p : PortId) (d : Nat),
      (s.bilPort p.val).retryAt = some d →
      s.refNs < d →
      ∃ t, exec (.bilTrainRetry p) s = .next t
        ∧ t = s)
  ∧ (∀ (s : State) (p : PortId) (k : BilPacket),
      s.bilUp p.val = false →
      ∃ t, exec (.bilPacketReceive p k) s = .next t
        ∧ t = s)
  ∧ (∀ (s : State) (p : PortId) (seq : BitVec 12) (m : BilMsg),
      let e : Nat := (s.bilPort p.val).expect
      let gap : Nat := (seq.toNat + 4096 - e) % 4096
      (s.bilUp p.val = true ∧ seq.toNat ≠ e) →
      2048 ≤ gap →
      ∃ t, exec (.bilPacketReceive p (.msg seq m)) s = .next t
        ∧ t.out = s.out
        ∧ (t.bil = updAt (fun b => { b with heard := s.refNs }) p.val s.bil)
        ∧ s.onlyRegs [] t)
  ∧ (∀ (s : State) (p : PortId) (seq : BitVec 12) (st : StallId) (sig : BitVec 8) (v : BitVec 64),
      (s.bilUp p.val = true ∧ seq.toNat = (s.bilPort p.val).expect ∧ s.bil.length = 3) →
      sig.toNat / 16 ≠ st.val →
      ∃ t, exec (.bilPacketReceive p (.msg seq (.signal st sig v))) s = .next t
        ∧ t.out = s.out ++ [.link p.val (.ack seq false)]
        ∧ s.tells t 0x100 Kind.SIGNAL_REFUSED st.val (sig.toNat + s.board.devnum * 2 ^ 8)
        ∧ s.onlyRegs [] t
        ∧ (t.bilPort p.val).expect = ((s.bilPort p.val).expect + 1) % 4096)
end

