-- ==== Sys2Proof/Laws/State.lean ====
section
/-!
SUPPORT. What each named update of the state leaves as it was: one lemma for each field and each update, true by unfolding.
-/
namespace Sys2Proof.Machine

variable (s : State)

/-! ### wr -/

@[simp] theorem State.wr_pending (off : Nat) (v : Word) : (s.wr off v).pending = s.pending := rfl
@[simp] theorem State.wr_phase (off : Nat) (v : Word) : (s.wr off v).phase = s.phase := rfl
@[simp] theorem State.wr_latch (off : Nat) (v : Word) : (s.wr off v).latch = s.latch := rfl
@[simp] theorem State.wr_mem (off : Nat) (v : Word) : (s.wr off v).mem = s.mem := rfl
@[simp] theorem State.wr_ecc (off : Nat) (v : Word) : (s.wr off v).ecc = s.ecc := rfl
@[simp] theorem State.wr_links (off : Nat) (v : Word) : (s.wr off v).links = s.links := rfl
@[simp] theorem State.wr_ddr (off : Nat) (v : Word) : (s.wr off v).ddr = s.ddr := rfl
@[simp] theorem State.wr_ddrCap (off : Nat) (v : Word) : (s.wr off v).ddrCap = s.ddrCap := rfl
@[simp] theorem State.wr_writeback (off : Nat) (v : Word) : (s.wr off v).writeback = s.writeback := rfl
@[simp] theorem State.wr_refNs (off : Nat) (v : Word) : (s.wr off v).refNs = s.refNs := rfl
@[simp] theorem State.wr_freeN (off : Nat) (v : Word) : (s.wr off v).freeN = s.freeN := rfl
@[simp] theorem State.wr_tal (off : Nat) (v : Word) : (s.wr off v).tal = s.tal := rfl
@[simp] theorem State.wr_tim (off : Nat) (v : Word) : (s.wr off v).tim = s.tim := rfl
@[simp] theorem State.wr_cmd (off : Nat) (v : Word) : (s.wr off v).cmd = s.cmd := rfl
@[simp] theorem State.wr_sch (off : Nat) (v : Word) : (s.wr off v).sch = s.sch := rfl
@[simp] theorem State.wr_graphs (off : Nat) (v : Word) : (s.wr off v).graphs = s.graphs := rfl
@[simp] theorem State.wr_cores (off : Nat) (v : Word) : (s.wr off v).cores = s.cores := rfl
@[simp] theorem State.wr_holds (off : Nat) (v : Word) : (s.wr off v).holds = s.holds := rfl
@[simp] theorem State.wr_ctxHurt (off : Nat) (v : Word) : (s.wr off v).ctxHurt = s.ctxHurt := rfl
@[simp] theorem State.wr_board (off : Nat) (v : Word) : (s.wr off v).board = s.board := rfl
@[simp] theorem State.wr_pwr (off : Nat) (v : Word) : (s.wr off v).pwr = s.pwr := rfl
@[simp] theorem State.wr_bar (off : Nat) (v : Word) : (s.wr off v).bar = s.bar := rfl
@[simp] theorem State.wr_eth (off : Nat) (v : Word) : (s.wr off v).eth = s.eth := rfl
@[simp] theorem State.wr_bil (off : Nat) (v : Word) : (s.wr off v).bil = s.bil := rfl
@[simp] theorem State.wr_streams (off : Nat) (v : Word) : (s.wr off v).streams = s.streams := rfl
@[simp] theorem State.wr_isp (off : Nat) (v : Word) : (s.wr off v).isp = s.isp := rfl
@[simp] theorem State.wr_age (off : Nat) (v : Word) : (s.wr off v).age = s.age := rfl
@[simp] theorem State.wr_dig (off : Nat) (v : Word) : (s.wr off v).dig = s.dig := rfl
@[simp] theorem State.wr_sec (off : Nat) (v : Word) : (s.wr off v).sec = s.sec := rfl
@[simp] theorem State.wr_fw (off : Nat) (v : Word) : (s.wr off v).fw = s.fw := rfl
@[simp] theorem State.wr_swr (off : Nat) (v : Word) : (s.wr off v).swr = s.swr := rfl
@[simp] theorem State.wr_tap (off : Nat) (v : Word) : (s.wr off v).tap = s.tap := rfl
@[simp] theorem State.wr_out (off : Nat) (v : Word) : (s.wr off v).out = s.out := rfl
@[simp] theorem State.wr_byte (off : Nat) (v : Word) (x : Nat) : (s.wr off v).byte x = s.byte x := rfl
@[simp] theorem State.wr_job (off : Nat) (v : Word) (i : Nat) : (s.wr off v).job? i = s.job? i := rfl

/-! ### setFld -/

@[simp] theorem State.setFld_pending (off hi lo v : Nat) : (s.setFld off hi lo v).pending = s.pending := rfl
@[simp] theorem State.setFld_phase (off hi lo v : Nat) : (s.setFld off hi lo v).phase = s.phase := rfl
@[simp] theorem State.setFld_latch (off hi lo v : Nat) : (s.setFld off hi lo v).latch = s.latch := rfl
@[simp] theorem State.setFld_mem (off hi lo v : Nat) : (s.setFld off hi lo v).mem = s.mem := rfl
@[simp] theorem State.setFld_ecc (off hi lo v : Nat) : (s.setFld off hi lo v).ecc = s.ecc := rfl
@[simp] theorem State.setFld_links (off hi lo v : Nat) : (s.setFld off hi lo v).links = s.links := rfl
@[simp] theorem State.setFld_ddr (off hi lo v : Nat) : (s.setFld off hi lo v).ddr = s.ddr := rfl
@[simp] theorem State.setFld_ddrCap (off hi lo v : Nat) : (s.setFld off hi lo v).ddrCap = s.ddrCap := rfl
@[simp] theorem State.setFld_writeback (off hi lo v : Nat) : (s.setFld off hi lo v).writeback = s.writeback := rfl
@[simp] theorem State.setFld_refNs (off hi lo v : Nat) : (s.setFld off hi lo v).refNs = s.refNs := rfl
@[simp] theorem State.setFld_freeN (off hi lo v : Nat) : (s.setFld off hi lo v).freeN = s.freeN := rfl
@[simp] theorem State.setFld_tal (off hi lo v : Nat) : (s.setFld off hi lo v).tal = s.tal := rfl
@[simp] theorem State.setFld_tim (off hi lo v : Nat) : (s.setFld off hi lo v).tim = s.tim := rfl
@[simp] theorem State.setFld_cmd (off hi lo v : Nat) : (s.setFld off hi lo v).cmd = s.cmd := rfl
@[simp] theorem State.setFld_sch (off hi lo v : Nat) : (s.setFld off hi lo v).sch = s.sch := rfl
@[simp] theorem State.setFld_graphs (off hi lo v : Nat) : (s.setFld off hi lo v).graphs = s.graphs := rfl
@[simp] theorem State.setFld_cores (off hi lo v : Nat) : (s.setFld off hi lo v).cores = s.cores := rfl
@[simp] theorem State.setFld_holds (off hi lo v : Nat) : (s.setFld off hi lo v).holds = s.holds := rfl
@[simp] theorem State.setFld_ctxHurt (off hi lo v : Nat) : (s.setFld off hi lo v).ctxHurt = s.ctxHurt := rfl
@[simp] theorem State.setFld_board (off hi lo v : Nat) : (s.setFld off hi lo v).board = s.board := rfl
@[simp] theorem State.setFld_pwr (off hi lo v : Nat) : (s.setFld off hi lo v).pwr = s.pwr := rfl
@[simp] theorem State.setFld_bar (off hi lo v : Nat) : (s.setFld off hi lo v).bar = s.bar := rfl
@[simp] theorem State.setFld_eth (off hi lo v : Nat) : (s.setFld off hi lo v).eth = s.eth := rfl
@[simp] theorem State.setFld_bil (off hi lo v : Nat) : (s.setFld off hi lo v).bil = s.bil := rfl
@[simp] theorem State.setFld_streams (off hi lo v : Nat) : (s.setFld off hi lo v).streams = s.streams := rfl
@[simp] theorem State.setFld_isp (off hi lo v : Nat) : (s.setFld off hi lo v).isp = s.isp := rfl
@[simp] theorem State.setFld_age (off hi lo v : Nat) : (s.setFld off hi lo v).age = s.age := rfl
@[simp] theorem State.setFld_dig (off hi lo v : Nat) : (s.setFld off hi lo v).dig = s.dig := rfl
@[simp] theorem State.setFld_sec (off hi lo v : Nat) : (s.setFld off hi lo v).sec = s.sec := rfl
@[simp] theorem State.setFld_fw (off hi lo v : Nat) : (s.setFld off hi lo v).fw = s.fw := rfl
@[simp] theorem State.setFld_swr (off hi lo v : Nat) : (s.setFld off hi lo v).swr = s.swr := rfl
@[simp] theorem State.setFld_tap (off hi lo v : Nat) : (s.setFld off hi lo v).tap = s.tap := rfl
@[simp] theorem State.setFld_out (off hi lo v : Nat) : (s.setFld off hi lo v).out = s.out := rfl
@[simp] theorem State.setFld_byte (off hi lo v : Nat) (x : Nat) : (s.setFld off hi lo v).byte x = s.byte x := rfl
@[simp] theorem State.setFld_job (off hi lo v : Nat) (i : Nat) : (s.setFld off hi lo v).job? i = s.job? i := rfl

/-! ### setBit -/

@[simp] theorem State.setBit_pending (off n : Nat) (b : Bool) : (s.setBit off n b).pending = s.pending := rfl
@[simp] theorem State.setBit_phase (off n : Nat) (b : Bool) : (s.setBit off n b).phase = s.phase := rfl
@[simp] theorem State.setBit_latch (off n : Nat) (b : Bool) : (s.setBit off n b).latch = s.latch := rfl
@[simp] theorem State.setBit_mem (off n : Nat) (b : Bool) : (s.setBit off n b).mem = s.mem := rfl
@[simp] theorem State.setBit_ecc (off n : Nat) (b : Bool) : (s.setBit off n b).ecc = s.ecc := rfl
@[simp] theorem State.setBit_links (off n : Nat) (b : Bool) : (s.setBit off n b).links = s.links := rfl
@[simp] theorem State.setBit_ddr (off n : Nat) (b : Bool) : (s.setBit off n b).ddr = s.ddr := rfl
@[simp] theorem State.setBit_ddrCap (off n : Nat) (b : Bool) : (s.setBit off n b).ddrCap = s.ddrCap := rfl
@[simp] theorem State.setBit_writeback (off n : Nat) (b : Bool) : (s.setBit off n b).writeback = s.writeback := rfl
@[simp] theorem State.setBit_refNs (off n : Nat) (b : Bool) : (s.setBit off n b).refNs = s.refNs := rfl
@[simp] theorem State.setBit_freeN (off n : Nat) (b : Bool) : (s.setBit off n b).freeN = s.freeN := rfl
@[simp] theorem State.setBit_tal (off n : Nat) (b : Bool) : (s.setBit off n b).tal = s.tal := rfl
@[simp] theorem State.setBit_tim (off n : Nat) (b : Bool) : (s.setBit off n b).tim = s.tim := rfl
@[simp] theorem State.setBit_cmd (off n : Nat) (b : Bool) : (s.setBit off n b).cmd = s.cmd := rfl
@[simp] theorem State.setBit_sch (off n : Nat) (b : Bool) : (s.setBit off n b).sch = s.sch := rfl
@[simp] theorem State.setBit_graphs (off n : Nat) (b : Bool) : (s.setBit off n b).graphs = s.graphs := rfl
@[simp] theorem State.setBit_cores (off n : Nat) (b : Bool) : (s.setBit off n b).cores = s.cores := rfl
@[simp] theorem State.setBit_holds (off n : Nat) (b : Bool) : (s.setBit off n b).holds = s.holds := rfl
@[simp] theorem State.setBit_ctxHurt (off n : Nat) (b : Bool) : (s.setBit off n b).ctxHurt = s.ctxHurt := rfl
@[simp] theorem State.setBit_board (off n : Nat) (b : Bool) : (s.setBit off n b).board = s.board := rfl
@[simp] theorem State.setBit_pwr (off n : Nat) (b : Bool) : (s.setBit off n b).pwr = s.pwr := rfl
@[simp] theorem State.setBit_bar (off n : Nat) (b : Bool) : (s.setBit off n b).bar = s.bar := rfl
@[simp] theorem State.setBit_eth (off n : Nat) (b : Bool) : (s.setBit off n b).eth = s.eth := rfl
@[simp] theorem State.setBit_bil (off n : Nat) (b : Bool) : (s.setBit off n b).bil = s.bil := rfl
@[simp] theorem State.setBit_streams (off n : Nat) (b : Bool) : (s.setBit off n b).streams = s.streams := rfl
@[simp] theorem State.setBit_isp (off n : Nat) (b : Bool) : (s.setBit off n b).isp = s.isp := rfl
@[simp] theorem State.setBit_age (off n : Nat) (b : Bool) : (s.setBit off n b).age = s.age := rfl
@[simp] theorem State.setBit_dig (off n : Nat) (b : Bool) : (s.setBit off n b).dig = s.dig := rfl
@[simp] theorem State.setBit_sec (off n : Nat) (b : Bool) : (s.setBit off n b).sec = s.sec := rfl
@[simp] theorem State.setBit_fw (off n : Nat) (b : Bool) : (s.setBit off n b).fw = s.fw := rfl
@[simp] theorem State.setBit_swr (off n : Nat) (b : Bool) : (s.setBit off n b).swr = s.swr := rfl
@[simp] theorem State.setBit_tap (off n : Nat) (b : Bool) : (s.setBit off n b).tap = s.tap := rfl
@[simp] theorem State.setBit_out (off n : Nat) (b : Bool) : (s.setBit off n b).out = s.out := rfl
@[simp] theorem State.setBit_byte (off n : Nat) (b : Bool) (x : Nat) : (s.setBit off n b).byte x = s.byte x := rfl
@[simp] theorem State.setBit_job (off n : Nat) (b : Bool) (i : Nat) : (s.setBit off n b).job? i = s.job? i := rfl

/-! ### inc -/

@[simp] theorem State.inc_pending (off n : Nat) : (s.inc off n).pending = s.pending := rfl
@[simp] theorem State.inc_phase (off n : Nat) : (s.inc off n).phase = s.phase := rfl
@[simp] theorem State.inc_latch (off n : Nat) : (s.inc off n).latch = s.latch := rfl
@[simp] theorem State.inc_mem (off n : Nat) : (s.inc off n).mem = s.mem := rfl
@[simp] theorem State.inc_ecc (off n : Nat) : (s.inc off n).ecc = s.ecc := rfl
@[simp] theorem State.inc_links (off n : Nat) : (s.inc off n).links = s.links := rfl
@[simp] theorem State.inc_ddr (off n : Nat) : (s.inc off n).ddr = s.ddr := rfl
@[simp] theorem State.inc_ddrCap (off n : Nat) : (s.inc off n).ddrCap = s.ddrCap := rfl
@[simp] theorem State.inc_writeback (off n : Nat) : (s.inc off n).writeback = s.writeback := rfl
@[simp] theorem State.inc_refNs (off n : Nat) : (s.inc off n).refNs = s.refNs := rfl
@[simp] theorem State.inc_freeN (off n : Nat) : (s.inc off n).freeN = s.freeN := rfl
@[simp] theorem State.inc_tal (off n : Nat) : (s.inc off n).tal = s.tal := rfl
@[simp] theorem State.inc_tim (off n : Nat) : (s.inc off n).tim = s.tim := rfl
@[simp] theorem State.inc_cmd (off n : Nat) : (s.inc off n).cmd = s.cmd := rfl
@[simp] theorem State.inc_sch (off n : Nat) : (s.inc off n).sch = s.sch := rfl
@[simp] theorem State.inc_graphs (off n : Nat) : (s.inc off n).graphs = s.graphs := rfl
@[simp] theorem State.inc_cores (off n : Nat) : (s.inc off n).cores = s.cores := rfl
@[simp] theorem State.inc_holds (off n : Nat) : (s.inc off n).holds = s.holds := rfl
@[simp] theorem State.inc_ctxHurt (off n : Nat) : (s.inc off n).ctxHurt = s.ctxHurt := rfl
@[simp] theorem State.inc_board (off n : Nat) : (s.inc off n).board = s.board := rfl
@[simp] theorem State.inc_pwr (off n : Nat) : (s.inc off n).pwr = s.pwr := rfl
@[simp] theorem State.inc_bar (off n : Nat) : (s.inc off n).bar = s.bar := rfl
@[simp] theorem State.inc_eth (off n : Nat) : (s.inc off n).eth = s.eth := rfl
@[simp] theorem State.inc_bil (off n : Nat) : (s.inc off n).bil = s.bil := rfl
@[simp] theorem State.inc_streams (off n : Nat) : (s.inc off n).streams = s.streams := rfl
@[simp] theorem State.inc_isp (off n : Nat) : (s.inc off n).isp = s.isp := rfl
@[simp] theorem State.inc_age (off n : Nat) : (s.inc off n).age = s.age := rfl
@[simp] theorem State.inc_dig (off n : Nat) : (s.inc off n).dig = s.dig := rfl
@[simp] theorem State.inc_sec (off n : Nat) : (s.inc off n).sec = s.sec := rfl
@[simp] theorem State.inc_fw (off n : Nat) : (s.inc off n).fw = s.fw := rfl
@[simp] theorem State.inc_swr (off n : Nat) : (s.inc off n).swr = s.swr := rfl
@[simp] theorem State.inc_tap (off n : Nat) : (s.inc off n).tap = s.tap := rfl
@[simp] theorem State.inc_out (off n : Nat) : (s.inc off n).out = s.out := rfl
@[simp] theorem State.inc_byte (off n : Nat) (x : Nat) : (s.inc off n).byte x = s.byte x := rfl
@[simp] theorem State.inc_job (off n : Nat) (i : Nat) : (s.inc off n).job? i = s.job? i := rfl

/-! ### sat -/

@[simp] theorem State.sat_pending (off hi lo n : Nat) : (s.sat off hi lo n).pending = s.pending := rfl
@[simp] theorem State.sat_phase (off hi lo n : Nat) : (s.sat off hi lo n).phase = s.phase := rfl
@[simp] theorem State.sat_latch (off hi lo n : Nat) : (s.sat off hi lo n).latch = s.latch := rfl
@[simp] theorem State.sat_mem (off hi lo n : Nat) : (s.sat off hi lo n).mem = s.mem := rfl
@[simp] theorem State.sat_ecc (off hi lo n : Nat) : (s.sat off hi lo n).ecc = s.ecc := rfl
@[simp] theorem State.sat_links (off hi lo n : Nat) : (s.sat off hi lo n).links = s.links := rfl
@[simp] theorem State.sat_ddr (off hi lo n : Nat) : (s.sat off hi lo n).ddr = s.ddr := rfl
@[simp] theorem State.sat_ddrCap (off hi lo n : Nat) : (s.sat off hi lo n).ddrCap = s.ddrCap := rfl
@[simp] theorem State.sat_writeback (off hi lo n : Nat) : (s.sat off hi lo n).writeback = s.writeback := rfl
@[simp] theorem State.sat_refNs (off hi lo n : Nat) : (s.sat off hi lo n).refNs = s.refNs := rfl
@[simp] theorem State.sat_freeN (off hi lo n : Nat) : (s.sat off hi lo n).freeN = s.freeN := rfl
@[simp] theorem State.sat_tal (off hi lo n : Nat) : (s.sat off hi lo n).tal = s.tal := rfl
@[simp] theorem State.sat_tim (off hi lo n : Nat) : (s.sat off hi lo n).tim = s.tim := rfl
@[simp] theorem State.sat_cmd (off hi lo n : Nat) : (s.sat off hi lo n).cmd = s.cmd := rfl
@[simp] theorem State.sat_sch (off hi lo n : Nat) : (s.sat off hi lo n).sch = s.sch := rfl
@[simp] theorem State.sat_graphs (off hi lo n : Nat) : (s.sat off hi lo n).graphs = s.graphs := rfl
@[simp] theorem State.sat_cores (off hi lo n : Nat) : (s.sat off hi lo n).cores = s.cores := rfl
@[simp] theorem State.sat_holds (off hi lo n : Nat) : (s.sat off hi lo n).holds = s.holds := rfl
@[simp] theorem State.sat_ctxHurt (off hi lo n : Nat) : (s.sat off hi lo n).ctxHurt = s.ctxHurt := rfl
@[simp] theorem State.sat_board (off hi lo n : Nat) : (s.sat off hi lo n).board = s.board := rfl
@[simp] theorem State.sat_pwr (off hi lo n : Nat) : (s.sat off hi lo n).pwr = s.pwr := rfl
@[simp] theorem State.sat_bar (off hi lo n : Nat) : (s.sat off hi lo n).bar = s.bar := rfl
@[simp] theorem State.sat_eth (off hi lo n : Nat) : (s.sat off hi lo n).eth = s.eth := rfl
@[simp] theorem State.sat_bil (off hi lo n : Nat) : (s.sat off hi lo n).bil = s.bil := rfl
@[simp] theorem State.sat_streams (off hi lo n : Nat) : (s.sat off hi lo n).streams = s.streams := rfl
@[simp] theorem State.sat_isp (off hi lo n : Nat) : (s.sat off hi lo n).isp = s.isp := rfl
@[simp] theorem State.sat_age (off hi lo n : Nat) : (s.sat off hi lo n).age = s.age := rfl
@[simp] theorem State.sat_dig (off hi lo n : Nat) : (s.sat off hi lo n).dig = s.dig := rfl
@[simp] theorem State.sat_sec (off hi lo n : Nat) : (s.sat off hi lo n).sec = s.sec := rfl
@[simp] theorem State.sat_fw (off hi lo n : Nat) : (s.sat off hi lo n).fw = s.fw := rfl
@[simp] theorem State.sat_swr (off hi lo n : Nat) : (s.sat off hi lo n).swr = s.swr := rfl
@[simp] theorem State.sat_tap (off hi lo n : Nat) : (s.sat off hi lo n).tap = s.tap := rfl
@[simp] theorem State.sat_out (off hi lo n : Nat) : (s.sat off hi lo n).out = s.out := rfl
@[simp] theorem State.sat_byte (off hi lo n : Nat) (x : Nat) : (s.sat off hi lo n).byte x = s.byte x := rfl
@[simp] theorem State.sat_job (off hi lo n : Nat) (i : Nat) : (s.sat off hi lo n).job? i = s.job? i := rfl

/-! ### report -/

@[simp] theorem State.report_pending (src kind stall addr : Nat) : (s.report src kind stall addr).pending = s.pending := rfl
@[simp] theorem State.report_phase (src kind stall addr : Nat) : (s.report src kind stall addr).phase = s.phase := rfl
@[simp] theorem State.report_regs (src kind stall addr : Nat) : (s.report src kind stall addr).regs = s.regs := rfl
@[simp] theorem State.report_latch (src kind stall addr : Nat) : (s.report src kind stall addr).latch = s.latch := rfl
@[simp] theorem State.report_mem (src kind stall addr : Nat) : (s.report src kind stall addr).mem = s.mem := rfl
@[simp] theorem State.report_ecc (src kind stall addr : Nat) : (s.report src kind stall addr).ecc = s.ecc := rfl
@[simp] theorem State.report_links (src kind stall addr : Nat) : (s.report src kind stall addr).links = s.links := rfl
@[simp] theorem State.report_ddr (src kind stall addr : Nat) : (s.report src kind stall addr).ddr = s.ddr := rfl
@[simp] theorem State.report_ddrCap (src kind stall addr : Nat) : (s.report src kind stall addr).ddrCap = s.ddrCap := rfl
@[simp] theorem State.report_writeback (src kind stall addr : Nat) : (s.report src kind stall addr).writeback = s.writeback := rfl
@[simp] theorem State.report_refNs (src kind stall addr : Nat) : (s.report src kind stall addr).refNs = s.refNs := rfl
@[simp] theorem State.report_freeN (src kind stall addr : Nat) : (s.report src kind stall addr).freeN = s.freeN := rfl
@[simp] theorem State.report_tim (src kind stall addr : Nat) : (s.report src kind stall addr).tim = s.tim := rfl
@[simp] theorem State.report_cmd (src kind stall addr : Nat) : (s.report src kind stall addr).cmd = s.cmd := rfl
@[simp] theorem State.report_sch (src kind stall addr : Nat) : (s.report src kind stall addr).sch = s.sch := rfl
@[simp] theorem State.report_graphs (src kind stall addr : Nat) : (s.report src kind stall addr).graphs = s.graphs := rfl
@[simp] theorem State.report_cores (src kind stall addr : Nat) : (s.report src kind stall addr).cores = s.cores := rfl
@[simp] theorem State.report_holds (src kind stall addr : Nat) : (s.report src kind stall addr).holds = s.holds := rfl
@[simp] theorem State.report_ctxHurt (src kind stall addr : Nat) : (s.report src kind stall addr).ctxHurt = s.ctxHurt := rfl
@[simp] theorem State.report_board (src kind stall addr : Nat) : (s.report src kind stall addr).board = s.board := rfl
@[simp] theorem State.report_pwr (src kind stall addr : Nat) : (s.report src kind stall addr).pwr = s.pwr := rfl
@[simp] theorem State.report_bar (src kind stall addr : Nat) : (s.report src kind stall addr).bar = s.bar := rfl
@[simp] theorem State.report_eth (src kind stall addr : Nat) : (s.report src kind stall addr).eth = s.eth := rfl
@[simp] theorem State.report_bil (src kind stall addr : Nat) : (s.report src kind stall addr).bil = s.bil := rfl
@[simp] theorem State.report_streams (src kind stall addr : Nat) : (s.report src kind stall addr).streams = s.streams := rfl
@[simp] theorem State.report_isp (src kind stall addr : Nat) : (s.report src kind stall addr).isp = s.isp := rfl
@[simp] theorem State.report_age (src kind stall addr : Nat) : (s.report src kind stall addr).age = s.age := rfl
@[simp] theorem State.report_dig (src kind stall addr : Nat) : (s.report src kind stall addr).dig = s.dig := rfl
@[simp] theorem State.report_sec (src kind stall addr : Nat) : (s.report src kind stall addr).sec = s.sec := rfl
@[simp] theorem State.report_fw (src kind stall addr : Nat) : (s.report src kind stall addr).fw = s.fw := rfl
@[simp] theorem State.report_swr (src kind stall addr : Nat) : (s.report src kind stall addr).swr = s.swr := rfl
@[simp] theorem State.report_tap (src kind stall addr : Nat) : (s.report src kind stall addr).tap = s.tap := rfl
@[simp] theorem State.report_out (src kind stall addr : Nat) : (s.report src kind stall addr).out = s.out := rfl
@[simp] theorem State.report_rd (src kind stall addr : Nat) (r : Nat) : (s.report src kind stall addr).rd r = s.rd r := rfl
@[simp] theorem State.report_fld (src kind stall addr : Nat) (r h l : Nat) : (s.report src kind stall addr).fld r h l = s.fld r h l := rfl
@[simp] theorem State.report_bit (src kind stall addr : Nat) (r k : Nat) : (s.report src kind stall addr).bit r k = s.bit r k := rfl
@[simp] theorem State.report_byte (src kind stall addr : Nat) (x : Nat) : (s.report src kind stall addr).byte x = s.byte x := rfl
@[simp] theorem State.report_job (src kind stall addr : Nat) (i : Nat) : (s.report src kind stall addr).job? i = s.job? i := rfl

/-! ### emit -/

@[simp] theorem State.emit_pending (o : Out) : (s.emit o).pending = s.pending := rfl
@[simp] theorem State.emit_phase (o : Out) : (s.emit o).phase = s.phase := rfl
@[simp] theorem State.emit_regs (o : Out) : (s.emit o).regs = s.regs := rfl
@[simp] theorem State.emit_latch (o : Out) : (s.emit o).latch = s.latch := rfl
@[simp] theorem State.emit_mem (o : Out) : (s.emit o).mem = s.mem := rfl
@[simp] theorem State.emit_ecc (o : Out) : (s.emit o).ecc = s.ecc := rfl
@[simp] theorem State.emit_links (o : Out) : (s.emit o).links = s.links := rfl
@[simp] theorem State.emit_ddr (o : Out) : (s.emit o).ddr = s.ddr := rfl
@[simp] theorem State.emit_ddrCap (o : Out) : (s.emit o).ddrCap = s.ddrCap := rfl
@[simp] theorem State.emit_writeback (o : Out) : (s.emit o).writeback = s.writeback := rfl
@[simp] theorem State.emit_refNs (o : Out) : (s.emit o).refNs = s.refNs := rfl
@[simp] theorem State.emit_freeN (o : Out) : (s.emit o).freeN = s.freeN := rfl
@[simp] theorem State.emit_tal (o : Out) : (s.emit o).tal = s.tal := rfl
@[simp] theorem State.emit_tim (o : Out) : (s.emit o).tim = s.tim := rfl
@[simp] theorem State.emit_cmd (o : Out) : (s.emit o).cmd = s.cmd := rfl
@[simp] theorem State.emit_sch (o : Out) : (s.emit o).sch = s.sch := rfl
@[simp] theorem State.emit_graphs (o : Out) : (s.emit o).graphs = s.graphs := rfl
@[simp] theorem State.emit_cores (o : Out) : (s.emit o).cores = s.cores := rfl
@[simp] theorem State.emit_holds (o : Out) : (s.emit o).holds = s.holds := rfl
@[simp] theorem State.emit_ctxHurt (o : Out) : (s.emit o).ctxHurt = s.ctxHurt := rfl
@[simp] theorem State.emit_board (o : Out) : (s.emit o).board = s.board := rfl
@[simp] theorem State.emit_pwr (o : Out) : (s.emit o).pwr = s.pwr := rfl
@[simp] theorem State.emit_bar (o : Out) : (s.emit o).bar = s.bar := rfl
@[simp] theorem State.emit_eth (o : Out) : (s.emit o).eth = s.eth := rfl
@[simp] theorem State.emit_bil (o : Out) : (s.emit o).bil = s.bil := rfl
@[simp] theorem State.emit_streams (o : Out) : (s.emit o).streams = s.streams := rfl
@[simp] theorem State.emit_isp (o : Out) : (s.emit o).isp = s.isp := rfl
@[simp] theorem State.emit_age (o : Out) : (s.emit o).age = s.age := rfl
@[simp] theorem State.emit_dig (o : Out) : (s.emit o).dig = s.dig := rfl
@[simp] theorem State.emit_sec (o : Out) : (s.emit o).sec = s.sec := rfl
@[simp] theorem State.emit_fw (o : Out) : (s.emit o).fw = s.fw := rfl
@[simp] theorem State.emit_swr (o : Out) : (s.emit o).swr = s.swr := rfl
@[simp] theorem State.emit_tap (o : Out) : (s.emit o).tap = s.tap := rfl
@[simp] theorem State.emit_rd (o : Out) (r : Nat) : (s.emit o).rd r = s.rd r := rfl
@[simp] theorem State.emit_fld (o : Out) (r h l : Nat) : (s.emit o).fld r h l = s.fld r h l := rfl
@[simp] theorem State.emit_bit (o : Out) (r k : Nat) : (s.emit o).bit r k = s.bit r k := rfl
@[simp] theorem State.emit_byte (o : Out) (x : Nat) : (s.emit o).byte x = s.byte x := rfl
@[simp] theorem State.emit_job (o : Out) (i : Nat) : (s.emit o).job? i = s.job? i := rfl

/-! ### putByte -/

@[simp] theorem State.putByte_pending (a : Nat) (b : Byte) : (s.putByte a b).pending = s.pending := rfl
@[simp] theorem State.putByte_phase (a : Nat) (b : Byte) : (s.putByte a b).phase = s.phase := rfl
@[simp] theorem State.putByte_regs (a : Nat) (b : Byte) : (s.putByte a b).regs = s.regs := rfl
@[simp] theorem State.putByte_latch (a : Nat) (b : Byte) : (s.putByte a b).latch = s.latch := rfl
@[simp] theorem State.putByte_ecc (a : Nat) (b : Byte) : (s.putByte a b).ecc = s.ecc := rfl
@[simp] theorem State.putByte_links (a : Nat) (b : Byte) : (s.putByte a b).links = s.links := rfl
@[simp] theorem State.putByte_ddr (a : Nat) (b : Byte) : (s.putByte a b).ddr = s.ddr := rfl
@[simp] theorem State.putByte_ddrCap (a : Nat) (b : Byte) : (s.putByte a b).ddrCap = s.ddrCap := rfl
@[simp] theorem State.putByte_writeback (a : Nat) (b : Byte) : (s.putByte a b).writeback = s.writeback := rfl
@[simp] theorem State.putByte_refNs (a : Nat) (b : Byte) : (s.putByte a b).refNs = s.refNs := rfl
@[simp] theorem State.putByte_freeN (a : Nat) (b : Byte) : (s.putByte a b).freeN = s.freeN := rfl
@[simp] theorem State.putByte_tal (a : Nat) (b : Byte) : (s.putByte a b).tal = s.tal := rfl
@[simp] theorem State.putByte_tim (a : Nat) (b : Byte) : (s.putByte a b).tim = s.tim := rfl
@[simp] theorem State.putByte_cmd (a : Nat) (b : Byte) : (s.putByte a b).cmd = s.cmd := rfl
@[simp] theorem State.putByte_sch (a : Nat) (b : Byte) : (s.putByte a b).sch = s.sch := rfl
@[simp] theorem State.putByte_graphs (a : Nat) (b : Byte) : (s.putByte a b).graphs = s.graphs := rfl
@[simp] theorem State.putByte_cores (a : Nat) (b : Byte) : (s.putByte a b).cores = s.cores := rfl
@[simp] theorem State.putByte_holds (a : Nat) (b : Byte) : (s.putByte a b).holds = s.holds := rfl
@[simp] theorem State.putByte_ctxHurt (a : Nat) (b : Byte) : (s.putByte a b).ctxHurt = s.ctxHurt := rfl
@[simp] theorem State.putByte_board (a : Nat) (b : Byte) : (s.putByte a b).board = s.board := rfl
@[simp] theorem State.putByte_pwr (a : Nat) (b : Byte) : (s.putByte a b).pwr = s.pwr := rfl
@[simp] theorem State.putByte_bar (a : Nat) (b : Byte) : (s.putByte a b).bar = s.bar := rfl
@[simp] theorem State.putByte_eth (a : Nat) (b : Byte) : (s.putByte a b).eth = s.eth := rfl
@[simp] theorem State.putByte_bil (a : Nat) (b : Byte) : (s.putByte a b).bil = s.bil := rfl
@[simp] theorem State.putByte_streams (a : Nat) (b : Byte) : (s.putByte a b).streams = s.streams := rfl
@[simp] theorem State.putByte_isp (a : Nat) (b : Byte) : (s.putByte a b).isp = s.isp := rfl
@[simp] theorem State.putByte_age (a : Nat) (b : Byte) : (s.putByte a b).age = s.age := rfl
@[simp] theorem State.putByte_dig (a : Nat) (b : Byte) : (s.putByte a b).dig = s.dig := rfl
@[simp] theorem State.putByte_sec (a : Nat) (b : Byte) : (s.putByte a b).sec = s.sec := rfl
@[simp] theorem State.putByte_fw (a : Nat) (b : Byte) : (s.putByte a b).fw = s.fw := rfl
@[simp] theorem State.putByte_swr (a : Nat) (b : Byte) : (s.putByte a b).swr = s.swr := rfl
@[simp] theorem State.putByte_tap (a : Nat) (b : Byte) : (s.putByte a b).tap = s.tap := rfl
@[simp] theorem State.putByte_out (a : Nat) (b : Byte) : (s.putByte a b).out = s.out := rfl
@[simp] theorem State.putByte_rd (a : Nat) (b : Byte) (r : Nat) : (s.putByte a b).rd r = s.rd r := rfl
@[simp] theorem State.putByte_fld (a : Nat) (b : Byte) (r h l : Nat) : (s.putByte a b).fld r h l = s.fld r h l := rfl
@[simp] theorem State.putByte_bit (a : Nat) (b : Byte) (r k : Nat) : (s.putByte a b).bit r k = s.bit r k := rfl
@[simp] theorem State.putByte_job (a : Nat) (b : Byte) (i : Nat) : (s.putByte a b).job? i = s.job? i := rfl

/-! ### updTal -/

@[simp] theorem State.updTal_pending (f : Tally → Tally) : (s.updTal f).pending = s.pending := rfl
@[simp] theorem State.updTal_phase (f : Tally → Tally) : (s.updTal f).phase = s.phase := rfl
@[simp] theorem State.updTal_regs (f : Tally → Tally) : (s.updTal f).regs = s.regs := rfl
@[simp] theorem State.updTal_latch (f : Tally → Tally) : (s.updTal f).latch = s.latch := rfl
@[simp] theorem State.updTal_mem (f : Tally → Tally) : (s.updTal f).mem = s.mem := rfl
@[simp] theorem State.updTal_ecc (f : Tally → Tally) : (s.updTal f).ecc = s.ecc := rfl
@[simp] theorem State.updTal_links (f : Tally → Tally) : (s.updTal f).links = s.links := rfl
@[simp] theorem State.updTal_ddr (f : Tally → Tally) : (s.updTal f).ddr = s.ddr := rfl
@[simp] theorem State.updTal_ddrCap (f : Tally → Tally) : (s.updTal f).ddrCap = s.ddrCap := rfl
@[simp] theorem State.updTal_writeback (f : Tally → Tally) : (s.updTal f).writeback = s.writeback := rfl
@[simp] theorem State.updTal_refNs (f : Tally → Tally) : (s.updTal f).refNs = s.refNs := rfl
@[simp] theorem State.updTal_freeN (f : Tally → Tally) : (s.updTal f).freeN = s.freeN := rfl
@[simp] theorem State.updTal_tim (f : Tally → Tally) : (s.updTal f).tim = s.tim := rfl
@[simp] theorem State.updTal_cmd (f : Tally → Tally) : (s.updTal f).cmd = s.cmd := rfl
@[simp] theorem State.updTal_sch (f : Tally → Tally) : (s.updTal f).sch = s.sch := rfl
@[simp] theorem State.updTal_graphs (f : Tally → Tally) : (s.updTal f).graphs = s.graphs := rfl
@[simp] theorem State.updTal_cores (f : Tally → Tally) : (s.updTal f).cores = s.cores := rfl
@[simp] theorem State.updTal_holds (f : Tally → Tally) : (s.updTal f).holds = s.holds := rfl
@[simp] theorem State.updTal_ctxHurt (f : Tally → Tally) : (s.updTal f).ctxHurt = s.ctxHurt := rfl
@[simp] theorem State.updTal_board (f : Tally → Tally) : (s.updTal f).board = s.board := rfl
@[simp] theorem State.updTal_pwr (f : Tally → Tally) : (s.updTal f).pwr = s.pwr := rfl
@[simp] theorem State.updTal_bar (f : Tally → Tally) : (s.updTal f).bar = s.bar := rfl
@[simp] theorem State.updTal_eth (f : Tally → Tally) : (s.updTal f).eth = s.eth := rfl
@[simp] theorem State.updTal_bil (f : Tally → Tally) : (s.updTal f).bil = s.bil := rfl
@[simp] theorem State.updTal_streams (f : Tally → Tally) : (s.updTal f).streams = s.streams := rfl
@[simp] theorem State.updTal_isp (f : Tally → Tally) : (s.updTal f).isp = s.isp := rfl
@[simp] theorem State.updTal_age (f : Tally → Tally) : (s.updTal f).age = s.age := rfl
@[simp] theorem State.updTal_dig (f : Tally → Tally) : (s.updTal f).dig = s.dig := rfl
@[simp] theorem State.updTal_sec (f : Tally → Tally) : (s.updTal f).sec = s.sec := rfl
@[simp] theorem State.updTal_fw (f : Tally → Tally) : (s.updTal f).fw = s.fw := rfl
@[simp] theorem State.updTal_swr (f : Tally → Tally) : (s.updTal f).swr = s.swr := rfl
@[simp] theorem State.updTal_tap (f : Tally → Tally) : (s.updTal f).tap = s.tap := rfl
@[simp] theorem State.updTal_out (f : Tally → Tally) : (s.updTal f).out = s.out := rfl
@[simp] theorem State.updTal_rd (f : Tally → Tally) (r : Nat) : (s.updTal f).rd r = s.rd r := rfl
@[simp] theorem State.updTal_fld (f : Tally → Tally) (r h l : Nat) : (s.updTal f).fld r h l = s.fld r h l := rfl
@[simp] theorem State.updTal_bit (f : Tally → Tally) (r k : Nat) : (s.updTal f).bit r k = s.bit r k := rfl
@[simp] theorem State.updTal_byte (f : Tally → Tally) (x : Nat) : (s.updTal f).byte x = s.byte x := rfl
@[simp] theorem State.updTal_job (f : Tally → Tally) (i : Nat) : (s.updTal f).job? i = s.job? i := rfl

/-! ### updTim -/

@[simp] theorem State.updTim_pending (f : TimeUnit → TimeUnit) : (s.updTim f).pending = s.pending := rfl
@[simp] theorem State.updTim_phase (f : TimeUnit → TimeUnit) : (s.updTim f).phase = s.phase := rfl
@[simp] theorem State.updTim_regs (f : TimeUnit → TimeUnit) : (s.updTim f).regs = s.regs := rfl
@[simp] theorem State.updTim_latch (f : TimeUnit → TimeUnit) : (s.updTim f).latch = s.latch := rfl
@[simp] theorem State.updTim_mem (f : TimeUnit → TimeUnit) : (s.updTim f).mem = s.mem := rfl
@[simp] theorem State.updTim_ecc (f : TimeUnit → TimeUnit) : (s.updTim f).ecc = s.ecc := rfl
@[simp] theorem State.updTim_links (f : TimeUnit → TimeUnit) : (s.updTim f).links = s.links := rfl
@[simp] theorem State.updTim_ddr (f : TimeUnit → TimeUnit) : (s.updTim f).ddr = s.ddr := rfl
@[simp] theorem State.updTim_ddrCap (f : TimeUnit → TimeUnit) : (s.updTim f).ddrCap = s.ddrCap := rfl
@[simp] theorem State.updTim_writeback (f : TimeUnit → TimeUnit) : (s.updTim f).writeback = s.writeback := rfl
@[simp] theorem State.updTim_refNs (f : TimeUnit → TimeUnit) : (s.updTim f).refNs = s.refNs := rfl
@[simp] theorem State.updTim_freeN (f : TimeUnit → TimeUnit) : (s.updTim f).freeN = s.freeN := rfl
@[simp] theorem State.updTim_tal (f : TimeUnit → TimeUnit) : (s.updTim f).tal = s.tal := rfl
@[simp] theorem State.updTim_cmd (f : TimeUnit → TimeUnit) : (s.updTim f).cmd = s.cmd := rfl
@[simp] theorem State.updTim_sch (f : TimeUnit → TimeUnit) : (s.updTim f).sch = s.sch := rfl
@[simp] theorem State.updTim_graphs (f : TimeUnit → TimeUnit) : (s.updTim f).graphs = s.graphs := rfl
@[simp] theorem State.updTim_cores (f : TimeUnit → TimeUnit) : (s.updTim f).cores = s.cores := rfl
@[simp] theorem State.updTim_holds (f : TimeUnit → TimeUnit) : (s.updTim f).holds = s.holds := rfl
@[simp] theorem State.updTim_ctxHurt (f : TimeUnit → TimeUnit) : (s.updTim f).ctxHurt = s.ctxHurt := rfl
@[simp] theorem State.updTim_board (f : TimeUnit → TimeUnit) : (s.updTim f).board = s.board := rfl
@[simp] theorem State.updTim_pwr (f : TimeUnit → TimeUnit) : (s.updTim f).pwr = s.pwr := rfl
@[simp] theorem State.updTim_bar (f : TimeUnit → TimeUnit) : (s.updTim f).bar = s.bar := rfl
@[simp] theorem State.updTim_eth (f : TimeUnit → TimeUnit) : (s.updTim f).eth = s.eth := rfl
@[simp] theorem State.updTim_bil (f : TimeUnit → TimeUnit) : (s.updTim f).bil = s.bil := rfl
@[simp] theorem State.updTim_streams (f : TimeUnit → TimeUnit) : (s.updTim f).streams = s.streams := rfl
@[simp] theorem State.updTim_isp (f : TimeUnit → TimeUnit) : (s.updTim f).isp = s.isp := rfl
@[simp] theorem State.updTim_age (f : TimeUnit → TimeUnit) : (s.updTim f).age = s.age := rfl
@[simp] theorem State.updTim_dig (f : TimeUnit → TimeUnit) : (s.updTim f).dig = s.dig := rfl
@[simp] theorem State.updTim_sec (f : TimeUnit → TimeUnit) : (s.updTim f).sec = s.sec := rfl
@[simp] theorem State.updTim_fw (f : TimeUnit → TimeUnit) : (s.updTim f).fw = s.fw := rfl
@[simp] theorem State.updTim_swr (f : TimeUnit → TimeUnit) : (s.updTim f).swr = s.swr := rfl
@[simp] theorem State.updTim_tap (f : TimeUnit → TimeUnit) : (s.updTim f).tap = s.tap := rfl
@[simp] theorem State.updTim_out (f : TimeUnit → TimeUnit) : (s.updTim f).out = s.out := rfl
@[simp] theorem State.updTim_rd (f : TimeUnit → TimeUnit) (r : Nat) : (s.updTim f).rd r = s.rd r := rfl
@[simp] theorem State.updTim_fld (f : TimeUnit → TimeUnit) (r h l : Nat) : (s.updTim f).fld r h l = s.fld r h l := rfl
@[simp] theorem State.updTim_bit (f : TimeUnit → TimeUnit) (r k : Nat) : (s.updTim f).bit r k = s.bit r k := rfl
@[simp] theorem State.updTim_byte (f : TimeUnit → TimeUnit) (x : Nat) : (s.updTim f).byte x = s.byte x := rfl
@[simp] theorem State.updTim_job (f : TimeUnit → TimeUnit) (i : Nat) : (s.updTim f).job? i = s.job? i := rfl

/-! ### updCmdPlane -/

@[simp] theorem State.updCmdPlane_pending (f : CmdPlane → CmdPlane) : (s.updCmdPlane f).pending = s.pending := rfl
@[simp] theorem State.updCmdPlane_phase (f : CmdPlane → CmdPlane) : (s.updCmdPlane f).phase = s.phase := rfl
@[simp] theorem State.updCmdPlane_regs (f : CmdPlane → CmdPlane) : (s.updCmdPlane f).regs = s.regs := rfl
@[simp] theorem State.updCmdPlane_latch (f : CmdPlane → CmdPlane) : (s.updCmdPlane f).latch = s.latch := rfl
@[simp] theorem State.updCmdPlane_mem (f : CmdPlane → CmdPlane) : (s.updCmdPlane f).mem = s.mem := rfl
@[simp] theorem State.updCmdPlane_ecc (f : CmdPlane → CmdPlane) : (s.updCmdPlane f).ecc = s.ecc := rfl
@[simp] theorem State.updCmdPlane_links (f : CmdPlane → CmdPlane) : (s.updCmdPlane f).links = s.links := rfl
@[simp] theorem State.updCmdPlane_ddr (f : CmdPlane → CmdPlane) : (s.updCmdPlane f).ddr = s.ddr := rfl
@[simp] theorem State.updCmdPlane_ddrCap (f : CmdPlane → CmdPlane) : (s.updCmdPlane f).ddrCap = s.ddrCap := rfl
@[simp] theorem State.updCmdPlane_writeback (f : CmdPlane → CmdPlane) : (s.updCmdPlane f).writeback = s.writeback := rfl
@[simp] theorem State.updCmdPlane_refNs (f : CmdPlane → CmdPlane) : (s.updCmdPlane f).refNs = s.refNs := rfl
@[simp] theorem State.updCmdPlane_freeN (f : CmdPlane → CmdPlane) : (s.updCmdPlane f).freeN = s.freeN := rfl
@[simp] theorem State.updCmdPlane_tal (f : CmdPlane → CmdPlane) : (s.updCmdPlane f).tal = s.tal := rfl
@[simp] theorem State.updCmdPlane_tim (f : CmdPlane → CmdPlane) : (s.updCmdPlane f).tim = s.tim := rfl
@[simp] theorem State.updCmdPlane_sch (f : CmdPlane → CmdPlane) : (s.updCmdPlane f).sch = s.sch := rfl
@[simp] theorem State.updCmdPlane_graphs (f : CmdPlane → CmdPlane) : (s.updCmdPlane f).graphs = s.graphs := rfl
@[simp] theorem State.updCmdPlane_cores (f : CmdPlane → CmdPlane) : (s.updCmdPlane f).cores = s.cores := rfl
@[simp] theorem State.updCmdPlane_holds (f : CmdPlane → CmdPlane) : (s.updCmdPlane f).holds = s.holds := rfl
@[simp] theorem State.updCmdPlane_ctxHurt (f : CmdPlane → CmdPlane) : (s.updCmdPlane f).ctxHurt = s.ctxHurt := rfl
@[simp] theorem State.updCmdPlane_board (f : CmdPlane → CmdPlane) : (s.updCmdPlane f).board = s.board := rfl
@[simp] theorem State.updCmdPlane_pwr (f : CmdPlane → CmdPlane) : (s.updCmdPlane f).pwr = s.pwr := rfl
@[simp] theorem State.updCmdPlane_bar (f : CmdPlane → CmdPlane) : (s.updCmdPlane f).bar = s.bar := rfl
@[simp] theorem State.updCmdPlane_eth (f : CmdPlane → CmdPlane) : (s.updCmdPlane f).eth = s.eth := rfl
@[simp] theorem State.updCmdPlane_bil (f : CmdPlane → CmdPlane) : (s.updCmdPlane f).bil = s.bil := rfl
@[simp] theorem State.updCmdPlane_streams (f : CmdPlane → CmdPlane) : (s.updCmdPlane f).streams = s.streams := rfl
@[simp] theorem State.updCmdPlane_isp (f : CmdPlane → CmdPlane) : (s.updCmdPlane f).isp = s.isp := rfl
@[simp] theorem State.updCmdPlane_age (f : CmdPlane → CmdPlane) : (s.updCmdPlane f).age = s.age := rfl
@[simp] theorem State.updCmdPlane_dig (f : CmdPlane → CmdPlane) : (s.updCmdPlane f).dig = s.dig := rfl
@[simp] theorem State.updCmdPlane_sec (f : CmdPlane → CmdPlane) : (s.updCmdPlane f).sec = s.sec := rfl
@[simp] theorem State.updCmdPlane_fw (f : CmdPlane → CmdPlane) : (s.updCmdPlane f).fw = s.fw := rfl
@[simp] theorem State.updCmdPlane_swr (f : CmdPlane → CmdPlane) : (s.updCmdPlane f).swr = s.swr := rfl
@[simp] theorem State.updCmdPlane_tap (f : CmdPlane → CmdPlane) : (s.updCmdPlane f).tap = s.tap := rfl
@[simp] theorem State.updCmdPlane_out (f : CmdPlane → CmdPlane) : (s.updCmdPlane f).out = s.out := rfl
@[simp] theorem State.updCmdPlane_rd (f : CmdPlane → CmdPlane) (r : Nat) : (s.updCmdPlane f).rd r = s.rd r := rfl
@[simp] theorem State.updCmdPlane_fld (f : CmdPlane → CmdPlane) (r h l : Nat) : (s.updCmdPlane f).fld r h l = s.fld r h l := rfl
@[simp] theorem State.updCmdPlane_bit (f : CmdPlane → CmdPlane) (r k : Nat) : (s.updCmdPlane f).bit r k = s.bit r k := rfl
@[simp] theorem State.updCmdPlane_byte (f : CmdPlane → CmdPlane) (x : Nat) : (s.updCmdPlane f).byte x = s.byte x := rfl

/-! ### updJob -/

@[simp] theorem State.updJob_pending (i : Nat) (f : Job → Job) : (s.updJob i f).pending = s.pending := rfl
@[simp] theorem State.updJob_phase (i : Nat) (f : Job → Job) : (s.updJob i f).phase = s.phase := rfl
@[simp] theorem State.updJob_regs (i : Nat) (f : Job → Job) : (s.updJob i f).regs = s.regs := rfl
@[simp] theorem State.updJob_latch (i : Nat) (f : Job → Job) : (s.updJob i f).latch = s.latch := rfl
@[simp] theorem State.updJob_mem (i : Nat) (f : Job → Job) : (s.updJob i f).mem = s.mem := rfl
@[simp] theorem State.updJob_ecc (i : Nat) (f : Job → Job) : (s.updJob i f).ecc = s.ecc := rfl
@[simp] theorem State.updJob_links (i : Nat) (f : Job → Job) : (s.updJob i f).links = s.links := rfl
@[simp] theorem State.updJob_ddr (i : Nat) (f : Job → Job) : (s.updJob i f).ddr = s.ddr := rfl
@[simp] theorem State.updJob_ddrCap (i : Nat) (f : Job → Job) : (s.updJob i f).ddrCap = s.ddrCap := rfl
@[simp] theorem State.updJob_writeback (i : Nat) (f : Job → Job) : (s.updJob i f).writeback = s.writeback := rfl
@[simp] theorem State.updJob_refNs (i : Nat) (f : Job → Job) : (s.updJob i f).refNs = s.refNs := rfl
@[simp] theorem State.updJob_freeN (i : Nat) (f : Job → Job) : (s.updJob i f).freeN = s.freeN := rfl
@[simp] theorem State.updJob_tal (i : Nat) (f : Job → Job) : (s.updJob i f).tal = s.tal := rfl
@[simp] theorem State.updJob_tim (i : Nat) (f : Job → Job) : (s.updJob i f).tim = s.tim := rfl
@[simp] theorem State.updJob_sch (i : Nat) (f : Job → Job) : (s.updJob i f).sch = s.sch := rfl
@[simp] theorem State.updJob_graphs (i : Nat) (f : Job → Job) : (s.updJob i f).graphs = s.graphs := rfl
@[simp] theorem State.updJob_cores (i : Nat) (f : Job → Job) : (s.updJob i f).cores = s.cores := rfl
@[simp] theorem State.updJob_holds (i : Nat) (f : Job → Job) : (s.updJob i f).holds = s.holds := rfl
@[simp] theorem State.updJob_ctxHurt (i : Nat) (f : Job → Job) : (s.updJob i f).ctxHurt = s.ctxHurt := rfl
@[simp] theorem State.updJob_board (i : Nat) (f : Job → Job) : (s.updJob i f).board = s.board := rfl
@[simp] theorem State.updJob_pwr (i : Nat) (f : Job → Job) : (s.updJob i f).pwr = s.pwr := rfl
@[simp] theorem State.updJob_bar (i : Nat) (f : Job → Job) : (s.updJob i f).bar = s.bar := rfl
@[simp] theorem State.updJob_eth (i : Nat) (f : Job → Job) : (s.updJob i f).eth = s.eth := rfl
@[simp] theorem State.updJob_bil (i : Nat) (f : Job → Job) : (s.updJob i f).bil = s.bil := rfl
@[simp] theorem State.updJob_streams (i : Nat) (f : Job → Job) : (s.updJob i f).streams = s.streams := rfl
@[simp] theorem State.updJob_isp (i : Nat) (f : Job → Job) : (s.updJob i f).isp = s.isp := rfl
@[simp] theorem State.updJob_age (i : Nat) (f : Job → Job) : (s.updJob i f).age = s.age := rfl
@[simp] theorem State.updJob_dig (i : Nat) (f : Job → Job) : (s.updJob i f).dig = s.dig := rfl
@[simp] theorem State.updJob_sec (i : Nat) (f : Job → Job) : (s.updJob i f).sec = s.sec := rfl
@[simp] theorem State.updJob_fw (i : Nat) (f : Job → Job) : (s.updJob i f).fw = s.fw := rfl
@[simp] theorem State.updJob_swr (i : Nat) (f : Job → Job) : (s.updJob i f).swr = s.swr := rfl
@[simp] theorem State.updJob_tap (i : Nat) (f : Job → Job) : (s.updJob i f).tap = s.tap := rfl
@[simp] theorem State.updJob_out (i : Nat) (f : Job → Job) : (s.updJob i f).out = s.out := rfl
@[simp] theorem State.updJob_rd (i : Nat) (f : Job → Job) (r : Nat) : (s.updJob i f).rd r = s.rd r := rfl
@[simp] theorem State.updJob_fld (i : Nat) (f : Job → Job) (r h l : Nat) : (s.updJob i f).fld r h l = s.fld r h l := rfl
@[simp] theorem State.updJob_bit (i : Nat) (f : Job → Job) (r k : Nat) : (s.updJob i f).bit r k = s.bit r k := rfl
@[simp] theorem State.updJob_byte (i : Nat) (f : Job → Job) (x : Nat) : (s.updJob i f).byte x = s.byte x := rfl

/-! ### updRing -/

@[simp] theorem State.updRing_pending (n : Nat) (f : Ring → Ring) : (s.updRing n f).pending = s.pending := rfl
@[simp] theorem State.updRing_phase (n : Nat) (f : Ring → Ring) : (s.updRing n f).phase = s.phase := rfl
@[simp] theorem State.updRing_regs (n : Nat) (f : Ring → Ring) : (s.updRing n f).regs = s.regs := rfl
@[simp] theorem State.updRing_latch (n : Nat) (f : Ring → Ring) : (s.updRing n f).latch = s.latch := rfl
@[simp] theorem State.updRing_mem (n : Nat) (f : Ring → Ring) : (s.updRing n f).mem = s.mem := rfl
@[simp] theorem State.updRing_ecc (n : Nat) (f : Ring → Ring) : (s.updRing n f).ecc = s.ecc := rfl
@[simp] theorem State.updRing_links (n : Nat) (f : Ring → Ring) : (s.updRing n f).links = s.links := rfl
@[simp] theorem State.updRing_ddr (n : Nat) (f : Ring → Ring) : (s.updRing n f).ddr = s.ddr := rfl
@[simp] theorem State.updRing_ddrCap (n : Nat) (f : Ring → Ring) : (s.updRing n f).ddrCap = s.ddrCap := rfl
@[simp] theorem State.updRing_writeback (n : Nat) (f : Ring → Ring) : (s.updRing n f).writeback = s.writeback := rfl
@[simp] theorem State.updRing_refNs (n : Nat) (f : Ring → Ring) : (s.updRing n f).refNs = s.refNs := rfl
@[simp] theorem State.updRing_freeN (n : Nat) (f : Ring → Ring) : (s.updRing n f).freeN = s.freeN := rfl
@[simp] theorem State.updRing_tal (n : Nat) (f : Ring → Ring) : (s.updRing n f).tal = s.tal := rfl
@[simp] theorem State.updRing_tim (n : Nat) (f : Ring → Ring) : (s.updRing n f).tim = s.tim := rfl
@[simp] theorem State.updRing_sch (n : Nat) (f : Ring → Ring) : (s.updRing n f).sch = s.sch := rfl
@[simp] theorem State.updRing_graphs (n : Nat) (f : Ring → Ring) : (s.updRing n f).graphs = s.graphs := rfl
@[simp] theorem State.updRing_cores (n : Nat) (f : Ring → Ring) : (s.updRing n f).cores = s.cores := rfl
@[simp] theorem State.updRing_holds (n : Nat) (f : Ring → Ring) : (s.updRing n f).holds = s.holds := rfl
@[simp] theorem State.updRing_ctxHurt (n : Nat) (f : Ring → Ring) : (s.updRing n f).ctxHurt = s.ctxHurt := rfl
@[simp] theorem State.updRing_board (n : Nat) (f : Ring → Ring) : (s.updRing n f).board = s.board := rfl
@[simp] theorem State.updRing_pwr (n : Nat) (f : Ring → Ring) : (s.updRing n f).pwr = s.pwr := rfl
@[simp] theorem State.updRing_bar (n : Nat) (f : Ring → Ring) : (s.updRing n f).bar = s.bar := rfl
@[simp] theorem State.updRing_eth (n : Nat) (f : Ring → Ring) : (s.updRing n f).eth = s.eth := rfl
@[simp] theorem State.updRing_bil (n : Nat) (f : Ring → Ring) : (s.updRing n f).bil = s.bil := rfl
@[simp] theorem State.updRing_streams (n : Nat) (f : Ring → Ring) : (s.updRing n f).streams = s.streams := rfl
@[simp] theorem State.updRing_isp (n : Nat) (f : Ring → Ring) : (s.updRing n f).isp = s.isp := rfl
@[simp] theorem State.updRing_age (n : Nat) (f : Ring → Ring) : (s.updRing n f).age = s.age := rfl
@[simp] theorem State.updRing_dig (n : Nat) (f : Ring → Ring) : (s.updRing n f).dig = s.dig := rfl
@[simp] theorem State.updRing_sec (n : Nat) (f : Ring → Ring) : (s.updRing n f).sec = s.sec := rfl
@[simp] theorem State.updRing_fw (n : Nat) (f : Ring → Ring) : (s.updRing n f).fw = s.fw := rfl
@[simp] theorem State.updRing_swr (n : Nat) (f : Ring → Ring) : (s.updRing n f).swr = s.swr := rfl
@[simp] theorem State.updRing_tap (n : Nat) (f : Ring → Ring) : (s.updRing n f).tap = s.tap := rfl
@[simp] theorem State.updRing_out (n : Nat) (f : Ring → Ring) : (s.updRing n f).out = s.out := rfl
@[simp] theorem State.updRing_rd (n : Nat) (f : Ring → Ring) (r : Nat) : (s.updRing n f).rd r = s.rd r := rfl
@[simp] theorem State.updRing_fld (n : Nat) (f : Ring → Ring) (r h l : Nat) : (s.updRing n f).fld r h l = s.fld r h l := rfl
@[simp] theorem State.updRing_bit (n : Nat) (f : Ring → Ring) (r k : Nat) : (s.updRing n f).bit r k = s.bit r k := rfl
@[simp] theorem State.updRing_byte (n : Nat) (f : Ring → Ring) (x : Nat) : (s.updRing n f).byte x = s.byte x := rfl

/-! ### updSched -/

@[simp] theorem State.updSched_pending (f : Sched → Sched) : (s.updSched f).pending = s.pending := rfl
@[simp] theorem State.updSched_phase (f : Sched → Sched) : (s.updSched f).phase = s.phase := rfl
@[simp] theorem State.updSched_regs (f : Sched → Sched) : (s.updSched f).regs = s.regs := rfl
@[simp] theorem State.updSched_latch (f : Sched → Sched) : (s.updSched f).latch = s.latch := rfl
@[simp] theorem State.updSched_mem (f : Sched → Sched) : (s.updSched f).mem = s.mem := rfl
@[simp] theorem State.updSched_ecc (f : Sched → Sched) : (s.updSched f).ecc = s.ecc := rfl
@[simp] theorem State.updSched_links (f : Sched → Sched) : (s.updSched f).links = s.links := rfl
@[simp] theorem State.updSched_ddr (f : Sched → Sched) : (s.updSched f).ddr = s.ddr := rfl
@[simp] theorem State.updSched_ddrCap (f : Sched → Sched) : (s.updSched f).ddrCap = s.ddrCap := rfl
@[simp] theorem State.updSched_writeback (f : Sched → Sched) : (s.updSched f).writeback = s.writeback := rfl
@[simp] theorem State.updSched_refNs (f : Sched → Sched) : (s.updSched f).refNs = s.refNs := rfl
@[simp] theorem State.updSched_freeN (f : Sched → Sched) : (s.updSched f).freeN = s.freeN := rfl
@[simp] theorem State.updSched_tal (f : Sched → Sched) : (s.updSched f).tal = s.tal := rfl
@[simp] theorem State.updSched_tim (f : Sched → Sched) : (s.updSched f).tim = s.tim := rfl
@[simp] theorem State.updSched_cmd (f : Sched → Sched) : (s.updSched f).cmd = s.cmd := rfl
@[simp] theorem State.updSched_graphs (f : Sched → Sched) : (s.updSched f).graphs = s.graphs := rfl
@[simp] theorem State.updSched_cores (f : Sched → Sched) : (s.updSched f).cores = s.cores := rfl
@[simp] theorem State.updSched_holds (f : Sched → Sched) : (s.updSched f).holds = s.holds := rfl
@[simp] theorem State.updSched_ctxHurt (f : Sched → Sched) : (s.updSched f).ctxHurt = s.ctxHurt := rfl
@[simp] theorem State.updSched_board (f : Sched → Sched) : (s.updSched f).board = s.board := rfl
@[simp] theorem State.updSched_pwr (f : Sched → Sched) : (s.updSched f).pwr = s.pwr := rfl
@[simp] theorem State.updSched_bar (f : Sched → Sched) : (s.updSched f).bar = s.bar := rfl
@[simp] theorem State.updSched_eth (f : Sched → Sched) : (s.updSched f).eth = s.eth := rfl
@[simp] theorem State.updSched_bil (f : Sched → Sched) : (s.updSched f).bil = s.bil := rfl
@[simp] theorem State.updSched_streams (f : Sched → Sched) : (s.updSched f).streams = s.streams := rfl
@[simp] theorem State.updSched_isp (f : Sched → Sched) : (s.updSched f).isp = s.isp := rfl
@[simp] theorem State.updSched_age (f : Sched → Sched) : (s.updSched f).age = s.age := rfl
@[simp] theorem State.updSched_dig (f : Sched → Sched) : (s.updSched f).dig = s.dig := rfl
@[simp] theorem State.updSched_sec (f : Sched → Sched) : (s.updSched f).sec = s.sec := rfl
@[simp] theorem State.updSched_fw (f : Sched → Sched) : (s.updSched f).fw = s.fw := rfl
@[simp] theorem State.updSched_swr (f : Sched → Sched) : (s.updSched f).swr = s.swr := rfl
@[simp] theorem State.updSched_tap (f : Sched → Sched) : (s.updSched f).tap = s.tap := rfl
@[simp] theorem State.updSched_out (f : Sched → Sched) : (s.updSched f).out = s.out := rfl
@[simp] theorem State.updSched_rd (f : Sched → Sched) (r : Nat) : (s.updSched f).rd r = s.rd r := rfl
@[simp] theorem State.updSched_fld (f : Sched → Sched) (r h l : Nat) : (s.updSched f).fld r h l = s.fld r h l := rfl
@[simp] theorem State.updSched_bit (f : Sched → Sched) (r k : Nat) : (s.updSched f).bit r k = s.bit r k := rfl
@[simp] theorem State.updSched_byte (f : Sched → Sched) (x : Nat) : (s.updSched f).byte x = s.byte x := rfl
@[simp] theorem State.updSched_job (f : Sched → Sched) (i : Nat) : (s.updSched f).job? i = s.job? i := rfl

/-! ### updGraph -/

@[simp] theorem State.updGraph_pending (n : Nat) (f : Graph → Graph) : (s.updGraph n f).pending = s.pending := rfl
@[simp] theorem State.updGraph_phase (n : Nat) (f : Graph → Graph) : (s.updGraph n f).phase = s.phase := rfl
@[simp] theorem State.updGraph_regs (n : Nat) (f : Graph → Graph) : (s.updGraph n f).regs = s.regs := rfl
@[simp] theorem State.updGraph_latch (n : Nat) (f : Graph → Graph) : (s.updGraph n f).latch = s.latch := rfl
@[simp] theorem State.updGraph_mem (n : Nat) (f : Graph → Graph) : (s.updGraph n f).mem = s.mem := rfl
@[simp] theorem State.updGraph_ecc (n : Nat) (f : Graph → Graph) : (s.updGraph n f).ecc = s.ecc := rfl
@[simp] theorem State.updGraph_links (n : Nat) (f : Graph → Graph) : (s.updGraph n f).links = s.links := rfl
@[simp] theorem State.updGraph_ddr (n : Nat) (f : Graph → Graph) : (s.updGraph n f).ddr = s.ddr := rfl
@[simp] theorem State.updGraph_ddrCap (n : Nat) (f : Graph → Graph) : (s.updGraph n f).ddrCap = s.ddrCap := rfl
@[simp] theorem State.updGraph_writeback (n : Nat) (f : Graph → Graph) : (s.updGraph n f).writeback = s.writeback := rfl
@[simp] theorem State.updGraph_refNs (n : Nat) (f : Graph → Graph) : (s.updGraph n f).refNs = s.refNs := rfl
@[simp] theorem State.updGraph_freeN (n : Nat) (f : Graph → Graph) : (s.updGraph n f).freeN = s.freeN := rfl
@[simp] theorem State.updGraph_tal (n : Nat) (f : Graph → Graph) : (s.updGraph n f).tal = s.tal := rfl
@[simp] theorem State.updGraph_tim (n : Nat) (f : Graph → Graph) : (s.updGraph n f).tim = s.tim := rfl
@[simp] theorem State.updGraph_cmd (n : Nat) (f : Graph → Graph) : (s.updGraph n f).cmd = s.cmd := rfl
@[simp] theorem State.updGraph_sch (n : Nat) (f : Graph → Graph) : (s.updGraph n f).sch = s.sch := rfl
@[simp] theorem State.updGraph_cores (n : Nat) (f : Graph → Graph) : (s.updGraph n f).cores = s.cores := rfl
@[simp] theorem State.updGraph_holds (n : Nat) (f : Graph → Graph) : (s.updGraph n f).holds = s.holds := rfl
@[simp] theorem State.updGraph_ctxHurt (n : Nat) (f : Graph → Graph) : (s.updGraph n f).ctxHurt = s.ctxHurt := rfl
@[simp] theorem State.updGraph_board (n : Nat) (f : Graph → Graph) : (s.updGraph n f).board = s.board := rfl
@[simp] theorem State.updGraph_pwr (n : Nat) (f : Graph → Graph) : (s.updGraph n f).pwr = s.pwr := rfl
@[simp] theorem State.updGraph_bar (n : Nat) (f : Graph → Graph) : (s.updGraph n f).bar = s.bar := rfl
@[simp] theorem State.updGraph_eth (n : Nat) (f : Graph → Graph) : (s.updGraph n f).eth = s.eth := rfl
@[simp] theorem State.updGraph_bil (n : Nat) (f : Graph → Graph) : (s.updGraph n f).bil = s.bil := rfl
@[simp] theorem State.updGraph_streams (n : Nat) (f : Graph → Graph) : (s.updGraph n f).streams = s.streams := rfl
@[simp] theorem State.updGraph_isp (n : Nat) (f : Graph → Graph) : (s.updGraph n f).isp = s.isp := rfl
@[simp] theorem State.updGraph_age (n : Nat) (f : Graph → Graph) : (s.updGraph n f).age = s.age := rfl
@[simp] theorem State.updGraph_dig (n : Nat) (f : Graph → Graph) : (s.updGraph n f).dig = s.dig := rfl
@[simp] theorem State.updGraph_sec (n : Nat) (f : Graph → Graph) : (s.updGraph n f).sec = s.sec := rfl
@[simp] theorem State.updGraph_fw (n : Nat) (f : Graph → Graph) : (s.updGraph n f).fw = s.fw := rfl
@[simp] theorem State.updGraph_swr (n : Nat) (f : Graph → Graph) : (s.updGraph n f).swr = s.swr := rfl
@[simp] theorem State.updGraph_tap (n : Nat) (f : Graph → Graph) : (s.updGraph n f).tap = s.tap := rfl
@[simp] theorem State.updGraph_out (n : Nat) (f : Graph → Graph) : (s.updGraph n f).out = s.out := rfl
@[simp] theorem State.updGraph_rd (n : Nat) (f : Graph → Graph) (r : Nat) : (s.updGraph n f).rd r = s.rd r := rfl
@[simp] theorem State.updGraph_fld (n : Nat) (f : Graph → Graph) (r h l : Nat) : (s.updGraph n f).fld r h l = s.fld r h l := rfl
@[simp] theorem State.updGraph_bit (n : Nat) (f : Graph → Graph) (r k : Nat) : (s.updGraph n f).bit r k = s.bit r k := rfl
@[simp] theorem State.updGraph_byte (n : Nat) (f : Graph → Graph) (x : Nat) : (s.updGraph n f).byte x = s.byte x := rfl
@[simp] theorem State.updGraph_job (n : Nat) (f : Graph → Graph) (i : Nat) : (s.updGraph n f).job? i = s.job? i := rfl

/-! ### updCore -/

@[simp] theorem State.updCore_pending (g : Nat) (f : Core → Core) : (s.updCore g f).pending = s.pending := rfl
@[simp] theorem State.updCore_phase (g : Nat) (f : Core → Core) : (s.updCore g f).phase = s.phase := rfl
@[simp] theorem State.updCore_regs (g : Nat) (f : Core → Core) : (s.updCore g f).regs = s.regs := rfl
@[simp] theorem State.updCore_latch (g : Nat) (f : Core → Core) : (s.updCore g f).latch = s.latch := rfl
@[simp] theorem State.updCore_mem (g : Nat) (f : Core → Core) : (s.updCore g f).mem = s.mem := rfl
@[simp] theorem State.updCore_ecc (g : Nat) (f : Core → Core) : (s.updCore g f).ecc = s.ecc := rfl
@[simp] theorem State.updCore_links (g : Nat) (f : Core → Core) : (s.updCore g f).links = s.links := rfl
@[simp] theorem State.updCore_ddr (g : Nat) (f : Core → Core) : (s.updCore g f).ddr = s.ddr := rfl
@[simp] theorem State.updCore_ddrCap (g : Nat) (f : Core → Core) : (s.updCore g f).ddrCap = s.ddrCap := rfl
@[simp] theorem State.updCore_writeback (g : Nat) (f : Core → Core) : (s.updCore g f).writeback = s.writeback := rfl
@[simp] theorem State.updCore_refNs (g : Nat) (f : Core → Core) : (s.updCore g f).refNs = s.refNs := rfl
@[simp] theorem State.updCore_freeN (g : Nat) (f : Core → Core) : (s.updCore g f).freeN = s.freeN := rfl
@[simp] theorem State.updCore_tal (g : Nat) (f : Core → Core) : (s.updCore g f).tal = s.tal := rfl
@[simp] theorem State.updCore_tim (g : Nat) (f : Core → Core) : (s.updCore g f).tim = s.tim := rfl
@[simp] theorem State.updCore_cmd (g : Nat) (f : Core → Core) : (s.updCore g f).cmd = s.cmd := rfl
@[simp] theorem State.updCore_sch (g : Nat) (f : Core → Core) : (s.updCore g f).sch = s.sch := rfl
@[simp] theorem State.updCore_graphs (g : Nat) (f : Core → Core) : (s.updCore g f).graphs = s.graphs := rfl
@[simp] theorem State.updCore_holds (g : Nat) (f : Core → Core) : (s.updCore g f).holds = s.holds := rfl
@[simp] theorem State.updCore_ctxHurt (g : Nat) (f : Core → Core) : (s.updCore g f).ctxHurt = s.ctxHurt := rfl
@[simp] theorem State.updCore_board (g : Nat) (f : Core → Core) : (s.updCore g f).board = s.board := rfl
@[simp] theorem State.updCore_pwr (g : Nat) (f : Core → Core) : (s.updCore g f).pwr = s.pwr := rfl
@[simp] theorem State.updCore_bar (g : Nat) (f : Core → Core) : (s.updCore g f).bar = s.bar := rfl
@[simp] theorem State.updCore_eth (g : Nat) (f : Core → Core) : (s.updCore g f).eth = s.eth := rfl
@[simp] theorem State.updCore_bil (g : Nat) (f : Core → Core) : (s.updCore g f).bil = s.bil := rfl
@[simp] theorem State.updCore_streams (g : Nat) (f : Core → Core) : (s.updCore g f).streams = s.streams := rfl
@[simp] theorem State.updCore_isp (g : Nat) (f : Core → Core) : (s.updCore g f).isp = s.isp := rfl
@[simp] theorem State.updCore_age (g : Nat) (f : Core → Core) : (s.updCore g f).age = s.age := rfl
@[simp] theorem State.updCore_dig (g : Nat) (f : Core → Core) : (s.updCore g f).dig = s.dig := rfl
@[simp] theorem State.updCore_sec (g : Nat) (f : Core → Core) : (s.updCore g f).sec = s.sec := rfl
@[simp] theorem State.updCore_fw (g : Nat) (f : Core → Core) : (s.updCore g f).fw = s.fw := rfl
@[simp] theorem State.updCore_swr (g : Nat) (f : Core → Core) : (s.updCore g f).swr = s.swr := rfl
@[simp] theorem State.updCore_tap (g : Nat) (f : Core → Core) : (s.updCore g f).tap = s.tap := rfl
@[simp] theorem State.updCore_out (g : Nat) (f : Core → Core) : (s.updCore g f).out = s.out := rfl
@[simp] theorem State.updCore_rd (g : Nat) (f : Core → Core) (r : Nat) : (s.updCore g f).rd r = s.rd r := rfl
@[simp] theorem State.updCore_fld (g : Nat) (f : Core → Core) (r h l : Nat) : (s.updCore g f).fld r h l = s.fld r h l := rfl
@[simp] theorem State.updCore_bit (g : Nat) (f : Core → Core) (r k : Nat) : (s.updCore g f).bit r k = s.bit r k := rfl
@[simp] theorem State.updCore_byte (g : Nat) (f : Core → Core) (x : Nat) : (s.updCore g f).byte x = s.byte x := rfl
@[simp] theorem State.updCore_job (g : Nat) (f : Core → Core) (i : Nat) : (s.updCore g f).job? i = s.job? i := rfl

/-! ### updBoard -/

@[simp] theorem State.updBoard_pending (f : Board → Board) : (s.updBoard f).pending = s.pending := rfl
@[simp] theorem State.updBoard_phase (f : Board → Board) : (s.updBoard f).phase = s.phase := rfl
@[simp] theorem State.updBoard_regs (f : Board → Board) : (s.updBoard f).regs = s.regs := rfl
@[simp] theorem State.updBoard_latch (f : Board → Board) : (s.updBoard f).latch = s.latch := rfl
@[simp] theorem State.updBoard_mem (f : Board → Board) : (s.updBoard f).mem = s.mem := rfl
@[simp] theorem State.updBoard_ecc (f : Board → Board) : (s.updBoard f).ecc = s.ecc := rfl
@[simp] theorem State.updBoard_links (f : Board → Board) : (s.updBoard f).links = s.links := rfl
@[simp] theorem State.updBoard_ddr (f : Board → Board) : (s.updBoard f).ddr = s.ddr := rfl
@[simp] theorem State.updBoard_ddrCap (f : Board → Board) : (s.updBoard f).ddrCap = s.ddrCap := rfl
@[simp] theorem State.updBoard_writeback (f : Board → Board) : (s.updBoard f).writeback = s.writeback := rfl
@[simp] theorem State.updBoard_refNs (f : Board → Board) : (s.updBoard f).refNs = s.refNs := rfl
@[simp] theorem State.updBoard_freeN (f : Board → Board) : (s.updBoard f).freeN = s.freeN := rfl
@[simp] theorem State.updBoard_tal (f : Board → Board) : (s.updBoard f).tal = s.tal := rfl
@[simp] theorem State.updBoard_tim (f : Board → Board) : (s.updBoard f).tim = s.tim := rfl
@[simp] theorem State.updBoard_cmd (f : Board → Board) : (s.updBoard f).cmd = s.cmd := rfl
@[simp] theorem State.updBoard_sch (f : Board → Board) : (s.updBoard f).sch = s.sch := rfl
@[simp] theorem State.updBoard_graphs (f : Board → Board) : (s.updBoard f).graphs = s.graphs := rfl
@[simp] theorem State.updBoard_cores (f : Board → Board) : (s.updBoard f).cores = s.cores := rfl
@[simp] theorem State.updBoard_holds (f : Board → Board) : (s.updBoard f).holds = s.holds := rfl
@[simp] theorem State.updBoard_ctxHurt (f : Board → Board) : (s.updBoard f).ctxHurt = s.ctxHurt := rfl
@[simp] theorem State.updBoard_pwr (f : Board → Board) : (s.updBoard f).pwr = s.pwr := rfl
@[simp] theorem State.updBoard_bar (f : Board → Board) : (s.updBoard f).bar = s.bar := rfl
@[simp] theorem State.updBoard_eth (f : Board → Board) : (s.updBoard f).eth = s.eth := rfl
@[simp] theorem State.updBoard_bil (f : Board → Board) : (s.updBoard f).bil = s.bil := rfl
@[simp] theorem State.updBoard_streams (f : Board → Board) : (s.updBoard f).streams = s.streams := rfl
@[simp] theorem State.updBoard_isp (f : Board → Board) : (s.updBoard f).isp = s.isp := rfl
@[simp] theorem State.updBoard_age (f : Board → Board) : (s.updBoard f).age = s.age := rfl
@[simp] theorem State.updBoard_dig (f : Board → Board) : (s.updBoard f).dig = s.dig := rfl
@[simp] theorem State.updBoard_sec (f : Board → Board) : (s.updBoard f).sec = s.sec := rfl
@[simp] theorem State.updBoard_fw (f : Board → Board) : (s.updBoard f).fw = s.fw := rfl
@[simp] theorem State.updBoard_swr (f : Board → Board) : (s.updBoard f).swr = s.swr := rfl
@[simp] theorem State.updBoard_tap (f : Board → Board) : (s.updBoard f).tap = s.tap := rfl
@[simp] theorem State.updBoard_out (f : Board → Board) : (s.updBoard f).out = s.out := rfl
@[simp] theorem State.updBoard_rd (f : Board → Board) (r : Nat) : (s.updBoard f).rd r = s.rd r := rfl
@[simp] theorem State.updBoard_fld (f : Board → Board) (r h l : Nat) : (s.updBoard f).fld r h l = s.fld r h l := rfl
@[simp] theorem State.updBoard_bit (f : Board → Board) (r k : Nat) : (s.updBoard f).bit r k = s.bit r k := rfl
@[simp] theorem State.updBoard_byte (f : Board → Board) (x : Nat) : (s.updBoard f).byte x = s.byte x := rfl
@[simp] theorem State.updBoard_job (f : Board → Board) (i : Nat) : (s.updBoard f).job? i = s.job? i := rfl

/-! ### updPwr -/

@[simp] theorem State.updPwr_pending (f : Power → Power) : (s.updPwr f).pending = s.pending := rfl
@[simp] theorem State.updPwr_phase (f : Power → Power) : (s.updPwr f).phase = s.phase := rfl
@[simp] theorem State.updPwr_regs (f : Power → Power) : (s.updPwr f).regs = s.regs := rfl
@[simp] theorem State.updPwr_latch (f : Power → Power) : (s.updPwr f).latch = s.latch := rfl
@[simp] theorem State.updPwr_mem (f : Power → Power) : (s.updPwr f).mem = s.mem := rfl
@[simp] theorem State.updPwr_ecc (f : Power → Power) : (s.updPwr f).ecc = s.ecc := rfl
@[simp] theorem State.updPwr_links (f : Power → Power) : (s.updPwr f).links = s.links := rfl
@[simp] theorem State.updPwr_ddr (f : Power → Power) : (s.updPwr f).ddr = s.ddr := rfl
@[simp] theorem State.updPwr_ddrCap (f : Power → Power) : (s.updPwr f).ddrCap = s.ddrCap := rfl
@[simp] theorem State.updPwr_writeback (f : Power → Power) : (s.updPwr f).writeback = s.writeback := rfl
@[simp] theorem State.updPwr_refNs (f : Power → Power) : (s.updPwr f).refNs = s.refNs := rfl
@[simp] theorem State.updPwr_freeN (f : Power → Power) : (s.updPwr f).freeN = s.freeN := rfl
@[simp] theorem State.updPwr_tal (f : Power → Power) : (s.updPwr f).tal = s.tal := rfl
@[simp] theorem State.updPwr_tim (f : Power → Power) : (s.updPwr f).tim = s.tim := rfl
@[simp] theorem State.updPwr_cmd (f : Power → Power) : (s.updPwr f).cmd = s.cmd := rfl
@[simp] theorem State.updPwr_sch (f : Power → Power) : (s.updPwr f).sch = s.sch := rfl
@[simp] theorem State.updPwr_graphs (f : Power → Power) : (s.updPwr f).graphs = s.graphs := rfl
@[simp] theorem State.updPwr_cores (f : Power → Power) : (s.updPwr f).cores = s.cores := rfl
@[simp] theorem State.updPwr_holds (f : Power → Power) : (s.updPwr f).holds = s.holds := rfl
@[simp] theorem State.updPwr_ctxHurt (f : Power → Power) : (s.updPwr f).ctxHurt = s.ctxHurt := rfl
@[simp] theorem State.updPwr_board (f : Power → Power) : (s.updPwr f).board = s.board := rfl
@[simp] theorem State.updPwr_bar (f : Power → Power) : (s.updPwr f).bar = s.bar := rfl
@[simp] theorem State.updPwr_eth (f : Power → Power) : (s.updPwr f).eth = s.eth := rfl
@[simp] theorem State.updPwr_bil (f : Power → Power) : (s.updPwr f).bil = s.bil := rfl
@[simp] theorem State.updPwr_streams (f : Power → Power) : (s.updPwr f).streams = s.streams := rfl
@[simp] theorem State.updPwr_isp (f : Power → Power) : (s.updPwr f).isp = s.isp := rfl
@[simp] theorem State.updPwr_age (f : Power → Power) : (s.updPwr f).age = s.age := rfl
@[simp] theorem State.updPwr_dig (f : Power → Power) : (s.updPwr f).dig = s.dig := rfl
@[simp] theorem State.updPwr_sec (f : Power → Power) : (s.updPwr f).sec = s.sec := rfl
@[simp] theorem State.updPwr_fw (f : Power → Power) : (s.updPwr f).fw = s.fw := rfl
@[simp] theorem State.updPwr_swr (f : Power → Power) : (s.updPwr f).swr = s.swr := rfl
@[simp] theorem State.updPwr_tap (f : Power → Power) : (s.updPwr f).tap = s.tap := rfl
@[simp] theorem State.updPwr_out (f : Power → Power) : (s.updPwr f).out = s.out := rfl
@[simp] theorem State.updPwr_rd (f : Power → Power) (r : Nat) : (s.updPwr f).rd r = s.rd r := rfl
@[simp] theorem State.updPwr_fld (f : Power → Power) (r h l : Nat) : (s.updPwr f).fld r h l = s.fld r h l := rfl
@[simp] theorem State.updPwr_bit (f : Power → Power) (r k : Nat) : (s.updPwr f).bit r k = s.bit r k := rfl
@[simp] theorem State.updPwr_byte (f : Power → Power) (x : Nat) : (s.updPwr f).byte x = s.byte x := rfl
@[simp] theorem State.updPwr_job (f : Power → Power) (i : Nat) : (s.updPwr f).job? i = s.job? i := rfl

/-! ### updBar -/

@[simp] theorem State.updBar_pending (f : Barrow → Barrow) : (s.updBar f).pending = s.pending := rfl
@[simp] theorem State.updBar_phase (f : Barrow → Barrow) : (s.updBar f).phase = s.phase := rfl
@[simp] theorem State.updBar_regs (f : Barrow → Barrow) : (s.updBar f).regs = s.regs := rfl
@[simp] theorem State.updBar_latch (f : Barrow → Barrow) : (s.updBar f).latch = s.latch := rfl
@[simp] theorem State.updBar_mem (f : Barrow → Barrow) : (s.updBar f).mem = s.mem := rfl
@[simp] theorem State.updBar_ecc (f : Barrow → Barrow) : (s.updBar f).ecc = s.ecc := rfl
@[simp] theorem State.updBar_links (f : Barrow → Barrow) : (s.updBar f).links = s.links := rfl
@[simp] theorem State.updBar_ddr (f : Barrow → Barrow) : (s.updBar f).ddr = s.ddr := rfl
@[simp] theorem State.updBar_ddrCap (f : Barrow → Barrow) : (s.updBar f).ddrCap = s.ddrCap := rfl
@[simp] theorem State.updBar_writeback (f : Barrow → Barrow) : (s.updBar f).writeback = s.writeback := rfl
@[simp] theorem State.updBar_refNs (f : Barrow → Barrow) : (s.updBar f).refNs = s.refNs := rfl
@[simp] theorem State.updBar_freeN (f : Barrow → Barrow) : (s.updBar f).freeN = s.freeN := rfl
@[simp] theorem State.updBar_tal (f : Barrow → Barrow) : (s.updBar f).tal = s.tal := rfl
@[simp] theorem State.updBar_tim (f : Barrow → Barrow) : (s.updBar f).tim = s.tim := rfl
@[simp] theorem State.updBar_cmd (f : Barrow → Barrow) : (s.updBar f).cmd = s.cmd := rfl
@[simp] theorem State.updBar_sch (f : Barrow → Barrow) : (s.updBar f).sch = s.sch := rfl
@[simp] theorem State.updBar_graphs (f : Barrow → Barrow) : (s.updBar f).graphs = s.graphs := rfl
@[simp] theorem State.updBar_cores (f : Barrow → Barrow) : (s.updBar f).cores = s.cores := rfl
@[simp] theorem State.updBar_holds (f : Barrow → Barrow) : (s.updBar f).holds = s.holds := rfl
@[simp] theorem State.updBar_ctxHurt (f : Barrow → Barrow) : (s.updBar f).ctxHurt = s.ctxHurt := rfl
@[simp] theorem State.updBar_board (f : Barrow → Barrow) : (s.updBar f).board = s.board := rfl
@[simp] theorem State.updBar_pwr (f : Barrow → Barrow) : (s.updBar f).pwr = s.pwr := rfl
@[simp] theorem State.updBar_eth (f : Barrow → Barrow) : (s.updBar f).eth = s.eth := rfl
@[simp] theorem State.updBar_bil (f : Barrow → Barrow) : (s.updBar f).bil = s.bil := rfl
@[simp] theorem State.updBar_streams (f : Barrow → Barrow) : (s.updBar f).streams = s.streams := rfl
@[simp] theorem State.updBar_isp (f : Barrow → Barrow) : (s.updBar f).isp = s.isp := rfl
@[simp] theorem State.updBar_age (f : Barrow → Barrow) : (s.updBar f).age = s.age := rfl
@[simp] theorem State.updBar_dig (f : Barrow → Barrow) : (s.updBar f).dig = s.dig := rfl
@[simp] theorem State.updBar_sec (f : Barrow → Barrow) : (s.updBar f).sec = s.sec := rfl
@[simp] theorem State.updBar_fw (f : Barrow → Barrow) : (s.updBar f).fw = s.fw := rfl
@[simp] theorem State.updBar_swr (f : Barrow → Barrow) : (s.updBar f).swr = s.swr := rfl
@[simp] theorem State.updBar_tap (f : Barrow → Barrow) : (s.updBar f).tap = s.tap := rfl
@[simp] theorem State.updBar_out (f : Barrow → Barrow) : (s.updBar f).out = s.out := rfl
@[simp] theorem State.updBar_rd (f : Barrow → Barrow) (r : Nat) : (s.updBar f).rd r = s.rd r := rfl
@[simp] theorem State.updBar_fld (f : Barrow → Barrow) (r h l : Nat) : (s.updBar f).fld r h l = s.fld r h l := rfl
@[simp] theorem State.updBar_bit (f : Barrow → Barrow) (r k : Nat) : (s.updBar f).bit r k = s.bit r k := rfl
@[simp] theorem State.updBar_byte (f : Barrow → Barrow) (x : Nat) : (s.updBar f).byte x = s.byte x := rfl
@[simp] theorem State.updBar_job (f : Barrow → Barrow) (i : Nat) : (s.updBar f).job? i = s.job? i := rfl

/-! ### updEth -/

@[simp] theorem State.updEth_pending (p : Nat) (f : EthPort → EthPort) : (s.updEth p f).pending = s.pending := rfl
@[simp] theorem State.updEth_phase (p : Nat) (f : EthPort → EthPort) : (s.updEth p f).phase = s.phase := rfl
@[simp] theorem State.updEth_regs (p : Nat) (f : EthPort → EthPort) : (s.updEth p f).regs = s.regs := rfl
@[simp] theorem State.updEth_latch (p : Nat) (f : EthPort → EthPort) : (s.updEth p f).latch = s.latch := rfl
@[simp] theorem State.updEth_mem (p : Nat) (f : EthPort → EthPort) : (s.updEth p f).mem = s.mem := rfl
@[simp] theorem State.updEth_ecc (p : Nat) (f : EthPort → EthPort) : (s.updEth p f).ecc = s.ecc := rfl
@[simp] theorem State.updEth_links (p : Nat) (f : EthPort → EthPort) : (s.updEth p f).links = s.links := rfl
@[simp] theorem State.updEth_ddr (p : Nat) (f : EthPort → EthPort) : (s.updEth p f).ddr = s.ddr := rfl
@[simp] theorem State.updEth_ddrCap (p : Nat) (f : EthPort → EthPort) : (s.updEth p f).ddrCap = s.ddrCap := rfl
@[simp] theorem State.updEth_writeback (p : Nat) (f : EthPort → EthPort) : (s.updEth p f).writeback = s.writeback := rfl
@[simp] theorem State.updEth_refNs (p : Nat) (f : EthPort → EthPort) : (s.updEth p f).refNs = s.refNs := rfl
@[simp] theorem State.updEth_freeN (p : Nat) (f : EthPort → EthPort) : (s.updEth p f).freeN = s.freeN := rfl
@[simp] theorem State.updEth_tal (p : Nat) (f : EthPort → EthPort) : (s.updEth p f).tal = s.tal := rfl
@[simp] theorem State.updEth_tim (p : Nat) (f : EthPort → EthPort) : (s.updEth p f).tim = s.tim := rfl
@[simp] theorem State.updEth_cmd (p : Nat) (f : EthPort → EthPort) : (s.updEth p f).cmd = s.cmd := rfl
@[simp] theorem State.updEth_sch (p : Nat) (f : EthPort → EthPort) : (s.updEth p f).sch = s.sch := rfl
@[simp] theorem State.updEth_graphs (p : Nat) (f : EthPort → EthPort) : (s.updEth p f).graphs = s.graphs := rfl
@[simp] theorem State.updEth_cores (p : Nat) (f : EthPort → EthPort) : (s.updEth p f).cores = s.cores := rfl
@[simp] theorem State.updEth_holds (p : Nat) (f : EthPort → EthPort) : (s.updEth p f).holds = s.holds := rfl
@[simp] theorem State.updEth_ctxHurt (p : Nat) (f : EthPort → EthPort) : (s.updEth p f).ctxHurt = s.ctxHurt := rfl
@[simp] theorem State.updEth_board (p : Nat) (f : EthPort → EthPort) : (s.updEth p f).board = s.board := rfl
@[simp] theorem State.updEth_pwr (p : Nat) (f : EthPort → EthPort) : (s.updEth p f).pwr = s.pwr := rfl
@[simp] theorem State.updEth_bar (p : Nat) (f : EthPort → EthPort) : (s.updEth p f).bar = s.bar := rfl
@[simp] theorem State.updEth_bil (p : Nat) (f : EthPort → EthPort) : (s.updEth p f).bil = s.bil := rfl
@[simp] theorem State.updEth_streams (p : Nat) (f : EthPort → EthPort) : (s.updEth p f).streams = s.streams := rfl
@[simp] theorem State.updEth_isp (p : Nat) (f : EthPort → EthPort) : (s.updEth p f).isp = s.isp := rfl
@[simp] theorem State.updEth_age (p : Nat) (f : EthPort → EthPort) : (s.updEth p f).age = s.age := rfl
@[simp] theorem State.updEth_dig (p : Nat) (f : EthPort → EthPort) : (s.updEth p f).dig = s.dig := rfl
@[simp] theorem State.updEth_sec (p : Nat) (f : EthPort → EthPort) : (s.updEth p f).sec = s.sec := rfl
@[simp] theorem State.updEth_fw (p : Nat) (f : EthPort → EthPort) : (s.updEth p f).fw = s.fw := rfl
@[simp] theorem State.updEth_swr (p : Nat) (f : EthPort → EthPort) : (s.updEth p f).swr = s.swr := rfl
@[simp] theorem State.updEth_tap (p : Nat) (f : EthPort → EthPort) : (s.updEth p f).tap = s.tap := rfl
@[simp] theorem State.updEth_out (p : Nat) (f : EthPort → EthPort) : (s.updEth p f).out = s.out := rfl
@[simp] theorem State.updEth_rd (p : Nat) (f : EthPort → EthPort) (r : Nat) : (s.updEth p f).rd r = s.rd r := rfl
@[simp] theorem State.updEth_fld (p : Nat) (f : EthPort → EthPort) (r h l : Nat) : (s.updEth p f).fld r h l = s.fld r h l := rfl
@[simp] theorem State.updEth_bit (p : Nat) (f : EthPort → EthPort) (r k : Nat) : (s.updEth p f).bit r k = s.bit r k := rfl
@[simp] theorem State.updEth_byte (p : Nat) (f : EthPort → EthPort) (x : Nat) : (s.updEth p f).byte x = s.byte x := rfl
@[simp] theorem State.updEth_job (p : Nat) (f : EthPort → EthPort) (i : Nat) : (s.updEth p f).job? i = s.job? i := rfl

/-! ### updBil -/

@[simp] theorem State.updBil_pending (p : Nat) (f : BilPort → BilPort) : (s.updBil p f).pending = s.pending := rfl
@[simp] theorem State.updBil_phase (p : Nat) (f : BilPort → BilPort) : (s.updBil p f).phase = s.phase := rfl
@[simp] theorem State.updBil_regs (p : Nat) (f : BilPort → BilPort) : (s.updBil p f).regs = s.regs := rfl
@[simp] theorem State.updBil_latch (p : Nat) (f : BilPort → BilPort) : (s.updBil p f).latch = s.latch := rfl
@[simp] theorem State.updBil_mem (p : Nat) (f : BilPort → BilPort) : (s.updBil p f).mem = s.mem := rfl
@[simp] theorem State.updBil_ecc (p : Nat) (f : BilPort → BilPort) : (s.updBil p f).ecc = s.ecc := rfl
@[simp] theorem State.updBil_links (p : Nat) (f : BilPort → BilPort) : (s.updBil p f).links = s.links := rfl
@[simp] theorem State.updBil_ddr (p : Nat) (f : BilPort → BilPort) : (s.updBil p f).ddr = s.ddr := rfl
@[simp] theorem State.updBil_ddrCap (p : Nat) (f : BilPort → BilPort) : (s.updBil p f).ddrCap = s.ddrCap := rfl
@[simp] theorem State.updBil_writeback (p : Nat) (f : BilPort → BilPort) : (s.updBil p f).writeback = s.writeback := rfl
@[simp] theorem State.updBil_refNs (p : Nat) (f : BilPort → BilPort) : (s.updBil p f).refNs = s.refNs := rfl
@[simp] theorem State.updBil_freeN (p : Nat) (f : BilPort → BilPort) : (s.updBil p f).freeN = s.freeN := rfl
@[simp] theorem State.updBil_tal (p : Nat) (f : BilPort → BilPort) : (s.updBil p f).tal = s.tal := rfl
@[simp] theorem State.updBil_tim (p : Nat) (f : BilPort → BilPort) : (s.updBil p f).tim = s.tim := rfl
@[simp] theorem State.updBil_cmd (p : Nat) (f : BilPort → BilPort) : (s.updBil p f).cmd = s.cmd := rfl
@[simp] theorem State.updBil_sch (p : Nat) (f : BilPort → BilPort) : (s.updBil p f).sch = s.sch := rfl
@[simp] theorem State.updBil_graphs (p : Nat) (f : BilPort → BilPort) : (s.updBil p f).graphs = s.graphs := rfl
@[simp] theorem State.updBil_cores (p : Nat) (f : BilPort → BilPort) : (s.updBil p f).cores = s.cores := rfl
@[simp] theorem State.updBil_holds (p : Nat) (f : BilPort → BilPort) : (s.updBil p f).holds = s.holds := rfl
@[simp] theorem State.updBil_ctxHurt (p : Nat) (f : BilPort → BilPort) : (s.updBil p f).ctxHurt = s.ctxHurt := rfl
@[simp] theorem State.updBil_board (p : Nat) (f : BilPort → BilPort) : (s.updBil p f).board = s.board := rfl
@[simp] theorem State.updBil_pwr (p : Nat) (f : BilPort → BilPort) : (s.updBil p f).pwr = s.pwr := rfl
@[simp] theorem State.updBil_bar (p : Nat) (f : BilPort → BilPort) : (s.updBil p f).bar = s.bar := rfl
@[simp] theorem State.updBil_eth (p : Nat) (f : BilPort → BilPort) : (s.updBil p f).eth = s.eth := rfl
@[simp] theorem State.updBil_streams (p : Nat) (f : BilPort → BilPort) : (s.updBil p f).streams = s.streams := rfl
@[simp] theorem State.updBil_isp (p : Nat) (f : BilPort → BilPort) : (s.updBil p f).isp = s.isp := rfl
@[simp] theorem State.updBil_age (p : Nat) (f : BilPort → BilPort) : (s.updBil p f).age = s.age := rfl
@[simp] theorem State.updBil_dig (p : Nat) (f : BilPort → BilPort) : (s.updBil p f).dig = s.dig := rfl
@[simp] theorem State.updBil_sec (p : Nat) (f : BilPort → BilPort) : (s.updBil p f).sec = s.sec := rfl
@[simp] theorem State.updBil_fw (p : Nat) (f : BilPort → BilPort) : (s.updBil p f).fw = s.fw := rfl
@[simp] theorem State.updBil_swr (p : Nat) (f : BilPort → BilPort) : (s.updBil p f).swr = s.swr := rfl
@[simp] theorem State.updBil_tap (p : Nat) (f : BilPort → BilPort) : (s.updBil p f).tap = s.tap := rfl
@[simp] theorem State.updBil_out (p : Nat) (f : BilPort → BilPort) : (s.updBil p f).out = s.out := rfl
@[simp] theorem State.updBil_rd (p : Nat) (f : BilPort → BilPort) (r : Nat) : (s.updBil p f).rd r = s.rd r := rfl
@[simp] theorem State.updBil_fld (p : Nat) (f : BilPort → BilPort) (r h l : Nat) : (s.updBil p f).fld r h l = s.fld r h l := rfl
@[simp] theorem State.updBil_bit (p : Nat) (f : BilPort → BilPort) (r k : Nat) : (s.updBil p f).bit r k = s.bit r k := rfl
@[simp] theorem State.updBil_byte (p : Nat) (f : BilPort → BilPort) (x : Nat) : (s.updBil p f).byte x = s.byte x := rfl
@[simp] theorem State.updBil_job (p : Nat) (f : BilPort → BilPort) (i : Nat) : (s.updBil p f).job? i = s.job? i := rfl

/-! ### updStream -/

@[simp] theorem State.updStream_pending (n : Nat) (f : Stream → Stream) : (s.updStream n f).pending = s.pending := rfl
@[simp] theorem State.updStream_phase (n : Nat) (f : Stream → Stream) : (s.updStream n f).phase = s.phase := rfl
@[simp] theorem State.updStream_regs (n : Nat) (f : Stream → Stream) : (s.updStream n f).regs = s.regs := rfl
@[simp] theorem State.updStream_latch (n : Nat) (f : Stream → Stream) : (s.updStream n f).latch = s.latch := rfl
@[simp] theorem State.updStream_mem (n : Nat) (f : Stream → Stream) : (s.updStream n f).mem = s.mem := rfl
@[simp] theorem State.updStream_ecc (n : Nat) (f : Stream → Stream) : (s.updStream n f).ecc = s.ecc := rfl
@[simp] theorem State.updStream_links (n : Nat) (f : Stream → Stream) : (s.updStream n f).links = s.links := rfl
@[simp] theorem State.updStream_ddr (n : Nat) (f : Stream → Stream) : (s.updStream n f).ddr = s.ddr := rfl
@[simp] theorem State.updStream_ddrCap (n : Nat) (f : Stream → Stream) : (s.updStream n f).ddrCap = s.ddrCap := rfl
@[simp] theorem State.updStream_writeback (n : Nat) (f : Stream → Stream) : (s.updStream n f).writeback = s.writeback := rfl
@[simp] theorem State.updStream_refNs (n : Nat) (f : Stream → Stream) : (s.updStream n f).refNs = s.refNs := rfl
@[simp] theorem State.updStream_freeN (n : Nat) (f : Stream → Stream) : (s.updStream n f).freeN = s.freeN := rfl
@[simp] theorem State.updStream_tal (n : Nat) (f : Stream → Stream) : (s.updStream n f).tal = s.tal := rfl
@[simp] theorem State.updStream_tim (n : Nat) (f : Stream → Stream) : (s.updStream n f).tim = s.tim := rfl
@[simp] theorem State.updStream_cmd (n : Nat) (f : Stream → Stream) : (s.updStream n f).cmd = s.cmd := rfl
@[simp] theorem State.updStream_sch (n : Nat) (f : Stream → Stream) : (s.updStream n f).sch = s.sch := rfl
@[simp] theorem State.updStream_graphs (n : Nat) (f : Stream → Stream) : (s.updStream n f).graphs = s.graphs := rfl
@[simp] theorem State.updStream_cores (n : Nat) (f : Stream → Stream) : (s.updStream n f).cores = s.cores := rfl
@[simp] theorem State.updStream_holds (n : Nat) (f : Stream → Stream) : (s.updStream n f).holds = s.holds := rfl
@[simp] theorem State.updStream_ctxHurt (n : Nat) (f : Stream → Stream) : (s.updStream n f).ctxHurt = s.ctxHurt := rfl
@[simp] theorem State.updStream_board (n : Nat) (f : Stream → Stream) : (s.updStream n f).board = s.board := rfl
@[simp] theorem State.updStream_pwr (n : Nat) (f : Stream → Stream) : (s.updStream n f).pwr = s.pwr := rfl
@[simp] theorem State.updStream_bar (n : Nat) (f : Stream → Stream) : (s.updStream n f).bar = s.bar := rfl
@[simp] theorem State.updStream_eth (n : Nat) (f : Stream → Stream) : (s.updStream n f).eth = s.eth := rfl
@[simp] theorem State.updStream_bil (n : Nat) (f : Stream → Stream) : (s.updStream n f).bil = s.bil := rfl
@[simp] theorem State.updStream_isp (n : Nat) (f : Stream → Stream) : (s.updStream n f).isp = s.isp := rfl
@[simp] theorem State.updStream_age (n : Nat) (f : Stream → Stream) : (s.updStream n f).age = s.age := rfl
@[simp] theorem State.updStream_dig (n : Nat) (f : Stream → Stream) : (s.updStream n f).dig = s.dig := rfl
@[simp] theorem State.updStream_sec (n : Nat) (f : Stream → Stream) : (s.updStream n f).sec = s.sec := rfl
@[simp] theorem State.updStream_fw (n : Nat) (f : Stream → Stream) : (s.updStream n f).fw = s.fw := rfl
@[simp] theorem State.updStream_swr (n : Nat) (f : Stream → Stream) : (s.updStream n f).swr = s.swr := rfl
@[simp] theorem State.updStream_tap (n : Nat) (f : Stream → Stream) : (s.updStream n f).tap = s.tap := rfl
@[simp] theorem State.updStream_out (n : Nat) (f : Stream → Stream) : (s.updStream n f).out = s.out := rfl
@[simp] theorem State.updStream_rd (n : Nat) (f : Stream → Stream) (r : Nat) : (s.updStream n f).rd r = s.rd r := rfl
@[simp] theorem State.updStream_fld (n : Nat) (f : Stream → Stream) (r h l : Nat) : (s.updStream n f).fld r h l = s.fld r h l := rfl
@[simp] theorem State.updStream_bit (n : Nat) (f : Stream → Stream) (r k : Nat) : (s.updStream n f).bit r k = s.bit r k := rfl
@[simp] theorem State.updStream_byte (n : Nat) (f : Stream → Stream) (x : Nat) : (s.updStream n f).byte x = s.byte x := rfl
@[simp] theorem State.updStream_job (n : Nat) (f : Stream → Stream) (i : Nat) : (s.updStream n f).job? i = s.job? i := rfl

/-! ### updIsp -/

@[simp] theorem State.updIsp_pending (f : Isp → Isp) : (s.updIsp f).pending = s.pending := rfl
@[simp] theorem State.updIsp_phase (f : Isp → Isp) : (s.updIsp f).phase = s.phase := rfl
@[simp] theorem State.updIsp_regs (f : Isp → Isp) : (s.updIsp f).regs = s.regs := rfl
@[simp] theorem State.updIsp_latch (f : Isp → Isp) : (s.updIsp f).latch = s.latch := rfl
@[simp] theorem State.updIsp_mem (f : Isp → Isp) : (s.updIsp f).mem = s.mem := rfl
@[simp] theorem State.updIsp_ecc (f : Isp → Isp) : (s.updIsp f).ecc = s.ecc := rfl
@[simp] theorem State.updIsp_links (f : Isp → Isp) : (s.updIsp f).links = s.links := rfl
@[simp] theorem State.updIsp_ddr (f : Isp → Isp) : (s.updIsp f).ddr = s.ddr := rfl
@[simp] theorem State.updIsp_ddrCap (f : Isp → Isp) : (s.updIsp f).ddrCap = s.ddrCap := rfl
@[simp] theorem State.updIsp_writeback (f : Isp → Isp) : (s.updIsp f).writeback = s.writeback := rfl
@[simp] theorem State.updIsp_refNs (f : Isp → Isp) : (s.updIsp f).refNs = s.refNs := rfl
@[simp] theorem State.updIsp_freeN (f : Isp → Isp) : (s.updIsp f).freeN = s.freeN := rfl
@[simp] theorem State.updIsp_tal (f : Isp → Isp) : (s.updIsp f).tal = s.tal := rfl
@[simp] theorem State.updIsp_tim (f : Isp → Isp) : (s.updIsp f).tim = s.tim := rfl
@[simp] theorem State.updIsp_cmd (f : Isp → Isp) : (s.updIsp f).cmd = s.cmd := rfl
@[simp] theorem State.updIsp_sch (f : Isp → Isp) : (s.updIsp f).sch = s.sch := rfl
@[simp] theorem State.updIsp_graphs (f : Isp → Isp) : (s.updIsp f).graphs = s.graphs := rfl
@[simp] theorem State.updIsp_cores (f : Isp → Isp) : (s.updIsp f).cores = s.cores := rfl
@[simp] theorem State.updIsp_holds (f : Isp → Isp) : (s.updIsp f).holds = s.holds := rfl
@[simp] theorem State.updIsp_ctxHurt (f : Isp → Isp) : (s.updIsp f).ctxHurt = s.ctxHurt := rfl
@[simp] theorem State.updIsp_board (f : Isp → Isp) : (s.updIsp f).board = s.board := rfl
@[simp] theorem State.updIsp_pwr (f : Isp → Isp) : (s.updIsp f).pwr = s.pwr := rfl
@[simp] theorem State.updIsp_bar (f : Isp → Isp) : (s.updIsp f).bar = s.bar := rfl
@[simp] theorem State.updIsp_eth (f : Isp → Isp) : (s.updIsp f).eth = s.eth := rfl
@[simp] theorem State.updIsp_bil (f : Isp → Isp) : (s.updIsp f).bil = s.bil := rfl
@[simp] theorem State.updIsp_streams (f : Isp → Isp) : (s.updIsp f).streams = s.streams := rfl
@[simp] theorem State.updIsp_age (f : Isp → Isp) : (s.updIsp f).age = s.age := rfl
@[simp] theorem State.updIsp_dig (f : Isp → Isp) : (s.updIsp f).dig = s.dig := rfl
@[simp] theorem State.updIsp_sec (f : Isp → Isp) : (s.updIsp f).sec = s.sec := rfl
@[simp] theorem State.updIsp_fw (f : Isp → Isp) : (s.updIsp f).fw = s.fw := rfl
@[simp] theorem State.updIsp_swr (f : Isp → Isp) : (s.updIsp f).swr = s.swr := rfl
@[simp] theorem State.updIsp_tap (f : Isp → Isp) : (s.updIsp f).tap = s.tap := rfl
@[simp] theorem State.updIsp_out (f : Isp → Isp) : (s.updIsp f).out = s.out := rfl
@[simp] theorem State.updIsp_rd (f : Isp → Isp) (r : Nat) : (s.updIsp f).rd r = s.rd r := rfl
@[simp] theorem State.updIsp_fld (f : Isp → Isp) (r h l : Nat) : (s.updIsp f).fld r h l = s.fld r h l := rfl
@[simp] theorem State.updIsp_bit (f : Isp → Isp) (r k : Nat) : (s.updIsp f).bit r k = s.bit r k := rfl
@[simp] theorem State.updIsp_byte (f : Isp → Isp) (x : Nat) : (s.updIsp f).byte x = s.byte x := rfl
@[simp] theorem State.updIsp_job (f : Isp → Isp) (i : Nat) : (s.updIsp f).job? i = s.job? i := rfl

/-! ### updMon -/

@[simp] theorem State.updMon_pending (m : Nat) (f : AgeMon → AgeMon) : (s.updMon m f).pending = s.pending := rfl
@[simp] theorem State.updMon_phase (m : Nat) (f : AgeMon → AgeMon) : (s.updMon m f).phase = s.phase := rfl
@[simp] theorem State.updMon_regs (m : Nat) (f : AgeMon → AgeMon) : (s.updMon m f).regs = s.regs := rfl
@[simp] theorem State.updMon_latch (m : Nat) (f : AgeMon → AgeMon) : (s.updMon m f).latch = s.latch := rfl
@[simp] theorem State.updMon_mem (m : Nat) (f : AgeMon → AgeMon) : (s.updMon m f).mem = s.mem := rfl
@[simp] theorem State.updMon_ecc (m : Nat) (f : AgeMon → AgeMon) : (s.updMon m f).ecc = s.ecc := rfl
@[simp] theorem State.updMon_links (m : Nat) (f : AgeMon → AgeMon) : (s.updMon m f).links = s.links := rfl
@[simp] theorem State.updMon_ddr (m : Nat) (f : AgeMon → AgeMon) : (s.updMon m f).ddr = s.ddr := rfl
@[simp] theorem State.updMon_ddrCap (m : Nat) (f : AgeMon → AgeMon) : (s.updMon m f).ddrCap = s.ddrCap := rfl
@[simp] theorem State.updMon_writeback (m : Nat) (f : AgeMon → AgeMon) : (s.updMon m f).writeback = s.writeback := rfl
@[simp] theorem State.updMon_refNs (m : Nat) (f : AgeMon → AgeMon) : (s.updMon m f).refNs = s.refNs := rfl
@[simp] theorem State.updMon_freeN (m : Nat) (f : AgeMon → AgeMon) : (s.updMon m f).freeN = s.freeN := rfl
@[simp] theorem State.updMon_tal (m : Nat) (f : AgeMon → AgeMon) : (s.updMon m f).tal = s.tal := rfl
@[simp] theorem State.updMon_tim (m : Nat) (f : AgeMon → AgeMon) : (s.updMon m f).tim = s.tim := rfl
@[simp] theorem State.updMon_cmd (m : Nat) (f : AgeMon → AgeMon) : (s.updMon m f).cmd = s.cmd := rfl
@[simp] theorem State.updMon_sch (m : Nat) (f : AgeMon → AgeMon) : (s.updMon m f).sch = s.sch := rfl
@[simp] theorem State.updMon_graphs (m : Nat) (f : AgeMon → AgeMon) : (s.updMon m f).graphs = s.graphs := rfl
@[simp] theorem State.updMon_cores (m : Nat) (f : AgeMon → AgeMon) : (s.updMon m f).cores = s.cores := rfl
@[simp] theorem State.updMon_holds (m : Nat) (f : AgeMon → AgeMon) : (s.updMon m f).holds = s.holds := rfl
@[simp] theorem State.updMon_ctxHurt (m : Nat) (f : AgeMon → AgeMon) : (s.updMon m f).ctxHurt = s.ctxHurt := rfl
@[simp] theorem State.updMon_board (m : Nat) (f : AgeMon → AgeMon) : (s.updMon m f).board = s.board := rfl
@[simp] theorem State.updMon_pwr (m : Nat) (f : AgeMon → AgeMon) : (s.updMon m f).pwr = s.pwr := rfl
@[simp] theorem State.updMon_bar (m : Nat) (f : AgeMon → AgeMon) : (s.updMon m f).bar = s.bar := rfl
@[simp] theorem State.updMon_eth (m : Nat) (f : AgeMon → AgeMon) : (s.updMon m f).eth = s.eth := rfl
@[simp] theorem State.updMon_bil (m : Nat) (f : AgeMon → AgeMon) : (s.updMon m f).bil = s.bil := rfl
@[simp] theorem State.updMon_streams (m : Nat) (f : AgeMon → AgeMon) : (s.updMon m f).streams = s.streams := rfl
@[simp] theorem State.updMon_isp (m : Nat) (f : AgeMon → AgeMon) : (s.updMon m f).isp = s.isp := rfl
@[simp] theorem State.updMon_dig (m : Nat) (f : AgeMon → AgeMon) : (s.updMon m f).dig = s.dig := rfl
@[simp] theorem State.updMon_sec (m : Nat) (f : AgeMon → AgeMon) : (s.updMon m f).sec = s.sec := rfl
@[simp] theorem State.updMon_fw (m : Nat) (f : AgeMon → AgeMon) : (s.updMon m f).fw = s.fw := rfl
@[simp] theorem State.updMon_swr (m : Nat) (f : AgeMon → AgeMon) : (s.updMon m f).swr = s.swr := rfl
@[simp] theorem State.updMon_tap (m : Nat) (f : AgeMon → AgeMon) : (s.updMon m f).tap = s.tap := rfl
@[simp] theorem State.updMon_out (m : Nat) (f : AgeMon → AgeMon) : (s.updMon m f).out = s.out := rfl
@[simp] theorem State.updMon_rd (m : Nat) (f : AgeMon → AgeMon) (r : Nat) : (s.updMon m f).rd r = s.rd r := rfl
@[simp] theorem State.updMon_fld (m : Nat) (f : AgeMon → AgeMon) (r h l : Nat) : (s.updMon m f).fld r h l = s.fld r h l := rfl
@[simp] theorem State.updMon_bit (m : Nat) (f : AgeMon → AgeMon) (r k : Nat) : (s.updMon m f).bit r k = s.bit r k := rfl
@[simp] theorem State.updMon_byte (m : Nat) (f : AgeMon → AgeMon) (x : Nat) : (s.updMon m f).byte x = s.byte x := rfl
@[simp] theorem State.updMon_job (m : Nat) (f : AgeMon → AgeMon) (i : Nat) : (s.updMon m f).job? i = s.job? i := rfl

/-! ### updDig -/

@[simp] theorem State.updDig_pending (f : Digests → Digests) : (s.updDig f).pending = s.pending := rfl
@[simp] theorem State.updDig_phase (f : Digests → Digests) : (s.updDig f).phase = s.phase := rfl
@[simp] theorem State.updDig_regs (f : Digests → Digests) : (s.updDig f).regs = s.regs := rfl
@[simp] theorem State.updDig_latch (f : Digests → Digests) : (s.updDig f).latch = s.latch := rfl
@[simp] theorem State.updDig_mem (f : Digests → Digests) : (s.updDig f).mem = s.mem := rfl
@[simp] theorem State.updDig_ecc (f : Digests → Digests) : (s.updDig f).ecc = s.ecc := rfl
@[simp] theorem State.updDig_links (f : Digests → Digests) : (s.updDig f).links = s.links := rfl
@[simp] theorem State.updDig_ddr (f : Digests → Digests) : (s.updDig f).ddr = s.ddr := rfl
@[simp] theorem State.updDig_ddrCap (f : Digests → Digests) : (s.updDig f).ddrCap = s.ddrCap := rfl
@[simp] theorem State.updDig_writeback (f : Digests → Digests) : (s.updDig f).writeback = s.writeback := rfl
@[simp] theorem State.updDig_refNs (f : Digests → Digests) : (s.updDig f).refNs = s.refNs := rfl
@[simp] theorem State.updDig_freeN (f : Digests → Digests) : (s.updDig f).freeN = s.freeN := rfl
@[simp] theorem State.updDig_tal (f : Digests → Digests) : (s.updDig f).tal = s.tal := rfl
@[simp] theorem State.updDig_tim (f : Digests → Digests) : (s.updDig f).tim = s.tim := rfl
@[simp] theorem State.updDig_cmd (f : Digests → Digests) : (s.updDig f).cmd = s.cmd := rfl
@[simp] theorem State.updDig_sch (f : Digests → Digests) : (s.updDig f).sch = s.sch := rfl
@[simp] theorem State.updDig_graphs (f : Digests → Digests) : (s.updDig f).graphs = s.graphs := rfl
@[simp] theorem State.updDig_cores (f : Digests → Digests) : (s.updDig f).cores = s.cores := rfl
@[simp] theorem State.updDig_holds (f : Digests → Digests) : (s.updDig f).holds = s.holds := rfl
@[simp] theorem State.updDig_ctxHurt (f : Digests → Digests) : (s.updDig f).ctxHurt = s.ctxHurt := rfl
@[simp] theorem State.updDig_board (f : Digests → Digests) : (s.updDig f).board = s.board := rfl
@[simp] theorem State.updDig_pwr (f : Digests → Digests) : (s.updDig f).pwr = s.pwr := rfl
@[simp] theorem State.updDig_bar (f : Digests → Digests) : (s.updDig f).bar = s.bar := rfl
@[simp] theorem State.updDig_eth (f : Digests → Digests) : (s.updDig f).eth = s.eth := rfl
@[simp] theorem State.updDig_bil (f : Digests → Digests) : (s.updDig f).bil = s.bil := rfl
@[simp] theorem State.updDig_streams (f : Digests → Digests) : (s.updDig f).streams = s.streams := rfl
@[simp] theorem State.updDig_isp (f : Digests → Digests) : (s.updDig f).isp = s.isp := rfl
@[simp] theorem State.updDig_age (f : Digests → Digests) : (s.updDig f).age = s.age := rfl
@[simp] theorem State.updDig_sec (f : Digests → Digests) : (s.updDig f).sec = s.sec := rfl
@[simp] theorem State.updDig_fw (f : Digests → Digests) : (s.updDig f).fw = s.fw := rfl
@[simp] theorem State.updDig_swr (f : Digests → Digests) : (s.updDig f).swr = s.swr := rfl
@[simp] theorem State.updDig_tap (f : Digests → Digests) : (s.updDig f).tap = s.tap := rfl
@[simp] theorem State.updDig_out (f : Digests → Digests) : (s.updDig f).out = s.out := rfl
@[simp] theorem State.updDig_rd (f : Digests → Digests) (r : Nat) : (s.updDig f).rd r = s.rd r := rfl
@[simp] theorem State.updDig_fld (f : Digests → Digests) (r h l : Nat) : (s.updDig f).fld r h l = s.fld r h l := rfl
@[simp] theorem State.updDig_bit (f : Digests → Digests) (r k : Nat) : (s.updDig f).bit r k = s.bit r k := rfl
@[simp] theorem State.updDig_byte (f : Digests → Digests) (x : Nat) : (s.updDig f).byte x = s.byte x := rfl
@[simp] theorem State.updDig_job (f : Digests → Digests) (i : Nat) : (s.updDig f).job? i = s.job? i := rfl

/-! ### updSec -/

@[simp] theorem State.updSec_pending (f : Sec → Sec) : (s.updSec f).pending = s.pending := rfl
@[simp] theorem State.updSec_phase (f : Sec → Sec) : (s.updSec f).phase = s.phase := rfl
@[simp] theorem State.updSec_regs (f : Sec → Sec) : (s.updSec f).regs = s.regs := rfl
@[simp] theorem State.updSec_latch (f : Sec → Sec) : (s.updSec f).latch = s.latch := rfl
@[simp] theorem State.updSec_mem (f : Sec → Sec) : (s.updSec f).mem = s.mem := rfl
@[simp] theorem State.updSec_ecc (f : Sec → Sec) : (s.updSec f).ecc = s.ecc := rfl
@[simp] theorem State.updSec_links (f : Sec → Sec) : (s.updSec f).links = s.links := rfl
@[simp] theorem State.updSec_ddr (f : Sec → Sec) : (s.updSec f).ddr = s.ddr := rfl
@[simp] theorem State.updSec_ddrCap (f : Sec → Sec) : (s.updSec f).ddrCap = s.ddrCap := rfl
@[simp] theorem State.updSec_writeback (f : Sec → Sec) : (s.updSec f).writeback = s.writeback := rfl
@[simp] theorem State.updSec_refNs (f : Sec → Sec) : (s.updSec f).refNs = s.refNs := rfl
@[simp] theorem State.updSec_freeN (f : Sec → Sec) : (s.updSec f).freeN = s.freeN := rfl
@[simp] theorem State.updSec_tal (f : Sec → Sec) : (s.updSec f).tal = s.tal := rfl
@[simp] theorem State.updSec_tim (f : Sec → Sec) : (s.updSec f).tim = s.tim := rfl
@[simp] theorem State.updSec_cmd (f : Sec → Sec) : (s.updSec f).cmd = s.cmd := rfl
@[simp] theorem State.updSec_sch (f : Sec → Sec) : (s.updSec f).sch = s.sch := rfl
@[simp] theorem State.updSec_graphs (f : Sec → Sec) : (s.updSec f).graphs = s.graphs := rfl
@[simp] theorem State.updSec_cores (f : Sec → Sec) : (s.updSec f).cores = s.cores := rfl
@[simp] theorem State.updSec_holds (f : Sec → Sec) : (s.updSec f).holds = s.holds := rfl
@[simp] theorem State.updSec_ctxHurt (f : Sec → Sec) : (s.updSec f).ctxHurt = s.ctxHurt := rfl
@[simp] theorem State.updSec_board (f : Sec → Sec) : (s.updSec f).board = s.board := rfl
@[simp] theorem State.updSec_pwr (f : Sec → Sec) : (s.updSec f).pwr = s.pwr := rfl
@[simp] theorem State.updSec_bar (f : Sec → Sec) : (s.updSec f).bar = s.bar := rfl
@[simp] theorem State.updSec_eth (f : Sec → Sec) : (s.updSec f).eth = s.eth := rfl
@[simp] theorem State.updSec_bil (f : Sec → Sec) : (s.updSec f).bil = s.bil := rfl
@[simp] theorem State.updSec_streams (f : Sec → Sec) : (s.updSec f).streams = s.streams := rfl
@[simp] theorem State.updSec_isp (f : Sec → Sec) : (s.updSec f).isp = s.isp := rfl
@[simp] theorem State.updSec_age (f : Sec → Sec) : (s.updSec f).age = s.age := rfl
@[simp] theorem State.updSec_dig (f : Sec → Sec) : (s.updSec f).dig = s.dig := rfl
@[simp] theorem State.updSec_fw (f : Sec → Sec) : (s.updSec f).fw = s.fw := rfl
@[simp] theorem State.updSec_swr (f : Sec → Sec) : (s.updSec f).swr = s.swr := rfl
@[simp] theorem State.updSec_tap (f : Sec → Sec) : (s.updSec f).tap = s.tap := rfl
@[simp] theorem State.updSec_out (f : Sec → Sec) : (s.updSec f).out = s.out := rfl
@[simp] theorem State.updSec_rd (f : Sec → Sec) (r : Nat) : (s.updSec f).rd r = s.rd r := rfl
@[simp] theorem State.updSec_fld (f : Sec → Sec) (r h l : Nat) : (s.updSec f).fld r h l = s.fld r h l := rfl
@[simp] theorem State.updSec_bit (f : Sec → Sec) (r k : Nat) : (s.updSec f).bit r k = s.bit r k := rfl
@[simp] theorem State.updSec_byte (f : Sec → Sec) (x : Nat) : (s.updSec f).byte x = s.byte x := rfl
@[simp] theorem State.updSec_job (f : Sec → Sec) (i : Nat) : (s.updSec f).job? i = s.job? i := rfl

/-! ### updProc -/

@[simp] theorem State.updProc_pending (n : Nat) (f : FwProc → FwProc) : (s.updProc n f).pending = s.pending := rfl
@[simp] theorem State.updProc_phase (n : Nat) (f : FwProc → FwProc) : (s.updProc n f).phase = s.phase := rfl
@[simp] theorem State.updProc_regs (n : Nat) (f : FwProc → FwProc) : (s.updProc n f).regs = s.regs := rfl
@[simp] theorem State.updProc_latch (n : Nat) (f : FwProc → FwProc) : (s.updProc n f).latch = s.latch := rfl
@[simp] theorem State.updProc_mem (n : Nat) (f : FwProc → FwProc) : (s.updProc n f).mem = s.mem := rfl
@[simp] theorem State.updProc_ecc (n : Nat) (f : FwProc → FwProc) : (s.updProc n f).ecc = s.ecc := rfl
@[simp] theorem State.updProc_links (n : Nat) (f : FwProc → FwProc) : (s.updProc n f).links = s.links := rfl
@[simp] theorem State.updProc_ddr (n : Nat) (f : FwProc → FwProc) : (s.updProc n f).ddr = s.ddr := rfl
@[simp] theorem State.updProc_ddrCap (n : Nat) (f : FwProc → FwProc) : (s.updProc n f).ddrCap = s.ddrCap := rfl
@[simp] theorem State.updProc_writeback (n : Nat) (f : FwProc → FwProc) : (s.updProc n f).writeback = s.writeback := rfl
@[simp] theorem State.updProc_refNs (n : Nat) (f : FwProc → FwProc) : (s.updProc n f).refNs = s.refNs := rfl
@[simp] theorem State.updProc_freeN (n : Nat) (f : FwProc → FwProc) : (s.updProc n f).freeN = s.freeN := rfl
@[simp] theorem State.updProc_tal (n : Nat) (f : FwProc → FwProc) : (s.updProc n f).tal = s.tal := rfl
@[simp] theorem State.updProc_tim (n : Nat) (f : FwProc → FwProc) : (s.updProc n f).tim = s.tim := rfl
@[simp] theorem State.updProc_cmd (n : Nat) (f : FwProc → FwProc) : (s.updProc n f).cmd = s.cmd := rfl
@[simp] theorem State.updProc_sch (n : Nat) (f : FwProc → FwProc) : (s.updProc n f).sch = s.sch := rfl
@[simp] theorem State.updProc_graphs (n : Nat) (f : FwProc → FwProc) : (s.updProc n f).graphs = s.graphs := rfl
@[simp] theorem State.updProc_cores (n : Nat) (f : FwProc → FwProc) : (s.updProc n f).cores = s.cores := rfl
@[simp] theorem State.updProc_holds (n : Nat) (f : FwProc → FwProc) : (s.updProc n f).holds = s.holds := rfl
@[simp] theorem State.updProc_ctxHurt (n : Nat) (f : FwProc → FwProc) : (s.updProc n f).ctxHurt = s.ctxHurt := rfl
@[simp] theorem State.updProc_board (n : Nat) (f : FwProc → FwProc) : (s.updProc n f).board = s.board := rfl
@[simp] theorem State.updProc_pwr (n : Nat) (f : FwProc → FwProc) : (s.updProc n f).pwr = s.pwr := rfl
@[simp] theorem State.updProc_bar (n : Nat) (f : FwProc → FwProc) : (s.updProc n f).bar = s.bar := rfl
@[simp] theorem State.updProc_eth (n : Nat) (f : FwProc → FwProc) : (s.updProc n f).eth = s.eth := rfl
@[simp] theorem State.updProc_bil (n : Nat) (f : FwProc → FwProc) : (s.updProc n f).bil = s.bil := rfl
@[simp] theorem State.updProc_streams (n : Nat) (f : FwProc → FwProc) : (s.updProc n f).streams = s.streams := rfl
@[simp] theorem State.updProc_isp (n : Nat) (f : FwProc → FwProc) : (s.updProc n f).isp = s.isp := rfl
@[simp] theorem State.updProc_age (n : Nat) (f : FwProc → FwProc) : (s.updProc n f).age = s.age := rfl
@[simp] theorem State.updProc_dig (n : Nat) (f : FwProc → FwProc) : (s.updProc n f).dig = s.dig := rfl
@[simp] theorem State.updProc_sec (n : Nat) (f : FwProc → FwProc) : (s.updProc n f).sec = s.sec := rfl
@[simp] theorem State.updProc_swr (n : Nat) (f : FwProc → FwProc) : (s.updProc n f).swr = s.swr := rfl
@[simp] theorem State.updProc_tap (n : Nat) (f : FwProc → FwProc) : (s.updProc n f).tap = s.tap := rfl
@[simp] theorem State.updProc_out (n : Nat) (f : FwProc → FwProc) : (s.updProc n f).out = s.out := rfl
@[simp] theorem State.updProc_rd (n : Nat) (f : FwProc → FwProc) (r : Nat) : (s.updProc n f).rd r = s.rd r := rfl
@[simp] theorem State.updProc_fld (n : Nat) (f : FwProc → FwProc) (r h l : Nat) : (s.updProc n f).fld r h l = s.fld r h l := rfl
@[simp] theorem State.updProc_bit (n : Nat) (f : FwProc → FwProc) (r k : Nat) : (s.updProc n f).bit r k = s.bit r k := rfl
@[simp] theorem State.updProc_byte (n : Nat) (f : FwProc → FwProc) (x : Nat) : (s.updProc n f).byte x = s.byte x := rfl
@[simp] theorem State.updProc_job (n : Nat) (f : FwProc → FwProc) (i : Nat) : (s.updProc n f).job? i = s.job? i := rfl

/-! ### updSwr -/

@[simp] theorem State.updSwr_pending (f : Runner → Runner) : (s.updSwr f).pending = s.pending := rfl
@[simp] theorem State.updSwr_phase (f : Runner → Runner) : (s.updSwr f).phase = s.phase := rfl
@[simp] theorem State.updSwr_regs (f : Runner → Runner) : (s.updSwr f).regs = s.regs := rfl
@[simp] theorem State.updSwr_latch (f : Runner → Runner) : (s.updSwr f).latch = s.latch := rfl
@[simp] theorem State.updSwr_mem (f : Runner → Runner) : (s.updSwr f).mem = s.mem := rfl
@[simp] theorem State.updSwr_ecc (f : Runner → Runner) : (s.updSwr f).ecc = s.ecc := rfl
@[simp] theorem State.updSwr_links (f : Runner → Runner) : (s.updSwr f).links = s.links := rfl
@[simp] theorem State.updSwr_ddr (f : Runner → Runner) : (s.updSwr f).ddr = s.ddr := rfl
@[simp] theorem State.updSwr_ddrCap (f : Runner → Runner) : (s.updSwr f).ddrCap = s.ddrCap := rfl
@[simp] theorem State.updSwr_writeback (f : Runner → Runner) : (s.updSwr f).writeback = s.writeback := rfl
@[simp] theorem State.updSwr_refNs (f : Runner → Runner) : (s.updSwr f).refNs = s.refNs := rfl
@[simp] theorem State.updSwr_freeN (f : Runner → Runner) : (s.updSwr f).freeN = s.freeN := rfl
@[simp] theorem State.updSwr_tal (f : Runner → Runner) : (s.updSwr f).tal = s.tal := rfl
@[simp] theorem State.updSwr_tim (f : Runner → Runner) : (s.updSwr f).tim = s.tim := rfl
@[simp] theorem State.updSwr_cmd (f : Runner → Runner) : (s.updSwr f).cmd = s.cmd := rfl
@[simp] theorem State.updSwr_sch (f : Runner → Runner) : (s.updSwr f).sch = s.sch := rfl
@[simp] theorem State.updSwr_graphs (f : Runner → Runner) : (s.updSwr f).graphs = s.graphs := rfl
@[simp] theorem State.updSwr_cores (f : Runner → Runner) : (s.updSwr f).cores = s.cores := rfl
@[simp] theorem State.updSwr_holds (f : Runner → Runner) : (s.updSwr f).holds = s.holds := rfl
@[simp] theorem State.updSwr_ctxHurt (f : Runner → Runner) : (s.updSwr f).ctxHurt = s.ctxHurt := rfl
@[simp] theorem State.updSwr_board (f : Runner → Runner) : (s.updSwr f).board = s.board := rfl
@[simp] theorem State.updSwr_pwr (f : Runner → Runner) : (s.updSwr f).pwr = s.pwr := rfl
@[simp] theorem State.updSwr_bar (f : Runner → Runner) : (s.updSwr f).bar = s.bar := rfl
@[simp] theorem State.updSwr_eth (f : Runner → Runner) : (s.updSwr f).eth = s.eth := rfl
@[simp] theorem State.updSwr_bil (f : Runner → Runner) : (s.updSwr f).bil = s.bil := rfl
@[simp] theorem State.updSwr_streams (f : Runner → Runner) : (s.updSwr f).streams = s.streams := rfl
@[simp] theorem State.updSwr_isp (f : Runner → Runner) : (s.updSwr f).isp = s.isp := rfl
@[simp] theorem State.updSwr_age (f : Runner → Runner) : (s.updSwr f).age = s.age := rfl
@[simp] theorem State.updSwr_dig (f : Runner → Runner) : (s.updSwr f).dig = s.dig := rfl
@[simp] theorem State.updSwr_sec (f : Runner → Runner) : (s.updSwr f).sec = s.sec := rfl
@[simp] theorem State.updSwr_fw (f : Runner → Runner) : (s.updSwr f).fw = s.fw := rfl
@[simp] theorem State.updSwr_tap (f : Runner → Runner) : (s.updSwr f).tap = s.tap := rfl
@[simp] theorem State.updSwr_out (f : Runner → Runner) : (s.updSwr f).out = s.out := rfl
@[simp] theorem State.updSwr_rd (f : Runner → Runner) (r : Nat) : (s.updSwr f).rd r = s.rd r := rfl
@[simp] theorem State.updSwr_fld (f : Runner → Runner) (r h l : Nat) : (s.updSwr f).fld r h l = s.fld r h l := rfl
@[simp] theorem State.updSwr_bit (f : Runner → Runner) (r k : Nat) : (s.updSwr f).bit r k = s.bit r k := rfl
@[simp] theorem State.updSwr_byte (f : Runner → Runner) (x : Nat) : (s.updSwr f).byte x = s.byte x := rfl
@[simp] theorem State.updSwr_job (f : Runner → Runner) (i : Nat) : (s.updSwr f).job? i = s.job? i := rfl

/-! ### updTap -/

@[simp] theorem State.updTap_pending (f : Tap → Tap) : (s.updTap f).pending = s.pending := rfl
@[simp] theorem State.updTap_phase (f : Tap → Tap) : (s.updTap f).phase = s.phase := rfl
@[simp] theorem State.updTap_regs (f : Tap → Tap) : (s.updTap f).regs = s.regs := rfl
@[simp] theorem State.updTap_latch (f : Tap → Tap) : (s.updTap f).latch = s.latch := rfl
@[simp] theorem State.updTap_mem (f : Tap → Tap) : (s.updTap f).mem = s.mem := rfl
@[simp] theorem State.updTap_ecc (f : Tap → Tap) : (s.updTap f).ecc = s.ecc := rfl
@[simp] theorem State.updTap_links (f : Tap → Tap) : (s.updTap f).links = s.links := rfl
@[simp] theorem State.updTap_ddr (f : Tap → Tap) : (s.updTap f).ddr = s.ddr := rfl
@[simp] theorem State.updTap_ddrCap (f : Tap → Tap) : (s.updTap f).ddrCap = s.ddrCap := rfl
@[simp] theorem State.updTap_writeback (f : Tap → Tap) : (s.updTap f).writeback = s.writeback := rfl
@[simp] theorem State.updTap_refNs (f : Tap → Tap) : (s.updTap f).refNs = s.refNs := rfl
@[simp] theorem State.updTap_freeN (f : Tap → Tap) : (s.updTap f).freeN = s.freeN := rfl
@[simp] theorem State.updTap_tal (f : Tap → Tap) : (s.updTap f).tal = s.tal := rfl
@[simp] theorem State.updTap_tim (f : Tap → Tap) : (s.updTap f).tim = s.tim := rfl
@[simp] theorem State.updTap_cmd (f : Tap → Tap) : (s.updTap f).cmd = s.cmd := rfl
@[simp] theorem State.updTap_sch (f : Tap → Tap) : (s.updTap f).sch = s.sch := rfl
@[simp] theorem State.updTap_graphs (f : Tap → Tap) : (s.updTap f).graphs = s.graphs := rfl
@[simp] theorem State.updTap_cores (f : Tap → Tap) : (s.updTap f).cores = s.cores := rfl
@[simp] theorem State.updTap_holds (f : Tap → Tap) : (s.updTap f).holds = s.holds := rfl
@[simp] theorem State.updTap_ctxHurt (f : Tap → Tap) : (s.updTap f).ctxHurt = s.ctxHurt := rfl
@[simp] theorem State.updTap_board (f : Tap → Tap) : (s.updTap f).board = s.board := rfl
@[simp] theorem State.updTap_pwr (f : Tap → Tap) : (s.updTap f).pwr = s.pwr := rfl
@[simp] theorem State.updTap_bar (f : Tap → Tap) : (s.updTap f).bar = s.bar := rfl
@[simp] theorem State.updTap_eth (f : Tap → Tap) : (s.updTap f).eth = s.eth := rfl
@[simp] theorem State.updTap_bil (f : Tap → Tap) : (s.updTap f).bil = s.bil := rfl
@[simp] theorem State.updTap_streams (f : Tap → Tap) : (s.updTap f).streams = s.streams := rfl
@[simp] theorem State.updTap_isp (f : Tap → Tap) : (s.updTap f).isp = s.isp := rfl
@[simp] theorem State.updTap_age (f : Tap → Tap) : (s.updTap f).age = s.age := rfl
@[simp] theorem State.updTap_dig (f : Tap → Tap) : (s.updTap f).dig = s.dig := rfl
@[simp] theorem State.updTap_sec (f : Tap → Tap) : (s.updTap f).sec = s.sec := rfl
@[simp] theorem State.updTap_fw (f : Tap → Tap) : (s.updTap f).fw = s.fw := rfl
@[simp] theorem State.updTap_swr (f : Tap → Tap) : (s.updTap f).swr = s.swr := rfl
@[simp] theorem State.updTap_out (f : Tap → Tap) : (s.updTap f).out = s.out := rfl
@[simp] theorem State.updTap_rd (f : Tap → Tap) (r : Nat) : (s.updTap f).rd r = s.rd r := rfl
@[simp] theorem State.updTap_fld (f : Tap → Tap) (r h l : Nat) : (s.updTap f).fld r h l = s.fld r h l := rfl
@[simp] theorem State.updTap_bit (f : Tap → Tap) (r k : Nat) : (s.updTap f).bit r k = s.bit r k := rfl
@[simp] theorem State.updTap_byte (f : Tap → Tap) (x : Nat) : (s.updTap f).byte x = s.byte x := rfl
@[simp] theorem State.updTap_job (f : Tap → Tap) (i : Nat) : (s.updTap f).job? i = s.job? i := rfl

end Sys2Proof.Machine
end

