-- ==== Sys2Proof/Laws/Tables.lean ====
section
/-!
SUPPORT. Laws of sorted tables: a read after a write, and the canonical form that every write keeps.
-/
namespace Sys2Proof.Machine

theorem tabGet_tabDel {β : Type} (d : β) (k j : Nat) (l : List (Nat × β)) :
    tabGet d j (tabDel k l) = if j = k then d else tabGet d j l := by
  induction l with
  | nil => simp [tabDel, tabGet]
  | cons e t ih =>
    obtain ⟨a, b⟩ := e
    simp only [tabDel, List.filter_cons] at ih ⊢
    by_cases h : a = k
    · subst h
      simp only [ne_eq, not_true_eq_false, decide_false, Bool.false_eq_true, if_false, ih, tabGet]
      by_cases h2 : j = a <;> simp [h2, eq_comm]
    · simp only [ne_eq, h, not_false_eq_true, decide_true, if_true, tabGet, ih]
      by_cases h2 : a = j
      · subst h2; simp [h]
      · simp [h2]

variable {β : Type} [DecidableEq β]

/-- A read of a key after a write of it gives the value written; every other key reads as before. -/
theorem tabGet_tabSet (d : β) (k j : Nat) (v : β) (e : β) (hd : j = k → e = d) (l : List (Nat × β)) :
    tabGet e j (tabSet d k v l) = if j = k then v else tabGet e j l := by
  induction l with
  | nil =>
    by_cases hv : v = d
    · subst hv
      by_cases h : j = k
      · simp [tabSet, tabGet, h, hd h]
      · simp [tabSet, tabGet, h]
    · by_cases h : j = k
      · simp [tabSet, tabGet, h, hv]
      · simp [tabSet, tabGet, h, hv, Ne.symm h]
  | cons p t ih =>
    obtain ⟨a, b⟩ := p
    simp only [tabSet]
    by_cases h1 : a = k
    · subst h1
      simp only [if_true]
      by_cases hv : v = d
      · simp only [hv, if_true, tabGet_tabDel, tabGet]
        by_cases h : j = a
        · simp [h, hd h]
        · simp [h, Ne.symm h]
      · simp only [hv, if_false, tabGet]
        by_cases h : j = a <;> simp [h, eq_comm]
    · simp only [h1, if_false]
      by_cases h2 : a < k
      · simp only [h2, if_true, tabGet, ih]
        by_cases h3 : a = j
        · subst h3; simp [h1]
        · simp [h3]
      · simp only [h2, if_false]
        by_cases hv : v = d
        · simp only [hv, if_true, tabGet, tabGet_tabDel]
          by_cases h : j = k
          · subst h; simp [h1, hd rfl]
          · simp [h]
        · simp only [hv, if_false, tabGet]
          by_cases h : j = k
          · simp [h]
          · simp [h, Ne.symm h]

theorem tabWfFrom_mono {d : Nat → β} {l : List (Nat × β)} {lo lo' : Option Nat}
    (h : tabWfFrom d lo l = true) (hl : ∀ b', lo' = some b' → ∃ b, lo = some b ∧ b' ≤ b) : tabWfFrom d lo' l = true := by
  cases l with
  | nil => rfl
  | cons p t =>
    obtain ⟨a, v⟩ := p
    simp only [tabWfFrom, Bool.and_eq_true] at h ⊢
    refine ⟨⟨?_, h.1.2⟩, h.2⟩
    cases lo' with
    | none => rfl
    | some b' =>
      obtain ⟨b, rfl, hb⟩ := hl b' rfl
      have h1 := h.1.1
      simp only [decide_eq_true_eq] at h1 ⊢
      omega

theorem tabWfFrom_filter {d : Nat → β} (f : Nat × β → Bool) (l : List (Nat × β)) (lo : Option Nat)
    (h : tabWfFrom d lo l = true) : tabWfFrom d lo (l.filter f) = true := by
  induction l generalizing lo with
  | nil => rfl
  | cons p t ih =>
    obtain ⟨a, v⟩ := p
    have h' := h
    simp only [tabWfFrom, Bool.and_eq_true] at h'
    have key : tabWfFrom d (some a) (t.filter f) = true := ih _ h'.2
    by_cases hf : f (a, v) = true
    · simp only [List.filter_cons, hf, if_true, tabWfFrom, Bool.and_eq_true]
      exact ⟨h'.1, key⟩
    · simp only [List.filter_cons, hf]
      refine tabWfFrom_mono key fun b' hb => ⟨a, rfl, ?_⟩
      subst hb
      have h1 := h'.1.1
      simp only [decide_eq_true_eq] at h1
      omega

/-- Leaving entries out keeps the canonical form. -/
theorem tabWf_filter {d : Nat → β} (f : Nat × β → Bool) {l : List (Nat × β)}
    (h : tabWf d l = true) : tabWf d (l.filter f) = true := tabWfFrom_filter f l none h

theorem above_ok {k : Nat} (lo : Option Nat) :
    (∀ b, lo = some b → b < k) → (match lo with | none => true | some b => decide (b < k)) = true := by
  cases lo with
  | none => exact fun _ => rfl
  | some b => exact fun hk => by simpa using hk b rfl

theorem tabWfFrom_tabSet {d : Nat → β} (k : Nat) (v : β) (l : List (Nat × β)) (lo : Option Nat)
    (h : tabWfFrom d lo l = true) (hk : ∀ b, lo = some b → b < k) : tabWfFrom d lo (tabSet (d k) k v l) = true := by
  induction l generalizing lo with
  | nil =>
    simp only [tabSet]
    by_cases hv : v = d k
    · simp [hv, tabWfFrom]
    · simp only [hv, if_false, tabWfFrom, Bool.and_eq_true]
      exact ⟨⟨above_ok lo hk, by simpa using hv⟩, trivial⟩
  | cons p t ih =>
    obtain ⟨a, b⟩ := p
    have h' := h
    simp only [tabWfFrom, Bool.and_eq_true] at h'
    simp only [tabSet]
    by_cases h1 : a = k
    · subst h1
      simp only [if_true]
      by_cases hv : v = d a
      · simp only [hv, if_true, tabDel]
        refine tabWfFrom_filter _ _ _ (tabWfFrom_mono h'.2 fun b' hb => ⟨a, rfl, ?_⟩)
        exact Nat.le_of_lt (hk b' hb)
      · simp only [hv, if_false, tabWfFrom, Bool.and_eq_true]
        exact ⟨⟨above_ok lo hk, by simpa using hv⟩, h'.2⟩
    · simp only [h1, if_false]
      by_cases h2 : a < k
      · simp only [h2, if_true, tabWfFrom, Bool.and_eq_true]
        exact ⟨h'.1, ih (some a) h'.2 (fun b hb => by cases hb; exact h2)⟩
      · simp only [h2, if_false]
        by_cases hv : v = d k
        · simp only [hv, if_true, tabWfFrom, Bool.and_eq_true]
          exact ⟨h'.1, tabWfFrom_filter _ _ _ h'.2⟩
        · simp only [hv, if_false, tabWfFrom, Bool.and_eq_true]
          refine ⟨⟨above_ok lo hk, by simpa using hv⟩, ⟨?_, h'.1.2⟩, h'.2⟩
          simp only [decide_eq_true_eq]
          omega

/-- A write keeps the canonical form. -/
theorem tabWf_tabSet {d : Nat → β} (k : Nat) (v : β) {l : List (Nat × β)}
    (h : tabWf d l = true) : tabWf d (tabSet (d k) k v l) = true :=
  tabWfFrom_tabSet k v l none h (fun _ hb => by cases hb)

end Sys2Proof.Machine
end

