-- ==== Sys2Proof/Laws/Ops.lean ====
section
/-!
SUPPORT. What each shared operation over registers, memory and fault messages does, said once.
-/
namespace Sys2Proof.Machine

variable (s : State)

/-! ### Registers -/

/-- A register word after a write of one: the word written, and every other word as before. -/
theorem State.rd_wr (off o : Nat) (v : Word) : (s.wr off v).rd o = if o = off then v else s.rd o := by
  simp only [State.rd, State.wr]
  exact tabGet_tabSet (resetWord off) off o v (resetWord o) (fun h => by rw [h]) s.regs

@[simp] theorem State.rd_wr_self (off : Nat) (v : Word) : (s.wr off v).rd off = v := by simp [State.rd_wr]

theorem State.rd_wr_ne {off o : Nat} (h : o ≠ off) (v : Word) : (s.wr off v).rd o = s.rd o := by simp [State.rd_wr, h]

theorem State.rd_setFld (off hi lo v o : Nat) :
    (s.setFld off hi lo v).rd o = if o = off then BitVec.ofNat 32 (putBits (s.rd off).toNat hi lo v) else s.rd o := by
  simp [State.setFld, State.rd_wr]

theorem State.rd_setFld_ne {off o : Nat} (h : o ≠ off) (hi lo v : Nat) : (s.setFld off hi lo v).rd o = s.rd o := by
  simp [State.rd_setFld, h]

theorem State.rd_setBit_ne {off o : Nat} (h : o ≠ off) (n : Nat) (b : Bool) : (s.setBit off n b).rd o = s.rd o :=
  s.rd_setFld_ne h ..

theorem State.rd_inc (off n o : Nat) :
    (s.inc off n).rd o = if o = off then BitVec.ofNat 32 ((s.rd off).toNat + n) else s.rd o := by
  simp [State.inc, State.rd_wr]

theorem State.rd_sat_ne {off o : Nat} (h : o ≠ off) (hi lo n : Nat) : (s.sat off hi lo n).rd o = s.rd o :=
  s.rd_setFld_ne h ..

/-! ### Fields -/

theorem bits_lt (v hi lo : Nat) : bits v hi lo < 2 ^ (hi + 1 - lo) := Nat.mod_lt _ (Nat.two_pow_pos _)

theorem testBit_bits (v hi lo i : Nat) : (bits v hi lo).testBit i = (decide (i < hi + 1 - lo) && v.testBit (lo + i)) := by
  simp [bits, Nat.testBit_mod_two_pow, Nat.testBit_shiftRight]

/-- A number with a field replaced, by its parts above, in and below the field. -/
theorem putBits_eq (v hi lo x : Nat) :
    putBits v hi lo x = 2 ^ lo * (2 ^ (hi + 1 - lo) * (v / 2 ^ lo / 2 ^ (hi + 1 - lo)) + x % 2 ^ (hi + 1 - lo)) + v % 2 ^ lo := by
  have h1 := Nat.div_add_mod v (2 ^ lo)
  have h2 := Nat.div_add_mod (v / 2 ^ lo) (2 ^ (hi + 1 - lo))
  have e : bits v hi lo = v / 2 ^ lo % 2 ^ (hi + 1 - lo) := by simp [bits, Nat.shiftRight_eq_div_pow]
  have h3 : 2 ^ lo * (2 ^ (hi + 1 - lo) * (v / 2 ^ lo / 2 ^ (hi + 1 - lo))) + 2 ^ lo * bits v hi lo + v % 2 ^ lo = v := by
    rw [← Nat.mul_add, e, h2, h1]
  simp only [putBits, Nat.mul_add]
  rw [Nat.mul_comm (bits v hi lo), Nat.mul_comm (x % _)]
  omega

theorem testBit_putBits (v hi lo x i : Nat) :
    (putBits v hi lo x).testBit i = if lo ≤ i ∧ i < lo + (hi + 1 - lo) then x.testBit (i - lo) else v.testBit i := by
  rw [putBits_eq, Nat.testBit_two_pow_mul_add _ (Nat.mod_lt _ (Nat.two_pow_pos _))]
  by_cases h : i < lo
  · simp only [h, if_true, Nat.testBit_mod_two_pow, decide_true, Bool.true_and]
    rw [if_neg (by omega)]
  · rw [if_neg h, Nat.testBit_two_pow_mul_add _ (Nat.mod_lt _ (Nat.two_pow_pos _))]
    by_cases h2 : i - lo < hi + 1 - lo
    · rw [if_pos h2, if_pos (by omega)]
      simp [Nat.testBit_mod_two_pow, h2]
    · rw [if_neg h2, if_neg (by omega), Nat.testBit_div_two_pow, Nat.testBit_div_two_pow]
      congr 1; omega

/-- Writing a field below bit 32 stays below bit 32. -/
theorem putBits_lt {v hi lo x : Nat} (hv : v < 2 ^ 32) (h : hi < 32) : putBits v hi lo x < 2 ^ 32 := by
  apply Nat.lt_pow_two_of_testBit
  intro i hi'
  rw [testBit_putBits]
  split
  · omega
  · exact Nat.testBit_lt_two_pow (Nat.lt_of_lt_of_le hv (Nat.pow_le_pow_right (by omega) hi'))

theorem bits_putBits (v hi lo x : Nat) : bits (putBits v hi lo x) hi lo = x % 2 ^ (hi + 1 - lo) := by
  apply Nat.eq_of_testBit_eq
  intro i
  rw [testBit_bits, testBit_putBits, Nat.testBit_mod_two_pow]
  by_cases h : i < hi + 1 - lo
  · simp [h]
  · simp [h]

theorem bits_putBits_ne {v hi lo x h l : Nat} (hd : h < lo ∨ hi < l) : bits (putBits v hi lo x) h l = bits v h l := by
  apply Nat.eq_of_testBit_eq
  intro i
  rw [testBit_bits, testBit_bits, testBit_putBits]
  by_cases hh : i < h + 1 - l
  · rw [if_neg (by omega)]
  · simp [hh]

theorem State.rd_toNat_setFld (off lo v : Nat) {hi : Nat} (h : hi < 32) :
    ((s.setFld off hi lo v).rd off).toNat = putBits (s.rd off).toNat hi lo v := by
  rw [State.rd_setFld, if_pos rfl, BitVec.toNat_ofNat]
  exact Nat.mod_eq_of_lt (putBits_lt (s.rd off).isLt h)

/-- A field after a write of it. -/
theorem State.fld_setFld (off lo v : Nat) {hi : Nat} (h : hi < 32) :
    (s.setFld off hi lo v).fld off hi lo = v % 2 ^ (hi + 1 - lo) := by
  rw [State.fld, State.rd_toNat_setFld s off lo v h, bits_putBits]

/-- A field of the same word apart from the field written. -/
theorem State.fld_setFld_apart (off lo v h' l' : Nat) {hi : Nat} (h : hi < 32) (hd : h' < lo ∨ hi < l') :
    (s.setFld off hi lo v).fld off h' l' = s.fld off h' l' := by
  rw [State.fld, State.rd_toNat_setFld s off lo v h, bits_putBits_ne hd, State.fld]

/-- A field of another word. -/
theorem State.fld_setFld_ne {off o : Nat} (ho : o ≠ off) (hi lo v h' l' : Nat) :
    (s.setFld off hi lo v).fld o h' l' = s.fld o h' l' := by
  rw [State.fld, State.rd_setFld_ne s ho, State.fld]

theorem State.bit_eq_testBit (off n : Nat) : s.bit off n = (s.rd off).toNat.testBit n := rfl

/-- A bit after a write of it, or of another bit of its word. -/
theorem State.bit_setBit (off m : Nat) {n : Nat} (b : Bool) (h : n < 32) :
    (s.setBit off n b).bit off m = if m = n then b else s.bit off m := by
  rw [State.bit_eq_testBit, State.setBit, State.rd_toNat_setFld s off n _ h, testBit_putBits, State.bit_eq_testBit]
  by_cases hm : m = n
  · subst hm
    rw [if_pos (by omega), if_pos rfl, Nat.sub_self]
    cases b <;> rfl
  · rw [if_neg (by omega), if_neg hm]

theorem State.bit_setBit_ne {off o : Nat} (ho : o ≠ off) (n m : Nat) (b : Bool) : (s.setBit off n b).bit o m = s.bit o m := by
  rw [State.bit, State.rd_setBit_ne s ho, State.bit]

/-! ### Memory -/

/-- A byte of memory after a write of one. -/
theorem State.byte_putByte (a x : Nat) (b : Byte) : (s.putByte a b).byte x = if x = a then b else s.byte x := by
  simp only [State.byte, State.putByte]
  exact tabGet_tabSet (memDefault a) a x b (memDefault x) (fun h => by rw [h]) s.mem

/-- A byte of memory after a write of several: the byte written there, or the byte as before. -/
theorem State.byte_poke (l : List Byte) (s : State) (a x : Nat) :
    (s.poke a l).byte x = if a ≤ x ∧ x < a + l.length then l.getD (x - a) 0 else s.byte x := by
  induction l generalizing s a with
  | nil => rw [if_neg (by simp)]; rfl
  | cons b t ih =>
    simp only [State.poke, ih, State.byte_putByte, List.length_cons]
    by_cases h : x = a
    · subst h; rw [if_neg (by omega)]; simp
    · by_cases h2 : a + 1 ≤ x ∧ x < a + 1 + t.length
      · rw [if_pos h2, if_pos (by omega)]
        have : x - a = (x - (a + 1)) + 1 := by omega
        simp [this]
      · rw [if_neg h2, if_neg h, if_neg (by omega)]

/-- Writing bytes changes nothing but memory. -/
theorem State.poke_eq (l : List Byte) (s : State) (a : Nat) : s.poke a l = { s with mem := (s.poke a l).mem } := by
  induction l generalizing s a with
  | nil => rfl
  | cons b t ih =>
    rw [State.poke, ih]
    rfl

/-- Reading back what was written. -/
theorem State.peek_poke (a : Nat) (l : List Byte) : (s.poke a l).peek a l.length = l := by
  apply List.ext_getElem
  · simp [State.peek]
  · intro i h1 h2
    simp only [State.peek, List.getElem_map, List.getElem_range, State.byte_poke]
    rw [if_pos (by omega), Nat.add_sub_cancel_left]
    simp [h2]

/-! ### The canonical forms -/

/-- A write of a register keeps the canonical form of the registers. -/
theorem State.wr_regsWf (off : Nat) (v : Word) (h : tabWf resetWord s.regs = true) : tabWf resetWord (s.wr off v).regs = true :=
  tabWf_tabSet off v h

/-- A write of a byte keeps the canonical form of memory. -/
theorem State.putByte_memWf (a : Nat) (b : Byte) (h : Memory.wf s.mem = true) : Memory.wf (s.putByte a b).mem = true :=
  tabWf_tabSet a b h

/-- A write of several bytes keeps the canonical form of memory. -/
theorem State.poke_memWf (l : List Byte) (s : State) (a : Nat) (h : Memory.wf s.mem = true) : Memory.wf (s.poke a l).mem = true := by
  induction l generalizing s a with
  | nil => exact h
  | cons b t ih => exact ih _ _ (s.putByte_memWf a b h)

/-- Zeroing a range keeps the canonical form of memory. -/
theorem State.zeroMem_memWf (a n : Nat) (h : Memory.wf s.mem = true) : Memory.wf (s.zeroMem a n).mem = true :=
  tabWf_filter _ h

/-! ### Fault messages -/

/-- A detection changes nothing but the messages that wait for the Tally. -/
theorem State.report_eq (src kind stall addr : Nat) :
    s.report src kind stall addr = { s with tal := { s.tal with waiting := (s.report src kind stall addr).tal.waiting } } := rfl

/-- A detection with a free place and no waiting message of its key adds a message of its own (R440). -/
theorem State.report_new (src kind stall addr : Nat)
    (h1 : (s.tal.waiting.any fun m => m.source == src && m.kind == kind && m.addr == addr % 2 ^ 40) = false)
    (h2 : (s.tal.waiting.filter fun m => m.source == src).length < 4) :
    (s.report src kind stall addr).tal.waiting = s.tal.waiting ++
      [{ source := src, kind := kind, stall := stall, cls := kindClass kind, count := 1, addr := addr % 2 ^ 40 }] := by
  simp only [State.report, h1, Bool.false_eq_true, if_false]
  rw [if_neg (by omega)]

end Sys2Proof.Machine
end

