-- ==== Sys2Proof/Laws/Keeps.lean ====
section
/-!
SUPPORT. What the shared operations leave as it was: the queue, reference time, what was sent, the canonical forms and the
number of parts. A command's meaning is a chain of these operations, so its own lemma is a chain of these.
-/
namespace Sys2Proof.Machine

/-- From s to t the queue and reference time stand, what was sent stays sent, free values are only taken, and the canonical forms and the number of parts hold on. Unlike `State.Follows` it has no tick, so it chains. -/
structure State.Keeps (s t : State) : Prop where
  pending : t.pending = s.pending
  ref : t.refNs = s.refNs
  out : s.out <+: t.out
  free : s.freeN ≤ t.freeN
  canon : s.canon → t.canon
  shaped : s.shaped → t.shaped

variable {s t u : State}

/-- Nothing done keeps everything. -/
theorem State.Keeps.refl (s : State) : s.Keeps s := ⟨rfl, rfl, List.prefix_refl _, Nat.le_refl _, id, id⟩

/-- Two operations in a row. -/
theorem State.Keeps.trans (a : s.Keeps t) (b : t.Keeps u) : s.Keeps u :=
  ⟨b.pending.trans a.pending, b.ref.trans a.ref, a.out.trans b.out, Nat.le_trans a.free b.free, b.canon ∘ a.canon, b.shaped ∘ a.shaped⟩

/-- What keeps, follows. -/
theorem State.Keeps.follows (a : s.Keeps t) : s.Follows t := ⟨a.pending, a.out, .inl a.ref, a.free, a.canon, a.shaped⟩

/-- A choice between two operations. -/
theorem State.Keeps.ite {c : Prop} [Decidable c] (a : s.Keeps t) (b : s.Keeps u) : s.Keeps (if c then t else u) := by
  split <;> assumption

/-- An operation done for each element of a list. -/
theorem State.Keeps.foldl {α : Type} (f : State → α → State) (h : ∀ (s : State) a, s.Keeps (f s a)) (l : List α) (s : State) : s.Keeps (l.foldl f s) := by
  induction l generalizing s with
  | nil => exact .refl s
  | cons a t ih => exact (h s a).trans (ih _)

/-- An update of parts that hold neither memory, registers nor what was sent. -/
theorem State.Keeps.other (hp : t.pending = s.pending) (hr : t.refNs = s.refNs) (ho : t.out = s.out) (hf : t.freeN = s.freeN)
    (hm : t.mem = s.mem) (hg : t.regs = s.regs) (hs : s.shaped → t.shaped) : s.Keeps t :=
  ⟨hp, hr, ho ▸ List.prefix_refl _, hf ▸ Nat.le_refl _, by simp [State.canon, hm, hg], hs⟩

/-! ### Registers -/

/-- A write of a register word. -/
theorem State.keeps_wr (s : State) (off : Nat) (v : Word) : s.Keeps (s.wr off v) :=
  ⟨rfl, rfl, List.prefix_refl _, Nat.le_refl _, fun h => ⟨h.1, s.wr_regsWf off v h.2⟩, id⟩

/-- A write of a field. -/
theorem State.keeps_setFld (s : State) (off hi lo v : Nat) : s.Keeps (s.setFld off hi lo v) := s.keeps_wr _ _

/-- A write of a bit. -/
theorem State.keeps_setBit (s : State) (off n : Nat) (b : Bool) : s.Keeps (s.setBit off n b) := s.keeps_wr _ _

/-- A write of several words. -/
theorem State.keeps_wrN (s : State) (off n v : Nat) : s.Keeps (s.wrN off n v) := by
  induction n generalizing s off v with
  | zero => exact .refl s
  | succ n ih => exact (s.keeps_wr off _).trans (ih _ _ _)

/-- A write of a 64-bit register. -/
theorem State.keeps_wr64 (s : State) (off v : Nat) : s.Keeps (s.wr64 off v) := s.keeps_wrN off 2 v

/-- A counter counts. -/
theorem State.keeps_inc (s : State) (off n : Nat) : s.Keeps (s.inc off n) := s.keeps_wr _ _

/-- A 64-bit counter counts. -/
theorem State.keeps_inc64 (s : State) (off n : Nat) : s.Keeps (s.inc64 off n) := s.keeps_wr64 _ _

/-- A saturating counter counts. -/
theorem State.keeps_sat (s : State) (off hi lo n : Nat) : s.Keeps (s.sat off hi lo n) := s.keeps_wr _ _

/-- A saturating 64-bit counter counts. -/
theorem State.keeps_sat64 (s : State) (off n : Nat) : s.Keeps (s.sat64 off n) := s.keeps_wr64 _ _

/-! ### Memory -/

/-- A write of a byte. -/
theorem State.keeps_putByte (s : State) (a : Nat) (b : Byte) : s.Keeps (s.putByte a b) :=
  ⟨rfl, rfl, List.prefix_refl _, Nat.le_refl _, fun h => ⟨s.putByte_memWf a b h.1, h.2⟩, id⟩

/-- A write of several bytes. -/
theorem State.keeps_poke (l : List Byte) (s : State) (a : Nat) : s.Keeps (s.poke a l) := by
  induction l generalizing s a with
  | nil => exact .refl s
  | cons b t ih => exact (s.keeps_putByte a b).trans (ih _ _)

/-- A range set to zero. -/
theorem State.keeps_zeroMem (s : State) (a n : Nat) : s.Keeps (s.zeroMem a n) :=
  ⟨rfl, rfl, List.prefix_refl _, Nat.le_refl _, fun h => ⟨s.zeroMem_memWf a n h.1, h.2⟩, id⟩

/-- Free bytes in a range. -/
theorem State.keeps_undefine (s : State) (a n : Nat) : s.Keeps (s.undefine a n) := by
  have h : s.Keeps { s with freeN := s.freeN + n } := ⟨rfl, rfl, List.prefix_refl _, Nat.le_add_right _ _, id, id⟩
  exact h.trans (State.keeps_poke _ _ _)

/-! ### Fault messages and what is sent -/

/-- A detection. -/
theorem State.keeps_report (s : State) (src kind stall addr : Nat) : s.Keeps (s.report src kind stall addr) :=
  .other rfl rfl rfl rfl rfl rfl id

/-- Something sent. -/
theorem State.keeps_emit (s : State) (o : Out) : s.Keeps (s.emit o) :=
  ⟨rfl, rfl, List.prefix_append _ _, Nat.le_refl _, id, id⟩

/-! ### Parts -/

/-- A change of one entry of a list leaves its length. -/
@[simp] theorem length_updAt {α : Type} (f : α → α) (n : Nat) (l : List α) : (updAt f n l).length = l.length := by
  induction l generalizing n with
  | nil => cases n <;> rfl
  | cons a t ih => cases n <;> simp [updAt, ih]

/-- A core changes. -/
theorem State.keeps_updCore (s : State) (g : Nat) (f : Core → Core) : s.Keeps (s.updCore g f) :=
  .other rfl rfl rfl rfl rfl rfl fun h => by simpa [State.shaped, State.updCore] using h

/-- A job changes. -/
theorem State.keeps_updJob (s : State) (id : Nat) (f : Job → Job) : s.Keeps (s.updJob id f) :=
  .other rfl rfl rfl rfl rfl rfl fun h => by simpa [State.shaped, State.updJob] using h

/-- A command of a job changes. -/
theorem State.keeps_updCmd (s : State) (id i : Nat) (f : Cmd → Cmd) : s.Keeps (s.updCmd id i f) := s.keeps_updJob id _

/-- A ring changes. -/
theorem State.keeps_updRing (s : State) (n : Nat) (f : Ring → Ring) : s.Keeps (s.updRing n f) :=
  .other rfl rfl rfl rfl rfl rfl fun h => by simpa [State.shaped, State.updRing] using h

/-- The journal changes. -/
theorem State.keeps_updJournal (s : State) (f : Journal → Journal) : s.Keeps (s.updJournal f) :=
  .other rfl rfl rfl rfl rfl rfl fun h => by simpa [State.shaped, State.updJournal, State.updCmdPlane] using h

/-- The scheduler's own state changes. -/
theorem State.keeps_updSched (s : State) (f : Sched → Sched) : s.Keeps (s.updSched f) :=
  .other rfl rfl rfl rfl rfl rfl id

/-- A graph changes. -/
theorem State.keeps_updGraph (s : State) (n : Nat) (f : Graph → Graph) : s.Keeps (s.updGraph n f) :=
  .other rfl rfl rfl rfl rfl rfl fun h => by simpa [State.shaped, State.updGraph] using h

/-- A session changes. -/
theorem State.keeps_updSession (s : State) (n : Nat) (f : Session → Session) : s.Keeps (s.updSession n f) :=
  .other rfl rfl rfl rfl rfl rfl fun h => by simpa [State.shaped, State.updSession, State.updBar] using h

/-- Barrow's own state changes, its eight slots kept. -/
theorem State.keeps_updBar (s : State) (f : Barrow → Barrow) (hf : (f s.bar).slots.length = s.bar.slots.length) : s.Keeps (s.updBar f) :=
  .other rfl rfl rfl rfl rfl rfl fun h => by simpa [State.shaped, State.updBar, hf] using h

/-- An Ethernet port changes. -/
theorem State.keeps_updEth (s : State) (p : Nat) (f : EthPort → EthPort) : s.Keeps (s.updEth p f) :=
  .other rfl rfl rfl rfl rfl rfl fun h => by simpa [State.shaped, State.updEth] using h

/-- A Bilvan port changes. -/
theorem State.keeps_updBil (s : State) (p : Nat) (f : BilPort → BilPort) : s.Keeps (s.updBil p f) :=
  .other rfl rfl rfl rfl rfl rfl fun h => by simpa [State.shaped, State.updBil] using h

/-- A Bilvan port's time exchanges change. -/
theorem State.keeps_updBilTime (s : State) (p : Nat) (f : BilTime → BilTime) : s.Keeps (s.updBilTime p f) :=
  .other rfl rfl rfl rfl rfl rfl fun h => by simpa [State.shaped, State.updBilTime, State.updTim] using h

/-- A trigger output changes. -/
theorem State.keeps_updTrig (s : State) (n : Nat) (f : Trig → Trig) : s.Keeps (s.updTrig n f) :=
  .other rfl rfl rfl rfl rfl rfl fun h => by simpa [State.shaped, State.updTrig, State.updTim] using h

/-- A stream context changes. -/
theorem State.keeps_updStream (s : State) (n : Nat) (f : Stream → Stream) : s.Keeps (s.updStream n f) :=
  .other rfl rfl rfl rfl rfl rfl fun h => by simpa [State.shaped, State.updStream] using h

/-- The image pipeline changes. -/
theorem State.keeps_updIsp (s : State) (f : Isp → Isp) : s.Keeps (s.updIsp f) := .other rfl rfl rfl rfl rfl rfl id

/-- An age monitor changes. -/
theorem State.keeps_updMon (s : State) (m : Nat) (f : AgeMon → AgeMon) : s.Keeps (s.updMon m f) :=
  .other rfl rfl rfl rfl rfl rfl fun h => by simpa [State.shaped, State.updMon] using h

/-- The digests change. -/
theorem State.keeps_updDig (s : State) (f : Digests → Digests) : s.Keeps (s.updDig f) := .other rfl rfl rfl rfl rfl rfl id

/-- The security core's state changes. -/
theorem State.keeps_updSec (s : State) (f : Sec → Sec) : s.Keeps (s.updSec f) := .other rfl rfl rfl rfl rfl rfl id

/-- A firmware processor changes. -/
theorem State.keeps_updProc (s : State) (n : Nat) (f : FwProc → FwProc) : s.Keeps (s.updProc n f) :=
  .other rfl rfl rfl rfl rfl rfl fun h => by simpa [State.shaped, State.updProc] using h

/-- A core's test cycle changes. -/
theorem State.keeps_updTest (s : State) (g : Nat) (f : CoreTest → CoreTest) : s.Keeps (s.updTest g f) :=
  .other rfl rfl rfl rfl rfl rfl fun h => by simpa [State.shaped, State.updTest, State.updSwr] using h

/-- The Tally's own state changes. -/
theorem State.keeps_updTal (s : State) (f : Tally → Tally) : s.Keeps (s.updTal f) := .other rfl rfl rfl rfl rfl rfl id

/-- The test access port changes. -/
theorem State.keeps_updTap (s : State) (f : Tap → Tap) : s.Keeps (s.updTap f) := .other rfl rfl rfl rfl rfl rfl id

/-! ### Signals, refusals, charges, answers -/

/-- A command takes its final status. -/
theorem State.keeps_finishCmd (s : State) (id i status : Nat) : s.Keeps (s.finishCmd id i status) := s.keeps_updCmd id i _

/-- A command adds flags. -/
theorem State.keeps_addOwn (s : State) (id i flags : Nat) : s.Keeps (s.addOwn id i flags) := s.keeps_updCmd id i _

/-- A refused access is reported. -/
theorem State.keeps_refuse (s : State) (d : Deny) (stall a : Nat) : s.Keeps (s.refuse d stall a) :=
  (State.Keeps.ite (.refl s) (s.keeps_report _ _ _ _)).trans (State.keeps_report _ _ _ _ _)

/-- A stall is charged. -/
theorem State.keeps_charge (s : State) (stall n : Nat) : s.Keeps (s.charge stall n) :=
  (s.keeps_inc64 _ n).trans (.ite (.refl _) (.other rfl rfl rfl rfl rfl rfl id))

/-- A signal is raised. -/
theorem State.keeps_raiseSignal (s : State) (n v : Nat) : s.Keeps (s.raiseSignal n v) := s.keeps_wr64 _ _

/-- A datagram is queued. -/
theorem State.keeps_sendBarrow (s : State) (p : Nat) (dst : HostAddr) (udp : List Byte) : s.Keeps (s.sendBarrow p dst udp) :=
  .ite (s.keeps_updEth p _) (.refl s)

/-- A request is answered. -/
theorem State.keeps_answer (s : State) (n seq kind : Nat) (body : List Byte) : s.Keeps (s.answer n seq kind body) := by
  unfold State.answer
  split
  · exact .refl s
  · exact (s.keeps_updSession n _).trans (State.keeps_sendBarrow _ _ _ _)

/-- A request of the device is sent. -/
theorem State.keeps_deviceRequest (s : State) (n kind w off len : Nat) (data : List Byte) (why : ReqFor) :
    s.Keeps (s.deviceRequest n kind w off len data why) := by
  unfold State.deviceRequest
  split
  · exact .refl s
  · exact (s.keeps_updSession n _).trans (State.keeps_sendBarrow _ _ _ _)

/-! ### Computations of a command -/

/-- A computation keeps the state from wherever it begins, however it ends. -/
def RunKeeps {α : Type} (m : Run α) : Prop := ∀ s : State, s.Keeps (runOn m s).2

variable {α β : Type}

/-- A result without effect. -/
theorem runKeeps_pure (a : α) : RunKeeps (pure a : Run α) := fun s => .refl s

/-- An end with a status. -/
theorem runKeeps_throw (e : Nat) : RunKeeps (throw e : Run α) := fun s => .refl s

/-- The state is read. -/
theorem runKeeps_get : RunKeeps (get : Run State) := fun s => .refl s

/-- The state is changed by an operation that keeps it. -/
theorem runKeeps_change {f : State → State} (h : ∀ s : State, s.Keeps (f s)) : RunKeeps (change f) := fun s => h s

/-- What two computations in a row do: the first, then the second where the first did not end. -/
theorem runOn_bind (m : Run α) (f : α → Run β) (s : State) :
    runOn (m >>= f) s = match runOn m s with
      | (.ok a, t) => runOn (f a) t
      | (.error e, t) => (.error e, t) := by
  simp only [runOn, bind, ExceptT.bind, ExceptT.mk, ExceptT.run, StateT.run, StateT.bind, Id.run]
  rcases m s with ⟨_ | _, t⟩ <;> rfl

/-- Two computations in a row. -/
theorem runKeeps_bind {m : Run α} {f : α → Run β} (hm : RunKeeps m) (hf : ∀ a, RunKeeps (f a)) : RunKeeps (m >>= f) := by
  intro s
  rw [runOn_bind]
  have h := hm s
  revert h
  rcases runOn m s with ⟨_ | a, t⟩
  · exact id
  · exact fun h => h.trans (hf a t)

/-- A choice between two computations. -/
theorem runKeeps_ite {c : Prop} [Decidable c] {m n : Run α} (hm : RunKeeps m) (hn : RunKeeps n) : RunKeeps (if c then m else n) := by
  split <;> assumption

/-- A computation for each element of a list. -/
theorem runKeeps_eachDo {f : α → Run Unit} (h : ∀ a, RunKeeps (f a)) (l : List α) : RunKeeps (eachDo f l) := by
  induction l with
  | nil => exact runKeeps_pure ()
  | cons a t ih => exact runKeeps_bind (h a) fun _ => ih

/-- A command's whole effect keeps the state where its body does. -/
theorem keeps_runWhole {body : Job → Cmd → Run Unit} (h : ∀ j c, RunKeeps (body j c)) (s : State) (id i opcode : Nat) :
    s.Keeps (runWhole s id i opcode body) := by
  unfold runWhole
  split
  · exact .refl s
  · rename_i j _
    split
    · exact .refl s
    · rename_i c _
      split
      · have hk := h j c s
        revert hk
        rcases runOn (body j c) s with ⟨_ | _, t⟩
        · exact fun hk => hk.trans (t.keeps_finishCmd _ _ _)
        · exact fun hk => hk.trans (t.keeps_finishCmd _ _ _)
      · exact .refl s

/-- A part of a command's effect keeps the state where its body does. -/
theorem keeps_runPart {body : Job → Cmd → Run Unit} (h : ∀ j c, RunKeeps (body j c)) (s : State) (id i opcode : Nat) (st : Stage) :
    s.Keeps (runPart s id i opcode st body) := by
  unfold runPart
  split
  · exact .refl s
  · rename_i j _
    split
    · exact .refl s
    · rename_i c _
      split
      · have hk := h j c s
        revert hk
        rcases runOn (body j c) s with ⟨_ | _, t⟩
        · exact fun hk => hk.trans (t.keeps_finishCmd _ _ _)
        · exact fun hk => hk
      · exact .refl s

end Sys2Proof.Machine
end

