-- ==== Sys2Proof/Laws/Regs.lean ====
section
/-!
SUPPORT. What a register write that is granted does: the one law that the register rows are read through.
-/
namespace Sys2Proof.Machine

/-- How a register word is written: the bits that take the value and the bits that a 1 clears; none where no register is, or a lock governs it. -/
def plainMasks (off : Nat) : Option (Word × Word) :=
  match regAt off, lockBit off with
  | some (r, _, w), none => if stickyBits off = 0#32 then some (r.mask w [.rw, .rwl] &&& ~~~fixedBits off, r.mask w [.w1c]) else none
  | _, _ => none

/-- What storing leaves where no lock governs the register. -/
theorem State.storeReg_plain (s : State) (stall off : Nat) (v m c : Word) (h : plainMasks off = some (m, c)) :
    ∃ l, s.storeReg stall off v = { s.wr off (((s.rd off &&& ~~~m) ||| (v &&& m)) &&& ~~~(v &&& c)) with latch := l } := by
  unfold plainMasks at h
  split at h
  · rename_i r b w hr hl
    split at h
    · rename_i hs
      obtain ⟨rfl, rfl⟩ := Prod.mk.inj (Option.some.inj h)
      have h0 : s.lockedBits r off w = 0#32 := by simp [State.lockedBits, hl]
      refine ⟨(s.latch.filter fun e => e.1 != b), ?_⟩
      simp only [State.storeReg, hr, h0, State.codedValue, hs, BitVec.and_zero, BitVec.or_zero, BitVec.not_zero, BitVec.and_allOnes, if_true]
      rfl
    · cases h
  · cases h

/-- A granted write of a register row. -/
theorem State.writeRow_granted (s : State) (t : Tag) (n off : Nat) (v : Word) (h : s.grants t n off v) :
    s.writeRow t n off v = State.afterWrite off v s (s.storeReg t.stall.val off v) := by
  obtain ⟨h1, h2, h3⟩ := h
  simp [State.writeRow, State.whenLive, h1, State.accessWrite, h2, h3, State.regWrite]

end Sys2Proof.Machine
end

