-- ==== Sys2Proof/Tests/Slice0.lean ====
section
/-!
SUPPORT. Tests of one step each, an ill-formed term for every check of WellFormed, and for every statement with hypotheses
a state and operands that meet all of them together.
-/
open Sys2Proof Sys2Proof.Machine

section

set_option linter.unusedVariables false
set_option Elab.async false

namespace Sys2Proof.Machine

/-- The block right after the security core is released, with nothing enabled. -/
def live : State := { State.reset with phase := .live }
/-- A state with some register words set. -/
def State.regsSet (s : State) (l : List (Nat × Nat)) : State := l.foldl (fun s e => s.wr e.1 (BitVec.ofNat 32 e.2)) s
/-- The tag of stall 0 from the management port. -/
def tag0 : Tag := ⟨0, 0x142#12, 0⟩
/-- A descriptor with some bytes at its front, zero behind. -/
def desc128 (l : List Nat) : List Byte := (l.map (BitVec.ofNat 8)) ++ List.replicate (128 - l.length) 0#8
/-- A command that has started. -/
def cmdOf (d : List Byte) : Cmd := { desc := d, stage := .started, began := true }
/-- A placed job with some commands: job 7 of stall 2 on core 0. -/
def jobWith (l : List Cmd) : Job := { id := 7, src := .ring 0 0, stall := 2, phase := .placed, coreMask := 1, nCmds := l.length, cmds := l }
/-- A TWILL_PASS of a 2 by 2 output and one K step: weft at 0, warp at 0x200, output at 0x1000. -/
def twillDesc : List Byte := desc128 ([1, 1, 0, 0, 2] ++ List.replicate 11 0 ++ [0x28, 0, 0, 0, 2, 0, 2, 0, 1, 0, 0, 0, 0, 0, 0, 0, 0, 2, 0, 0, 64, 0, 0, 0, 0, 0, 0, 0, 0, 0, 0, 0, 0, 16, 0, 0, 64])
/-- A command whose effect has begun. -/
def goingOf (d : List Byte) : Cmd := { cmdOf d with stage := .running }
/-- A state with one job. -/
def State.withJob (s : State) (j : Job) : State := { s with cmd := { s.cmd with jobs := [j] } }
/-- Accumulators 5, 6, 7, 8 with their checksums. -/
def tile22 : Tile := { acc := [[5, 6], [7, 8]], ovf := [[false, false], [false, false]], chkCol := [11, 15], chkRow := [12, 14], corner := 26 }
/-- The pass of command 0 of job 7. -/
def pass22 : Pass := { job := 7, cmd := 0, tile := tile22, steps := 521, saved := 0 }
/-- A CONV_TILE that pools one pixel of one channel. -/
def poolDesc : List Byte := desc128 ([2, 1, 0, 0, 2] ++ List.replicate 11 0 ++ [2, 0, 1, 0, 0x11, 0x11, 1, 1, 0, 0, 0, 0, 1, 0, 1, 0, 1, 0, 1, 0, 0, 0, 0, 0, 1, 0, 1, 0, 1, 0, 0, 0, 0, 0, 0, 0, 0, 0, 0, 0, 1, 0, 1, 0])
/-- A CONV_TILE of two pixels of one channel, one output channel, in one run. -/
def denseDesc : List Byte := ((((((poolDesc.set 16 0).set 17 8).set 30 2).set 42 2).set 44 2).set 58 2).set 73 2
/-- A FUSED_TILES of two stages that pool one pixel, its stage table at bolt offset 0x2000. -/
def fusedDesc : List Byte := desc128 ([3, 1, 0, 0, 2] ++ List.replicate 11 0 ++ [2, 0, 0, 0, 1, 0, 1, 0, 1, 0, 1, 0, 0, 0, 0, 0, 1, 0, 1, 0, 0, 0, 0, 0, 1, 0, 1, 0, 0, 0, 0, 0, 64, 0, 0, 0, 64, 0, 0, 0, 0, 32, 0, 0, 0, 48, 0, 0, 128])
/-- A stage that pools one pixel. -/
def poolStage : List Byte := ([2, 8, 1, 0x11, 0x11, 1, 1, 0, 0, 0, 0, 0, 1, 0, 1, 1] : List Nat).map (BitVec.ofNat 8) ++ List.replicate 48 0
/-- A MOVE of 8 bytes from bolt offset 0 to 0x100 of core 0: mode, then rows, row bytes, source stride, and destination stride. -/
def moveDesc (mode rows n ss ds : Nat) : List Byte := desc128 ([10, 1, 0, 0, 2] ++ List.replicate 11 0 ++ [mode, 0, 0, 0, rows, 0, 0, 0, n, 0, 0, 0, ss, 0, 0, 0, 0, 0, 0, 0, 16, 0, 0, 0, 0, 1, 0, 0, 16, 0, 0, 0, ds])
/-- Its job has started the command. -/
def fusedUp : State := (live.withJob (jobWith [cmdOf fusedDesc])).poke (boltAddr 0 0x2000) (poolStage ++ poolStage)
/-- An open session 5 on port 0 of stall 3. -/
def sess5 : Session := { num := 5, version := 1, port := 0, host := 1, addr := ⟨false, 0x0A000001⟩, stall := 3, maxData := 1024, nonce := 9, last := 0 }
/-- A state with session 5 open. -/
def State.withSession (s : State) (x : Session) : State := s.updBar fun b => { b with slots := b.slots.set 0 (some x) }
/-- Session 5 owns the device, the scheduler core runs, and ring 3 has accepted and published 9 jobs. -/
def ownerUp : State := ((live.withSession sess5).updBar fun b => { b with owner := some 5 }).regsSet [(Reg.FW_STATUS, 127), (Reg.CMD_RING_SEQ 3, 9), (Reg.CMD_RING_PUB 3, 9)]
/-- Ring 3 of stall 2 is open, with 16 slots: entries through window 1, completions through window 2. -/
def ringUp : State := ownerUp.regsSet [(Reg.CMD_STATUS, 0x80000000), (Reg.CMD_RING_CTRL 3, 0x80040200), (Reg.CMD_RING_BASE 3 + 4, 0x1000000), (Reg.CMD_RING_COMP 3 + 4, 0x2000000),
  (Reg.BAR_WIN 1, 0x83000005), (Reg.BAR_WIN 2, 0x83000005), (Reg.BAR_WIN_SIZE 1, 0x10000), (Reg.BAR_WIN_SIZE 2, 0x10000)]
/-- A job entry for SEQ 9: one command, any core, best effort; the CRC is not computed. -/
def entry9 : List Byte := ([9, 0, 0, 0, 0, 0, 0, 0, 1, 1, 1, 0, 255, 0, 0, 0, 0, 0, 16] : List Nat).map (BitVec.ofNat 8) ++ List.replicate 5 0 ++ [255, 255, 255, 255] ++ List.replicate 36 0
/-- The entry with its CRC. -/
def sealed9 : List Byte := entry9.take 60 ++ leBytes 4 (crc32c (slice entry9 0 60)).toNat
/-- A command not yet started. -/
def cmdNew (d : List Byte) : Cmd := { desc := d }
/-- A command about to end with a status. -/
def endingOf (d : List Byte) (st : Nat) : Cmd := { cmdOf d with stage := .ending, status := st }
/-- A WAIT_TIME for time 0. -/
def waitDesc : List Byte := desc128 ([0x12, 1, 0, 0, 2] ++ List.replicate 11 0)
/-- A CTX_RESET of context 0. -/
def resetDesc : List Byte := desc128 ([9, 1, 0, 0, 2] ++ List.replicate 19 0 ++ [0, 0, 0, 0, 1])
/-- Job 7 of stall 2 waits to be placed on core 4. -/
def waitingJob (l : List Cmd) : Job := { jobWith l with phase := .accepted, coreMask := 16, list := 0x100 }
/-- Job 7 runs on core 4. -/
def placedJob (l : List Cmd) : Job := { waitingJob l with phase := .placed, core := 4 }
/-- Stall 2 is enabled on core 4 as a deadline stall, the processors run, the journal is in use; one job. -/
def placeWith (j : Job) : State := (live.regsSet [(Reg.FW_STATUS, 127), (Reg.CMD_STATUS, 0x80000000), (Reg.SCH_STALL_CTRL 2, 0xC0000001), (Reg.SCH_STALL_CORES 2, 16)]).withJob j
def placeMe (l : List Cmd) : State := placeWith (waitingJob l)
def placedState (l : List Cmd) : State := placeWith (placedJob l)
/-- Another job holds context 0. -/
def heldBy (l : List Cmd) : State := { placedState l with holds := [{ ctx := 0, job := 9, cmd := 0, excl := true }] }
def heldState : State := heldBy [cmdNew resetDesc]
/-- Job 7 of stall 2 with a list of one command in the bolt of core 4, and its memory. -/
def listJob : Job := { waitingJob [] with nCmds := 1, listDev := true, list := 0x1004000400 }
def listUp : State := ((placeWith listJob).poke 0x1004000400 (waitDesc.take 64)).poke (0x1004000400 + 64) (selvageBytes {} 2 64 (crc32c (waitDesc.take 64)).toNat)
/-- A CTX_RESET that waits for its contexts, and context 0 a full one of its stall. -/
def waitReset : Cmd := { cmdNew resetDesc with stage := .ctxWait }
def grantState : State := (placedState [waitReset]).setCtx 0 { state := 2, wrap := false, fmt := 1, owner := 2, latentW := 16, maxLen := 256, base := 0x1004000000, gen := 0, nextPos := 4, curLen := 4, scale := 0 }
/-- Job 7 has completed as SEQ 9 of ring 3. -/
def doneJob (p : JobPhase) (k : Nat) : Job := { jobWith [] with src := .ring 3 9, phase := p, pubStep := k, record := List.replicate 32 7 }
def doneState (p : JobPhase) (k : Nat) : State := ringUp.withJob (doneJob p k)
/-- Job 7 of ring 3 has run its command; the completion window takes no byte. -/
def lateJob : Job := { jobWith [{ endingOf waitDesc 0 with stage := .done }] with src := .ring 3 9 }
def pastSlot : State := (ringUp.withJob lateJob).wr (Reg.BAR_WIN_SIZE 2) 0
/-- A completion write of ring 3 is outstanding. -/
def awaitingAck (s : State) : State := s.updSession 5 fun x => { x with reqs := [⟨1, 2, [], 1, 0, .completion 3, 2⟩], nextSeq := 2 }
/-- A SIGNAL with some flags and a signal number, value 9. -/
def sigDesc (flags sig : Nat) : List Byte := desc128 ([0x11, 1, 0, 0, 2] ++ List.replicate 11 0 ++ [flags, sig, 0, 0, 0, 0, 0, 0, 9])
/-- A PUBLISH of 64 bytes from bolt offset 0 in one frame. -/
def pubDesc : List Byte := desc128 ([0x13, 1, 0, 0, 2] ++ List.replicate 11 0 ++ [0, 0, 1, 0, 64, 0, 42, 0, 0, 0, 0, 0, 16, 0, 0, 0, 64, 0, 0, 0, 0, 0, 0, 0, 0, 16, 0, 0, 16])
/-- A STATS_READ of frame 10 of stream 3. -/
def statDesc : List Byte := desc128 ([0x14, 1, 0, 0, 2] ++ List.replicate 11 0 ++ [3, 0, 0, 0, 10])
/-- Stream 3 of stall 0 has written the statistics of frame 10 into the bolt of core 1; a STATS_READ asks for them. -/
def statsUp (c : Cmd) : State := (((live.withJob { jobWith [c] with stall := 0 }).regsSet [(Reg.ING_STR_CTRL 3, 0x80000000)]).updStream 3 fun x =>
    { x with table := List.replicate 32 0 ++ [0, 0, 0, 1, 16], recs := [none, none, some 10, none] }).poke (0x1001000000 + 2 * 57472 + 57408) (selvageBytes {} 0 57408 0)
/-- A SENSOR_WRITE without records for frame 10 of stream 3. -/
def sensDesc : List Byte := desc128 ([0x15, 1, 0, 0, 2] ++ List.replicate 11 0 ++ [3, 0, 5, 0, 10])
/-- n bytes at an address with their valid selvage, of stall 0. -/
def State.withBuf (s : State) (a : Nat) (b : List Byte) : State := (s.poke a b).poke (selvageAt a b.length) (selvageBytes {} 0 b.length (crc32c b).toNat)
/-- A job of stall 0. -/
def jobWith0 (l : List Cmd) : Job := { jobWith l with stall := 0 }
/-- A PUBLISH's source and template are in the bolt of core 0. -/
def pubReady (l : List Cmd) : State := ((live.withBuf 0x1000000000 (List.replicate 64 5)).withBuf 0x1000001000 (List.replicate 42 6)).withJob (jobWith0 l)
/-- A node of one WAIT_TIME that may go to core 4, due 5 ms after the firing. -/
def graphNode : Node := { list := 0x100, nCmds := 1, deps := [], coreMask := 16, dlUs := 5000, cmds := [waitDesc] }
/-- Graph 5 of deadline stall 2 is admitted with its node on core 4, and its instance 3 fired at 7. -/
def graphUp : State := (((placeMe []).wr (Reg.SCH_GRAPH_CTRL 5) 0xC0200001#32).updGraph 5 fun g => { g with nodes := [graphNode], insts := [{ id := 3, fired := 7, frames := [] }], nextInst := 4 }).updSched fun c => { c with tasks := [{ graph := 5, node := 0, core := 4, c := 10, w := 5000, p := 9000 }] }
/-- The node table of graph 5 in the bolt of core 4, for best-effort stall 2 and the list of job 7; stream 3 triggers it. -/
def nodeRec : List Byte := leBytes 8 0x1004000400 ++ leBytes 4 1 ++ leBytes 4 16 ++ List.replicate 48 0
def graphFile : State := (((listUp.regsSet [(Reg.SCH_STALL_CTRL 2, 0x80000001), (Reg.SCH_GRAPH_TABLE 5, 0x4000800), (Reg.SCH_GRAPH_TABLE 5 + 4, 0x10), (Reg.SCH_GRAPH_TRIG 5 0, 8)]).updBar fun b => { b with owner := some 5 }).poke 0x1004000800 nodeRec).poke 0x1004000840 (selvageBytes {} 2 64 (crc32c nodeRec).toNat)
/-- The job of its node. -/
def nodeJob0 : Job := { id := 0, src := .node 5 3 0, stall := 2, coreMask := 16, list := 0x100, nCmds := 1, deadline := some 5000007, cmds := [cmdNew waitDesc] }
/-- Job 9 of best-effort stall 6 runs a TWILL_PASS on core 4, before its pass. -/
def lowJob : Job := { jobWith [cmdOf twillDesc] with id := 9, stall := 6, core := 4, phase := .placed, coreMask := 16 }
/-- Job 7 of the deadline stall wants the engine that job 9 holds. -/
def twoJobs : State := let s := placedState [cmdNew poolDesc]; { s with cmd := { s.cmd with jobs := s.cmd.jobs ++ [lowJob] } }
/-- The MOVE to offset 0x100 of core 4's bolt. -/
def moveTo4 : List Byte := (moveDesc 0 1 8 64 0).set 43 4#8
/-- Job 9, pre-empted in a MOVE to bolt offset 0x100. -/
def stoppedJob : Job := { lowJob with preempted := true, cmds := [goingOf moveTo4] }
/-- Job 7 would MOVE over what job 9 has written. -/
def moveJob : Job := placedJob [cmdNew moveTo4]
def overlapJobs (p : Option Preempt) : State := let s := placeWith moveJob; ({ s with cmd := { s.cmd with jobs := [moveJob, stoppedJob] } } : State).setPreempt 4 p
/-- Stall 6 has a spill area at 1 MiB, in a firewall region that lets it read and write. -/
def State.spillRegion (s : State) : State := ({ s with ddr := 2, ddrCap := 8 } : State).regsSet [(Reg.MEM_DDR_CFG, 0x40000008), (Reg.SCH_STALL_SPILL 6, 0x100000), (Reg.SAF_FWR_CTRL 0, 1), (Reg.SAF_FWR_BASE 0, 0), (Reg.SAF_FWR_LIMIT 0, 63), (Reg.SAF_FWR_MASK 0, 0x00400040)]
def spillUp (p : Option Preempt) : State := (overlapJobs p).spillRegion
/-- Job 9 has its 8 bytes at bolt offset 0x100 in the spill area. -/
def spiltJob : Job := { stoppedJob with spilled := [(boltAddr 4 0x100, 8, 0x100100)] }
def backUp : State := (placeWith spiltJob).spillRegion
/-- Job 9 stands between the runs of a CONV_TILE. -/
def convJob9 : Job := { lowJob with cmds := [{ goingOf denseDesc with eng := { runDue := true } }] }
def pausedConv : State := placeWith convJob9
/-- Job 8 of best-effort stall 3, which has had less time, waits on core 4. -/
def midJob : Job := { jobWith [cmdNew twillDesc] with id := 8, stall := 3, core := 4, phase := .placed, coreMask := 16 }
def sliceJobs : State := ({ live with cmd := { live.cmd with jobs := [lowJob, midJob] } } : State).regsSet [(Reg.FW_STATUS, 127), (Reg.SCH_STALL_CTRL 6, 0x80000001), (Reg.SCH_STALL_CTRL 3, 0x80000001), (Reg.SCH_BE_SLICE, 9500), (Reg.SCH_STALL_ALLOW 3, 4000)]
  |>.updSched fun c => { c with slice := c.slice.set 4 (some (6, 9500)), virt := c.virt.set 6 5 }
/-- Stream 3 of stall 0 takes RAW8 frames of 8 by 2 from port 2, channel 0; every 100 us. -/
def camera : State := live.regsSet [(Reg.ING_STR_CTRL 3, 0x80000200), (Reg.ING_STR_FMT 3, 0x08002A00), (Reg.ING_STR_GEOM 3, 0x00020008), (Reg.ING_STR_PERIOD 3, 100), (Reg.ING_STR_SENSOR 3, 0x10000000), (Reg.ING_CSI_CTRL 2, 0x80000000), (Reg.ING_CSI_CTRL 11, 0x80000000)]
/-- Frame 1 of the stream, one row received. -/
def openFrame : InFrame := { frame := 1, capture := 5, synced := false, stepGen := 0, rows := [1, 0, 0, 0], got := 1, last := 0 }
def midFrame : State := camera.updStream 3 fun x => { x with cur := some openFrame }
/-- Stream 3's set-up table, one RAW output with its buffers in the bolt of core 0; the context is not yet enabled. -/
def camTable : List Byte := leBytes 1 1 ++ List.replicate 63 0 ++ leBytes 2 6 ++ leBytes 4 0 ++ leBytes 2 8 ++ leBytes 2 2 ++ leBytes 2 8 ++ leBytes 2 2 ++ leBytes 2 0 ++ leBytes 8 0x1000001000 ++ leBytes 8 0x1000002000 ++ leBytes 8 0x1000003000 ++ leBytes 4 64 ++ leBytes 4 128 ++ List.replicate 16 0
def camReady : State := (camera.regsSet [(Reg.ING_STR_CTRL 3, 0), (Reg.ING_STR_TABLE 3, 0x400), (Reg.ING_STR_TABLE 3 + 4, 0x10)]).withBuf 0x1000000400 camTable
/-- Its frame 1 is complete in landing buffer 1 and on its way to the published one. -/
def camDone : State := (camera.updStream 3 fun x => { x with table := camTable }).updIsp fun i => { i with copy := some (3, openFrame) }
/-- A setting for frame 1 with two records. -/
def setting9 : Setting := { frame := 1, tag := 5, tune := 0, writes := [(1, 1, 7), (2, 1, 8)], confirm := [] }
def dueSet : Setting := { setting9 with dueAt := some 0 }
/-- A port in service with its link up, frames of up to 1518 bytes. -/
def portUp0 (p : Nat) : State := live.wr (Reg.ETH_PORT_CTRL p) 0xC00005EE#32
/-- A frame of 60 bytes with or without a launch time. -/
def txFrame (l : Option Nat) : TxFrame := { bytes := List.replicate 60 9, launch := l, due := false, job := 7, cmd := 0 }
/-- An 802.1X frame to the group address of R386, without FCS. -/
def eapFrame : List Byte := [1, 0x80, 0xC2, 0, 0, 3, 2, 0, 0, 0, 0, 5, 0x88, 0x8E] ++ List.replicate 46 0
/-- A PAUSE frame, and an ARP request for address 5. -/
def pauseFrame : List Byte := [1, 0x80, 0xC2, 0, 0, 1, 2, 0, 0, 0, 0, 5, 0x88, 8] ++ List.replicate 46 0
def arpFrame : List Byte := [255, 255, 255, 255, 255, 255, 2, 0, 0, 0, 0, 5, 8, 6, 0, 1, 8, 0, 6, 4, 0, 1] ++ List.replicate 19 0 ++ [5] ++ List.replicate 18 0
/-- The link of port 1 is up to device 2. -/
def linkUp : State := live.wr (Reg.BIL_PORT_CTRL 1) 0xC4020001#32
/-- What training finds on port 1 of device 0: port 1 of device 2, four lanes, this version. -/
def trained : TrainResult := { signal := 15, locked := 15, dev := 2, port := 1, minVer := 1, maxVer := 1, images := [] }
def sentPacket (n : Nat) : BilSent := { seq := 0, what := { msg := .level true, owner := none }, sends := n }

end Sys2Proof.Machine

/-! ### Terms that are not well formed, each refused by its check -/

theorem test_wf_entry : (Instr.entryFetched 0 (List.replicate 63 0#8)).wf = false := by decide
theorem test_wf_samples : (Instr.thermalSample (List.replicate 19 25)).wf = false := by decide
theorem test_wf_frame : (Instr.ethFrameReceive 0 (List.replicate 17 0#8)).wf = false := by decide
theorem test_wf_supply : (Instr.supplyLow 4096).wf = false := by decide
theorem test_wf_digest_peer : (Instr.digestPeer 0 0 { versions := [], enabled := true, digested := true, modelId := 0, digest := 0 }).wf = false := by decide
theorem test_wf_training : (Instr.bilTrainingDone 0 { trained with images := [] }).wf = false := by decide
theorem test_wf_write_empty : (Instr.bilPacketReceive 0 (.msg 0 (.write 0 0 0 []))).wf = false := by decide
theorem test_wf_write_long : (Instr.bilPacketReceive 0 (.msg 0 (.write 0 0 0 (List.replicate 65 0#8)))).wf = false := by decide

/-! ### The step -/

/-- A command that waits is run and leaves the queue. -/
theorem test_step_runs_front :
    (match step { live with pending := [.aliveToggle, .ppsPulse] } with | .next t => t.pending | _ => []) = [.ppsPulse] := by decide
/-- R364: a tick adds 8 ns at the reset rate. -/
theorem test_idle_tick : (match step (live.updTim fun t => { t with on := true }) with | .next t => (t.refNs, t.ns) | _ => (0, 0)) = (8, 8) := by decide
/-- R546: below 0.66 V no operation is guaranteed. -/
theorem test_supply_stops : step { live with pending := [.supplyLow 659] } = .fault .belowSurvival := rfl

/-! ### Worked examples of the manual: chapters "Architecture" to "Window feeder" -/

/-- Source ID of tidy1 of core 5 in cluster 2, and the base of that core's skein. -/
theorem test_source_id : unitSrc 21 3 = 0x0AB := by decide
theorem test_skein_address : skeinAddr 21 0 = 0x1015400000 := by decide
/-- One cell, one step: −3 as a signed INT4 has planes 1, 0, 1, 1; trimmed to 3 planes it is still −3. -/
theorem test_planes : planeValue true 0b1101 4 * 100 = -300 ∧ planeValue true 0b1101 3 * 100 = -300 := by decide
theorem test_trim : trimWidth true [-3, 0, 2] = 3 ∧ stepCost 3 = 3 ∧ stepCost 1 = 2 ∧ trimWidth false [0, 0] = 0 := by decide
/-- Requantising one drain row: MULT 27,000 and 16,000, SHIFT 20 and 20, OUT_ZERO −5. -/
theorem test_requant_int8 : requant 1 0 0xFFFB (27000, 20) (16000, 20) 123456#32 = 44 := by decide
theorem test_requant_saturates : requant 1 0 0xFFFB (27000, 20) (16000, 20) 2000000#32 = 127 := by decide
theorem test_requant_fp16 : requant 5 0 0 (27000, 20) (16000, 20) 123456#32 = 0x5210 := by decide +kernel
theorem test_requant_ties : requant 1 0 0 (1, 4) (1, 0) 1064#32 = 67 ∧ requant 1 1 0 (1, 4) (1, 0) 1064#32 = 66 := by decide
/-- WARP16: weft 7 and warp −1,234, stored as 0xFB2E; H gives −35 and L gives 322. -/
theorem test_warp16_signed : (combine [[-35]] [[false]] { acc := [[322#32]], ovf := [[false]], chkCol := [], chkRow := [], corner := 0 }).acc = [[BitVec.ofInt 32 (7 * -1234)]] := by decide
theorem test_warp16_unsigned : (combine [[1757]] [[false]] { acc := [[322#32]], ovf := [[false]], chkCol := [], chkRow := [], corner := 0 }).acc = [[450114#32]] := by decide

/-- The pass of the ledger's worked example: weft 3 and −2, warp 10, −4 and 7. -/
def ledgerPass : Tile := (runCells true 4 2 3 none [{ weft := [0b0011, 0b1110], warp := [10, -4, 7] }]).tile
theorem test_ledger_checks : ledgerPass.chkRow.map BitVec.toInt = [10, -4, 7] ∧ ledgerPass.chkCol.map BitVec.toInt = [39, -26] ∧ ledgerPass.corner = 13#32 := by decide
theorem test_ledger_cells : ledgerPass.acc.map (·.map BitVec.toInt) = [[30, -12, 21], [-20, 8, -14]] ∧ ledgerPass.classify = .clean := by decide
/-- Cell (1, 2) latches −6 instead of −14: the fault is located, and the difference mends it. -/
theorem test_ledger_single : (ledgerPass.setCell 1 2 fun _ => 0xFFFFFFFA#32).classify = .single 1 2 (BitVec.ofInt 32 (-8)) := by decide
theorem test_ledger_two : ((ledgerPass.setCell 1 2 fun _ => 0xFFFFFFFA#32).setCell 1 0 fun _ => 0#32).classify = .mismatch := by decide
/-- The convolution layer on one engine: K = 2,304 steps of INT4. -/
theorem test_pass_budget : passBudget false 2304 4 = 9729 := by decide

/-- Padding at small images: the output's size, and the columns that the taps of each output read, in mirror mode. -/
theorem test_out_size : outLen 1 1 1 3 1 1 = 1 ∧ outLen 4 2 2 3 1 2 = 4 ∧ outLen 4 0 0 3 1 2 = 0 := by decide
theorem test_mirror_taps :
    ([0, 1, 2, 3].map fun o => [0, 1, 2].map fun t => resolveIndex 2 (tapIndex o 1 2 t 2) 4)
      = [[some 2, some 0, some 2], [some 1, some 1, some 3], [some 0, some 2, some 2], [some 1, some 3, some 1]] := by decide
theorem test_one_pixel : resolveIndex 2 (-1) 1 = some 0 ∧ resolveIndex 3 1 1 = some 0 ∧ resolveIndex 0 1 1 = none := by decide

/-- A 3 by 3 INT4 layer of 256 channels over an image, as one CONV_TILE in runs of 512. -/
def backbone : Layer :=
  { kind := 0, wSigned := true, pSigned := false, padMode := 0, bits := 4, avgIn := false, both := false, fmt := 1, rnd := 0, ovfMark := false,
    cin := false, argmax := false, argmaxOnly := false, fh := 3, fw := 3, sy := 1, sx := 1, dy := 1, dx := 1, padT := 1, padB := 1, padL := 1,
    padR := 1, inH := 96, inW := 160, cIn := 256, cOut := 512, y0 := 0, x0 := 0, tileH := 16, tileW := 160, runLen := 512, padVal := 0,
    gIn := 1, gOut := 1, outZero := 0, storeY0 := 0, storeX0 := 0, storeH := 17, storeW := 160, inOff := 0, rowStride := 160, chStride := 2752,
    weft := 0, cinOff := 0, cinStride := 0, out := 0, outStride := 2560, rowScale := 0, colScale := 0, argmaxOff := 0 }
theorem test_tile_runs : backbone.runs = 5 ∧ backbone.k = 2304 ∧ backbone.fpMax = 972 := by decide +kernel
theorem test_tile_budget : backbone.runBudget = 9745 ∧ backbone.budget = 48725 := by decide +kernel
/-- The three-stage context block: stage 3 over 64 by 64, stage 2 over 66 by 66 with dilation 2, stage 1 over 70 by 70. -/
def stage3 : Layer := { backbone with bits := 8, cIn := 64, tileH := 64, tileW := 64 }
theorem test_fused_budget :
    stage3.fpMax = 660 ∧ stage3.budget = 8 * 5132
    ∧ { stage3 with tileH := 66, tileW := 66, dy := 2, dx := 2 }.fpMax = 910 ∧ { stage3 with tileH := 66, tileW := 66, dy := 2, dx := 2 }.budget = 9 * 5136
    ∧ { stage3 with tileH := 70, tileW := 70 }.fpMax = 792 ∧ { stage3 with tileH := 70, tileW := 70 }.budget = 10 * 5134 := by decide +kernel

/-! ### Worked examples: "Tidy units", "Sequence contexts", "Memory" -/

/-- 1.0, −1.0 and others as FP32. -/
theorem test_exp : fp32.bits (fp32.exp (.ofInt (-1))) = 0x3EBC5AB2 ∧ fp32.bits (fp32.exp (.ofInt (-2))) = 0x3E0A9555 := by decide +kernel

/-- A stage record. -/
def stageRec (op dst ab c param : Nat) (imm0 : Nat := 0) (imm1 : Nat := 0) : List Byte :=
  leBytes 1 op ++ leBytes 1 dst ++ leBytes 1 ab ++ leBytes 1 c ++ leBytes 2 param ++ leBytes 2 0 ++ leBytes 4 imm0 ++ leBytes 4 imm1
/-- A tensor record: format and space, source, byte 2, table, offset, strides. -/
def tensorRec (b0 b1 b2 b3 off s0 s1 : Nat) : List Byte :=
  leBytes 1 b0 ++ leBytes 1 b1 ++ leBytes 1 b2 ++ leBytes 1 b3 ++ leBytes 4 off ++ leBytes 4 s0 ++ leBytes 4 s1 ++ List.replicate 16 0
/-- The softmax chain of the worked example: RSOFTMAX, SUB, EXP, DIV. -/
def softmax : List Byte := stageRec 0x36 0 0x00 0 0 ++ stageRec 0x02 2 0x40 0 0 ++ stageRec 0x14 3 0x06 0 0 ++ stageRec 0x11 4 0x57 0 0
/-- The chain's budget for a descriptor. -/
def chainBudget (d : TidyD) (chain tens : List Byte) : Nat := tidyBudget d (chainOf (stagesOf d chain)).1 (tensorsOf d tens)
theorem test_softmax_budget :
    chainBudget { n := 4, ct := 0, both := true, nIn := 1, nOut := 1, d0 := 1024, d1 := 2048, d2 := 1, d3 := 1, chain := 0, tensors := 0 }
      softmax (tensorRec 5 0 0 0 0 2 2048 ++ tensorRec 0x15 8 0 0 0 2 2048) = 282688 := by decide +kernel
/-- A TIDY_CHAIN that runs it on one row of 1.0, 2.0 and 3.0 from bolt offset 0x1000 to 0x2000. -/
def softmaxRun : State :=
  let d := desc128 ([4, 1, 0, 0, 2] ++ List.replicate 11 0 ++ [4, 0x09, 0, 0, 3, 0, 0, 0, 1, 0, 1, 0, 1, 0, 0, 0, 0, 0, 0, 0, 0, 0x10, 0, 0])
  let s := live.withJob (jobWith0 [cmdOf d])
  (((s.poke (boltAddr 0 0) softmax).poke (boltAddr 0 0x1000) (tensorRec 7 0 0 0 0x2000 4 64 ++ tensorRec 7 8 0 0 0x3000 4 64)).poke (boltAddr 0 0x2000)
    (leBytes 4 0x3F800000 ++ leBytes 4 0x40000000 ++ leBytes 4 0x40400000))
theorem test_softmax : (match exec (.tidyChain 7 0 []) softmaxRun with | .next t => (t.endsAs 7 0, t.peek (boltAddr 0 0x3000) 12) | _ => (none, []))
    = (some 0, leBytes 4 0x3DB861F3 ++ leBytes 4 0x3E7A9A1A ++ leBytes 4 0x3F2A4D3B) := by decide +kernel
/-- The pillar-count chain's budget. -/
theorem test_pillar_budget :
    chainBudget { n := 12, ct := 0, both := false, nIn := 2, nOut := 1, d0 := 1000, d1 := 120, d2 := 1, d3 := 1, chain := 0, tensors := 0 }
      (stageRec 0x01 0 0xC0 0 0 0x424CCCCD ++ stageRec 0x03 0 0xC4 0 0 0x40200000 ++ stageRec 0x0F 0 0x04 0 1
        ++ stageRec 0x01 1 0xC1 0 0 0x424CCCCD ++ stageRec 0x03 1 0xC5 0 0 0x40200000 ++ stageRec 0x0F 1 0x05 0 1
        ++ stageRec 0x0C 2 0x04 0 0 0 0x43800000 ++ stageRec 0x0C 3 0x05 0 0 0 0x43800000 ++ stageRec 0x03 2 0x76 0 0
        ++ stageRec 0x04 3 0xC5 4 0 0x43800000 ++ stageRec 0x0D 3 0x76 12 0 0xBF800000 ++ stageRec 0x42 0 0xC7 0 0 0x3F800000)
      (tensorRec 7 0 0 0 0 16 16000 ++ tensorRec 7 0 0 0 4 16 16000 ++ tensorRec 2 0 0x80 1 0x200000 0 65536) = 48192 := by decide +kernel

/-- Context 9 of the ring of four: INT8 latents of 64 elements, WRAP. -/
def ring4 (next : Nat) : CtxRec :=
  { state := 1, wrap := true, fmt := 0, owner := 2, latentW := 64, maxLen := 4, base := 0, gen := 0, nextPos := next, curLen := min next 4, scale := 0 }
theorem test_ring_window : (ring4 5).window = [1, 2, 3, 4] ∧ (ring4 8).window = [4, 5, 6, 7] ∧ (ring4 13).window = [9, 10, 11, 12] := by decide
theorem test_ring_next : newNext [⟨0, 9, 0⟩] 9 (ring4 5) = 5 ∧ newNext [⟨0, 9, 8⟩, ⟨1, 9, 12⟩] 9 (ring4 8) = 13 := by decide
theorem test_ring_wins : kvWins 4 [⟨0, 9, 8⟩, ⟨1, 9, 12⟩] ⟨0, 9, 8⟩ = false ∧ kvWins 4 [⟨0, 9, 8⟩, ⟨1, 9, 12⟩] ⟨1, 9, 12⟩ = true := by decide
/-- Two tokens decoded: FP32 query 1.0, SM_SCALE 0.5, latents (2, 1) and (4, −1). -/
theorem test_decode_two :
    (let o := [[Fp.ofInt 2, Fp.ofInt 1], [Fp.ofInt 4, Fp.ofInt (-1)]].foldl (DecRow.token (fp32.value 0x3F000000) [.ofInt 1, .ofInt 0]) { u := [.ofInt 0, .ofInt 0] }
     o.u.map fun u => fp32.bits (fp32.div u o.l)) = [0x405D9354, 0xBEEC9A9F] := by decide +kernel
/-- The bird's-eye grid: region size, creation's budget, one cell's addresses, the scatter's and the attention's budgets. -/
theorem test_grid_region : regionBytes 64 1 16 = 1152 ∧ tagTerm 16 = 1 ∧ 64 + ceilDiv 65536 8 + 65536 * 3 = 204864 := by decide
theorem test_grid_slot :
    ({ ring4 38 with maxLen := 16, base := 0x1013232000 }).slotAddr (37 % 16) = 0x1013232140
    ∧ ({ ring4 38 with maxLen := 16, base := 0x1013232000 }).tagAddr (37 % 16) = 0x1013232428
    ∧ ({ ring4 38 with maxLen := 16 }).lo = 22 := by decide
/-- The attention of one group: GROUP mode, 2 heads of 64, 32 queries, a key block of 512. -/
def gridAttn : AttnD :=
  { mode := 1, causal := false, fmt := 5, nh := 2, kb := 512, nq := 32, dk := 64, dv := 64, qpc := 1, ctx := 0, nctx := 32, q := 0, qs := 0,
    qpos := 0, wuk := 0, wukRs := 0, wuv := 0, wuvCs := 0, vs := 0, scratch := 0, scratchSize := 0, out := 0, outStride := 0 }
theorem test_grid_attn : attnBudget 64 16 64 gridAttn = 17766 ∧ attnScratch 64 gridAttn = 541184 := by decide

/-- Loading one weft set: in-core bit-steps, and the LPDDR5X term at 2.84 GB/s plus 1.5 µs. -/
theorem test_move_steps : 64 + ceilDiv 589824 256 = 2368 := by decide

/-! ### Worked examples: "Scheduling" to "Power" -/

/-- Graphs 4, 5 and the third graph on core 9. -/
def task4 : Task := { graph := 4, node := 0, core := 9, c := 2884308, w := 8000, p := 33333 }
def task5 : Task := { graph := 5, node := 0, core := 9, c := 485261, w := 2000, p := 10000 }
def task6 : Task := { graph := 6, node := 0, core := 9, c := 760000, w := 1000, p := 5000 }
/-- Best-effort stall 8 runs on core 9 with an allowance. -/
def core9 (allow slice : Nat) : State := live.regsSet [(Reg.SCH_STALL_CORES 8, 0x200), (Reg.SCH_STALL_ALLOW 8, allow), (Reg.SCH_TEST_SLICE, slice)]
theorem test_blocking : (core9 190000 237500).blocking 9 = 241192 / 950 ∧ (core9 33792 28500).blocking 9 = 40 := by decide +kernel
theorem test_demand : demandAt (241192 / 950) [task4, task5] 8000 = 241192 / 950 + 2884308 / 950 + 485261 / 950 := by decide +kernel
theorem test_admits_two : admits (241192 / 950) [task4, task5] = true := by decide +kernel
theorem test_third_refused : admits (241192 / 950) [task4, task5, task6] = false := by decide +kernel
theorem test_third_admitted : admits 40 [task4, task5, task6] = true := by decide +kernel

/-- Linearising one companded code: LIN[146] = 312,000, LIN[147] = 320,192. -/
theorem test_linearise : knee (fun k => if k = 146 then 312000 else if k = 147 then 320192 else 0) 4 2345 = 316608 := by decide
/-- Disciplining and stepping: the step tick lands at counter value 5,999,999,300. -/
theorem test_time_step :
    (let s := live.updTim fun t => { t with on := true, now := 5999998042 * 2 ^ 32, incr := 8 * 2 ^ 32 + 858993, stepReq := some (1250 * 2 ^ 32) }
     (s.timTick.ns, s.timTick.stepGen)) = (5999999300, 1) := by decide
/-- 85 ticks later pulse 30 of START 5,000,000,000 and PERIOD 33,333,333 is due, and not one tick before. -/
theorem test_trig_due :
    (let s (n : Nat) := (live.updTim fun t => { t with on := true, now := 5999999300 * 2 ^ 32 + n * (8 * 2 ^ 32 + 858993), incr := 8 * 2 ^ 32 + 858993 }).regsSet
      [(Reg.TIM_TRIG_START 2, 705032704), (Reg.TIM_TRIG_START 2 + 4, 1), (Reg.TIM_TRIG_PERIOD 2, 33333333)]
     ((s 84).trigTarget 2 30, (s 84).actionDue ((s 84).trigTarget 2 30) 16, (s 85).actionDue ((s 85).trigTarget 2 30) 16)) = (5999999990, false, true) := by decide
/-- A power cap from 1,500 at 68.0 W with WATTS 40: at most 10 % lower each period. -/
theorem test_cap_steps :
    (List.range 8).map (fun n => (List.range (n + 1)).foldl (fun c _ => nextLimit false false c 680 40) 1500) = [1350, 1215, 1093, 983, 884, 795, 715, 643] := by decide

/-! ### Worked examples: "Safety", "The Tally", "Several devices" -/

/-- Two cameras and a weight set: the oldest time wins, flags join, the pass adds RETRIED. -/
theorem test_provenance :
    provOfInputs [{ hasTime := true, capture := 8001500000, frame := 500, stream := 3, synced := true },
      { hasTime := true, capture := 8000000000, frame := 740, stream := 7, synced := true, flags := 1 }, {}] (2 ^ 4)
    = { hasTime := true, capture := 8000000000, frame := 740, stream := 7, synced := true, flags := 0x11 } := by decide
/-- Three porters refused at one line: the fabric's report opens the window, the channel's becomes its root, the next core's pair joins. -/
def portersRefused : State :=
  let pair (s : State) : State := (s.report 0x180 0x34 9 0x4000).report 0x110 0x30 9 0x4000
  let take (s : State) (src : BitVec 12) : State := match exec (.faultMessageArrive src) s with | .next t => t | _ => s
  take (take (pair (take (take (pair live) 0x180#12) 0x110#12)) 0x180#12) 0x110#12
theorem test_root :
    portersRefused.tal.windows.map (fun w => (w.msg.source, w.msg.kind, w.msg.stall, w.msg.cls, w.msg.count, w.due)) = [(0x110, 0x30, 9, 1, 4, 10000)]
    ∧ portersRefused.isPending 0x30 = true ∧ portersRefused.isPending 0x34 = true := by decide +kernel
/-- Device 1 reaches device 3 through port 1, which receives on its port 1. -/
theorem test_wired : wiredTo 1 1 = (3, 1) := by decide
theorem test_remote_address : regionOf 0xBFC9200000 = .remote 3 0xFC9200000 ∧ remoteLocal 0xFC9200000 = some (boltAddr 9 0x200000) := by decide

/-! ### What meets the hypotheses of the statements over every command -/

theorem met_ExecFollows : ∃ t, exec (.publish 7 0) (live.withJob (jobWith [])) = .next t := ⟨_, rfl⟩
theorem met_StepKeepsCanon : let s : State := { live with pending := [.ppsPulse, .aliveToggle] }; s.canon ∧ s.shaped ∧ s.pending ≠ [] := by decide +kernel
theorem met_StepKeepsCanon_step : ∃ t, step { live with pending := [.ppsPulse, .aliveToggle] } = .next t := ⟨_, rfl⟩
theorem met_PowerAndThermalSamples_7 : let mv : Nat := 659; mv < 660 := by decide

/-! ### What meets the hypotheses of each statement: `met_<statement>_<clause>` -/

theorem met_StepRunsFrontCommand_1 :
    let s : State := { live with pending := [.ppsPulse, .aliveToggle] }
    let c : Instr := .ppsPulse
    let l : List Instr := [.aliveToggle]
    s.pending = c :: l := by decide

theorem met_StepRunsFrontCommand_2 :
    let s : State := live
    s.pending = [] := by decide

theorem met_RegisterWrites_2 :
    let s : State := live
    let off : Nat := 0x500030
    let hi : Nat := 31
    let lo : Nat := 16
    let v : Nat := 70000
    let h : Nat := 15
    let l : Nat := 0
    hi < 32 ∧ lo ≤ hi := by decide

theorem met_RegisterWrites_3 :
    let s : State := live
    let off : Nat := 0x500030
    let n : Nat := 31
    let m : Nat := 31
    let b : Bool := true
    n < 32 := by decide

theorem met_RegisterWrites_4 :
    let s : State := live
    let off : Nat := 0x500230
    let v : Nat := 2 ^ 64 - 1
    v < 2 ^ 64 := by decide

theorem met_RegisterWrites_5 :
    let s : State := live
    let t : Tag := tag0
    let n : BitVec 16 := 0
    let v : Word := 7#32
    s.grants t n.toNat Reg.TAL_HIST_RD v := by decide

theorem met_RegisterWrites_6 :
    let s : State := live
    let t : Tag := ⟨3, 0x120#12, 0⟩
    let n : BitVec 16 := 0
    let a : BitVec 40 := 0x3000400034#40
    let v : Word := 7#32
    let off : Nat := 0x400034
    regionOf a.toNat = .regs off ∧ (s.phase = .live ∧ off % 4 = 0 ∧ (s.regDeny t n.toNat off (some v)).isSome = true) := by decide

theorem met_RegisterWrites_7 :
    let s : State := live
    let t : Tag := tag0
    let n : BitVec 16 := 0
    let a : BitVec 40 := 0x4000000000#40
    let v : Word := 7#32
    (match regionOf a.toNat with | .regs _ => false | _ => true) = true := by decide

theorem met_DetectionMerges_1 :
    let s : State := live.report 5 6 0 9
    let src : Nat := 5
    let kind : Nat := 6
    let stall : Nat := 0
    let addr : Nat := 9
    let i : Nat := 0
    let m : Msg := { source := 5, kind := 6, stall := 0, cls := kindClass 6, count := 1, addr := 9 }
    s.tal.waiting[i]? = some m ∧ (m.source = src ∧ m.kind = kind ∧ m.addr = addr % 2 ^ 40) := by decide

theorem met_DetectionMerges_2 :
    let s : State := live.report 5 6 0 9
    let src : Nat := 5
    let kind : Nat := 6
    let stall : Nat := 0
    let addr : Nat := 8
    (∀ m ∈ s.tal.waiting, ¬ (m.source = src ∧ m.kind = kind ∧ m.addr = addr % 2 ^ 40)) ∧ (s.tal.waiting.filter fun m => m.source == src).length < 4 := by decide

theorem met_DetectionMerges_3 :
    let s : State := (((live.report 5 6 0 1).report 5 6 0 2).report 5 6 0 3).report 5 6 0 4
    let src : Nat := 5
    let kind : Nat := 6
    let stall : Nat := 0
    let addr : Nat := 8
    (∀ m ∈ s.tal.waiting, ¬ (m.source = src ∧ m.kind = kind ∧ m.addr = addr % 2 ^ 40)) ∧ 4 ≤ (s.tal.waiting.filter fun m => m.source == src).length := by decide

theorem met_DetectionMerges_4 :
    let s : State := live.report 5 6 0 9
    let src : Nat := 5
    let kind : Nat := 6
    let stall : Nat := 0
    let addr : Nat := 8
    let n : Nat := 5
    (s.tal.waiting.filter fun m => m.source == n).length ≤ 4 := by decide

theorem met_TimeStepApplied_1 :
    let s : State := { live with tim := { on := true, now := 5 * 2 ^ 32, stepReq := some (-(3 * 2 ^ 32)) } }
    let d : Int := -(3 * 2 ^ 32)
    s.tim.on = true ∧ s.tim.stepReq = some d ∧ s.tim.now + s.tim.incr < 2 ^ 95 ∧ 0 ≤ (s.tim.now + s.tim.incr : Int) + d ∧ (s.tim.now + s.tim.incr : Int) + d < 2 ^ 95 := by decide

theorem met_TimeStepApplied_2 :
    let s : State := { live with tim := { on := true, now := 5 * 2 ^ 32, stepReq := some (-(14 * 2 ^ 32)) } }
    let d : Int := -(14 * 2 ^ 32)
    s.tim.on = true ∧ s.tim.stepReq = some d ∧ s.tim.now + s.tim.incr < 2 ^ 95 ∧ ((s.tim.now + s.tim.incr : Int) + d < 0 ∨ 2 ^ 95 ≤ (s.tim.now + s.tim.incr : Int) + d) := by decide

theorem met_TimeRegisterCommands_1 :
    let s : State := { live with tim := { on := true, stepReq := some 4 } }
    let t : Tag := tag0
    let v : Word := 9#32
    s.grants t 0 Reg.TIM_CTRL (v ||| 0x80000000#32) ∧ v.getLsbD 30 = false ∧ v.getLsbD 29 = false := by decide

theorem met_TimeRegisterCommands_2 :
    let s : State := live
    let t : Tag := tag0
    let v : Word := 100#32
    s.grants t 0 Reg.TIM_CTRL (v ||| 0x40000000#32) ∧ v.getLsbD 31 = false ∧ v.getLsbD 29 = false := by decide

theorem met_TimeRegisterCommands_3 :
    let s : State := (live.setBit Reg.TIM_STATUS 31 true)
    let t : Tag := tag0
    let v : Word := 0x40000000#32
    s.grants t 0 Reg.TIM_CTRL (v ||| 0x20000000#32) ∧ v.getLsbD 31 = false := by decide

theorem met_TimeRegisterCommands_4 :
    let s : State := live.regsSet [(Reg.TIM_INCREMENT_FRAC, 0xFFFFFFF0)]
    let t : Tag := tag0
    let v : Word := 7#32
    s.grants t 0 Reg.TIM_INCREMENT_NS v ∧ (v.toNat % 2 ^ 8 = 7 ∨ v.toNat % 2 ^ 8 = 8) := by decide

theorem met_TimeRegisterCommands_4b :
    let s : State := live
    let t : Tag := tag0
    let v : Word := 0x108#32
    s.grants t 0 Reg.TIM_INCREMENT_NS v ∧ (v.toNat % 2 ^ 8 = 7 ∨ v.toNat % 2 ^ 8 = 8) := by decide

theorem met_TimeRegisterCommands_5 :
    let s : State := live.regsSet [(Reg.TIM_INCREMENT_NS, 7)]
    let t : Tag := tag0
    let v : Word := 9#32
    s.grants t 0 Reg.TIM_INCREMENT_NS v ∧ v.toNat % 2 ^ 8 ≠ 7 ∧ v.toNat % 2 ^ 8 ≠ 8 := by decide

theorem met_LeaseAndCaptures_1 :
    let s : State := { live.setBit Reg.TIM_STATUS 31 true with tim := { leaseDue := some 0 }, refNs := 8 }
    let d : Nat := 0
    s.tim.leaseDue = some d ∧ d < s.refNs := by decide

theorem met_LeaseAndCaptures_2 :
    let s : State := { live.regsSet [(Reg.TIM_TSIN_CTRL 2, 0x80000001)] with tim := { on := true, now := 99 * 2 ^ 32 } }
    let pin : Fin 4 := 2
    let rising : Bool := true
    s.tim.on = true ∧ s.tim.tsin.length = 4 ∧ s.bit (Reg.TIM_TSIN_CTRL pin) 31 = true ∧ s.bit (Reg.TIM_TSIN_CTRL pin) (if rising then 0 else 1) = true ∧ (s.tim.tsin.getD pin []).length < 8 := by decide

theorem met_LeaseAndCaptures_3 :
    let s : State := { live.regsSet [(Reg.TIM_TSIN_CTRL 2, 0x80000002)] with tim := { on := true, tsin := [[], [], List.replicate 8 0, []] } }
    let pin : Fin 4 := 2
    let rising : Bool := false
    s.tim.on = true ∧ s.bit (Reg.TIM_TSIN_CTRL pin) 31 = true ∧ s.bit (Reg.TIM_TSIN_CTRL pin) (if rising then 0 else 1) = true ∧ 8 ≤ (s.tim.tsin.getD pin []).length := by decide

theorem met_LeaseAndCaptures_4 :
    let s : State := { live with tim := { tsin := [[], [7#128, 8#128], [], []] } }
    let t : Tag := tag0
    let pin : Fin 4 := 1
    let r : BitVec 128 := 7#128
    let l : List (BitVec 128) := [8#128]
    s.phase = .live ∧ s.regDeny t 0 (Reg.TIM_TSIN_REC pin) none = none ∧ s.tim.tsin[pin.val]? = some (r :: l) := by decide

theorem met_TriggerPulses_1 :
    let s : State := live.regsSet [(Reg.TIM_TRIG_WIDTH 3, 100)]
    let t : Tag := tag0
    let pin : Fin 8 := 3
    let v : Word := 0#32
    s.grants t 0 (Reg.TIM_TRIG_CTRL pin) (v ||| 0x80000000#32) ∧ s.tim.trig.length = 8 ∧ s.bit (Reg.TIM_TRIG_CTRL pin) 31 = false ∧ s.rd (Reg.TIM_TRIG_WIDTH pin) ≠ 0#32 ∧ (s.rd (Reg.TIM_TRIG_PERIOD pin) = 0#32 ∨ s.rd (Reg.TIM_TRIG_WIDTH pin) < s.rd (Reg.TIM_TRIG_PERIOD pin)) := by decide

theorem met_TriggerPulses_1b :
    let s : State := live.regsSet [(Reg.TIM_TRIG_WIDTH 3, 100), (Reg.TIM_TRIG_PERIOD 3, 101)]
    let t : Tag := tag0
    let pin : Fin 8 := 3
    let v : Word := 0#32
    s.grants t 0 (Reg.TIM_TRIG_CTRL pin) (v ||| 0x80000000#32) ∧ s.tim.trig.length = 8 ∧ s.bit (Reg.TIM_TRIG_CTRL pin) 31 = false ∧ s.rd (Reg.TIM_TRIG_WIDTH pin) ≠ 0#32 ∧ (s.rd (Reg.TIM_TRIG_PERIOD pin) = 0#32 ∨ s.rd (Reg.TIM_TRIG_WIDTH pin) < s.rd (Reg.TIM_TRIG_PERIOD pin)) := by decide

theorem met_TriggerPulses_2 :
    let s : State := { live.regsSet [(Reg.TIM_TRIG_CTRL 0, 0x80000000)] with tim := { trig := { active := true } :: List.replicate 7 {} } }
    let t : Tag := tag0
    let pin : Fin 8 := 0
    let v : Word := 0#32
    s.grants t 0 (Reg.TIM_TRIG_CTRL pin) (v &&& ~~~0x80000000#32) ∧ s.tim.trig.length = 8 ∧ s.bit (Reg.TIM_TRIG_CTRL pin) 31 = true := by decide

theorem met_TriggerPulses_3 :
    let s : State := { live.regsSet [(Reg.TIM_TRIG_CTRL 0, 0x80000000), (Reg.TIM_TRIG_WIDTH 0, 100), (Reg.TIM_TRIG_START 0, 50)] with tim := { on := true, now := 40 * 2 ^ 32 } }
    let pin : Fin 8 := 0
    s.tim.on = true ∧ s.tim.trig.length = 8 ∧ s.bit (Reg.TIM_TRIG_CTRL pin) 31 = true ∧ (s.trig pin).active = false ∧ s.trigHas pin (s.trig pin).next = true ∧ s.trigTarget pin (s.trig pin).next * 2 ^ 32 ≤ s.tim.now + 16 * 2 ^ 32 := by decide

theorem met_TriggerPulses_4 :
    let s : State := { live.regsSet [(Reg.TIM_TRIG_CTRL 0, 0x80000000), (Reg.TIM_TRIG_WIDTH 0, 100), (Reg.TIM_TRIG_START 0, 50)] with tim := { on := true, now := 140 * 2 ^ 32, trig := { active := true, next := 1, off := 150 } :: List.replicate 7 {} } }
    let pin : Fin 8 := 0
    s.tim.on = true ∧ s.tim.trig.length = 8 ∧ (s.trig pin).active = true ∧ (s.trig pin).off * 2 ^ 32 ≤ s.tim.now + 16 * 2 ^ 32 ∧ ((s.trig pin).completing = false ∧ s.trigHas pin (s.trig pin).next = false) := by decide

theorem met_TriggerPulses_5 :
    let s : State := { live.regsSet [(Reg.TIM_TRIG_CTRL 0, 0x80000000), (Reg.TIM_TRIG_WIDTH 0, 100), (Reg.TIM_TRIG_PERIOD 0, 1000)] with tim := { on := true, now := 140 * 2 ^ 32, trig := { active := true, next := 1, off := 150 } :: List.replicate 7 {} } }
    let pin : Fin 8 := 0
    s.tim.on = true ∧ s.tim.trig.length = 8 ∧ (s.trig pin).active = true ∧ (s.trig pin).off * 2 ^ 32 ≤ s.tim.now + 16 * 2 ^ 32 ∧ ((s.trig pin).completing = true ∨ s.trigHas pin (s.trig pin).next = true) := by decide

theorem met_TriggerPulses_6 :
    let s : State := live
    let t : Tag := tag0
    let pin : Fin 8 := 3
    let v : Word := 0#32
    s.grants t 0 (Reg.TIM_TRIG_CTRL pin) (v ||| 0x80000000#32) ∧ s.bit (Reg.TIM_TRIG_CTRL pin) 31 = false ∧ (s.rd (Reg.TIM_TRIG_WIDTH pin) = 0#32 ∨ (s.rd (Reg.TIM_TRIG_PERIOD pin) ≠ 0#32 ∧ s.rd (Reg.TIM_TRIG_PERIOD pin) ≤ s.rd (Reg.TIM_TRIG_WIDTH pin))) := by decide

theorem met_TriggerPulses_6b :
    let s : State := live.regsSet [(Reg.TIM_TRIG_WIDTH 3, 100), (Reg.TIM_TRIG_PERIOD 3, 100)]
    let t : Tag := tag0
    let pin : Fin 8 := 3
    let v : Word := 0#32
    s.grants t 0 (Reg.TIM_TRIG_CTRL pin) (v ||| 0x80000000#32) ∧ s.bit (Reg.TIM_TRIG_CTRL pin) 31 = false ∧ (s.rd (Reg.TIM_TRIG_WIDTH pin) = 0#32 ∨ (s.rd (Reg.TIM_TRIG_PERIOD pin) ≠ 0#32 ∧ s.rd (Reg.TIM_TRIG_PERIOD pin) ≤ s.rd (Reg.TIM_TRIG_WIDTH pin))) := by decide

theorem met_PpsAndBilvanTime_1 :
    let s : State := { live with tim := { ppsLast := some 3 } }
    let t : Tag := tag0
    let v : Word := 10#32
    s.grants t 0 Reg.TIM_PPS_CTRL (v ||| 0x80000000#32) := by decide

theorem met_PpsAndBilvanTime_2 :
    let s : State := { live.regsSet [(Reg.TIM_PPS_CTRL, 0x8000000A)] with tim := { on := true, prev := (10 ^ 9 - 24) * 2 ^ 32, now := (10 ^ 9 - 16) * 2 ^ 32 } }
    let k : Nat := 1
    s.tim.on = true ∧ s.bit Reg.TIM_PPS_CTRL 31 = true ∧ (s.bit Reg.TIM_PPS_CTRL 30 = false ∨ s.synced = true) ∧ s.tim.stepped = false ∧ (s.tim.now + 16 * 2 ^ 32) / (10 ^ 9 * 2 ^ 32) = k ∧ (s.tim.prev + 16 * 2 ^ 32) / (10 ^ 9 * 2 ^ 32) < k ∧ s.tim.ppsLast.getD 0 < k := by decide

theorem met_PpsAndBilvanTime_3 :
    let s : State := { live with tim := { ppsEnd := some 0 } }
    let d : Nat := 0
    s.tim.ppsEnd = some d ∧ d ≤ s.refNs := by decide

theorem met_PpsAndBilvanTime_4 :
    let s : State := { live.setBit (Reg.BIL_PORT_CTRL 1) 30 true with refNs := 1000 }
    let p : PortId := 1
    let flight : Nat := 100
    let phase : Fin 8 := 3
    let t2 : BitVec 72 := 5#72
    let t3 : BitVec 72 := 6#72
    let sent : Int := (s.refNs : Int) + phase.val - flight
    let t1 : Int := s.stampAt ((phase.val : Int) - flight)
    let t4 : Int := s.stampAt phase.val
    s.bilUp p = true ∧ s.tim.bil.length = 3 ∧ s.exchangeDue p sent = true ∧ s.steppedSince sent = false ∧ ((s.tim.bil.getD p {}).delays).length < 15 := by decide

theorem met_PpsAndBilvanTime_5 :
    let s : State := { live.setBit (Reg.BIL_PORT_CTRL 1) 30 true with refNs := 1000, tim := { bil := [{}, { delays := List.replicate 15 3 }, {}] } }
    let p : PortId := 1
    let flight : Nat := 100
    let phase : Fin 8 := 3
    let t2 : BitVec 72 := 5#72
    let t3 : BitVec 72 := 6#72
    let sent : Int := (s.refNs : Int) + phase.val - flight
    s.bilUp p = true ∧ s.tim.bil.length = 3 ∧ s.exchangeDue p sent = true ∧ s.steppedSince sent = false ∧ ((s.tim.bil.getD p {}).delays).length = 15 ∧ (s.tim.bil.getD p {}).lastDelay = none := by decide

theorem met_PpsAndBilvanTime_6 :
    let s : State := { live.setBit (Reg.BIL_PORT_CTRL 1) 30 true with refNs := 16000000 }
    let p : PortId := 1
    s.bilUp p = true ∧ s.tim.bil.length = 3 ∧ (s.tim.bil.getD p {}).lastAt + 16000000 ≤ s.refNs := by decide

theorem met_LineStoreIsStallZeros_1 :
    let s : State := live
    let t : Tag := tag0
    let op : AccessOp := .write
    let a : Nat := lineAddr 0 64
    let n : Nat := 8
    let g : Nat := 0
    let o : Nat := 64
    regionOf a = .line g o ∧ s.coreUp g = true := by decide

theorem met_LineStoreIsStallZeros_1b :
    let s : State := live
    let t : Tag := ⟨3, 4#12, 0⟩
    let op : AccessOp := .atomicAdd
    let a : Nat := lineAddr 0 64
    let n : Nat := 4
    let g : Nat := 0
    let o : Nat := 64
    regionOf a = .line g o ∧ s.coreUp g = true := by decide

theorem met_LineStoreIsStallZeros_2 :
    let s : State := live
    let t : Tag := ⟨3, 4#12, 0⟩
    let a : Nat := lineAddr 0 64
    let n : Nat := 2
    let g : Nat := 0
    let o : Nat := 64
    let b : List Byte := [1, 2]
    regionOf a = .line g o ∧ s.coreUp g = true ∧ t.stall.val ≠ 0 ∧ (0 < n ∧ n ≤ 64 - a % 64) ∧ b.length = n := by decide

theorem met_LineStoreIsStallZeros_3 :
    let s : State := live.setBit (Reg.WF_STATUS 0) 31 true
    let a : Nat := lineAddr 0 64
    let g : Nat := 0
    let o : Nat := 64
    let b : List Byte := [1, 2]
    regionOf a = .line g o ∧ s.cores.length = 32 ∧ s.bit (Reg.WF_STATUS g) 31 = true := by decide

theorem met_LineStoreIsStallZeros_4 :
    let s : State := live
    let a : Nat := lineAddr 0 64
    let g : Nat := 0
    let o : Nat := 64
    let b : List Byte := [1, 2]
    regionOf a = .line g o ∧ s.bit (Reg.WF_STATUS g) 31 = false := by decide

theorem met_LineStoreIsStallZeros_5 :
    let s : State := { live.setBit (Reg.WF_STATUS 0) 31 true with cores := { lineHeld := [(lineAddr 0 64, [1, 2])] } :: List.replicate 31 {} }
    let g : Nat := 0
    let a : Nat := lineAddr 0 64
    let b : List Byte := [1, 2]
    let d : List Byte := [2]
    (s.core g).lineHeld = [(a, b)] ∧ opcodeOf d = 2 := by decide

theorem met_BarriersJudgeByStall_1 :
    let s : State := { live.regsSet [(Reg.MEM_DDR_CFG, 0x40000008)] with ddr := 2, ddrCap := 8 }
    let t : Tag := tag0
    let op : AccessOp := .read
    let a : Nat := 4096
    let n : Nat := 64
    a < 0x1000000000 ∧ a < s.ddrBytes ∧ s.fwRegion (a / 2 ^ 20) = none := by decide

theorem met_BarriersJudgeByStall_2 :
    let s : State := { live.regsSet [(Reg.MEM_DDR_CFG, 0x40000008), (Reg.SAF_FWR_CTRL 5, 1), (Reg.SAF_FWR_LIMIT 5, 7), (Reg.SAF_FWR_MASK 5, 0x00000008)] with ddr := 2, ddrCap := 8 }
    let t : Tag := ⟨3, 4#12, 0⟩
    let a : Nat := 4096
    let n : Nat := 64
    let r : Nat := 5
    a < 0x1000000000 ∧ a < s.ddrBytes ∧ s.fwRegion (a / 2 ^ 20) = some r ∧ s.bit (Reg.SAF_FWR_CTRL r) 1 = false := by decide

theorem met_BarriersJudgeByStall_3 :
    let s : State := live
    let t : Tag := tag0
    let op : AccessOp := .write
    let a : Nat := boltAddr 1 64
    let n : Nat := 8
    let g : Nat := 1
    let o : Nat := 64
    regionOf a = .bolt g o ∧ s.coreUp g = true := by decide

theorem met_BarriersJudgeByStall_4 :
    let s : State := live
    let t : Tag := tag0
    let a : Nat := ctxAddr 3
    let n : Nat := 64
    let k : Nat := 3
    regionOf a = .ctx k ∧ 0 < n := by decide

theorem met_BarriersJudgeByStall_5 :
    let s : State := live
    let t : Tag := tag0
    let op : AccessOp := .read
    let a : Nat := 0x8000000040
    let n : Nat := 64
    let o : Nat := 0x40
    (regionOf a = .remote s.board.devnum o ∨ (regionOf a = .xspi o ∧ op ≠ .read)) := by decide

theorem met_BarriersJudgeByStall_5b :
    let s : State := live
    let t : Tag := tag0
    let op : AccessOp := .write
    let a : Nat := 0x5000000040
    let n : Nat := 64
    let o : Nat := 0x40
    (regionOf a = .remote s.board.devnum o ∨ (regionOf a = .xspi o ∧ op ≠ .read)) := by decide

theorem met_CarveOutsAndInjections_1 :
    let s : State := live
    let t : Tag := tag0
    let core : CoreId := 4
    let n : Fin 8 := 2
    let v : Word := 0x83005001#32
    let r : Nat := Reg.BT_CARVE core n
    s.grants t 0 r v ∧ s.bit r 31 = false ∧ v.getLsbD 31 = true ∧ s.carveOk core false n v.toNat = true := by decide

theorem met_CarveOutsAndInjections_2 :
    let s : State := live
    let t : Tag := tag0
    let core : CoreId := 4
    let n : Fin 4 := 2
    let v : Word := 0x830A0090#32
    let r : Nat := Reg.SK_CARVE core n
    s.grants t 0 r v ∧ s.bit r 31 = false ∧ v.getLsbD 31 = true ∧ s.carveOk core true n v.toNat = true := by decide

theorem met_CarveOutsAndInjections_3 :
    let s : State := live
    let t : Tag := tag0
    let core : CoreId := 4
    let n : Fin 8 := 2
    let v : Word := 0x83001005#32
    let r : Nat := Reg.BT_CARVE core n
    s.grants t 0 r v ∧ s.bit r 31 = false ∧ s.carveOk core false n v.toNat = false := by decide

theorem met_CarveOutsAndInjections_4 :
    let s : State := live.regsSet [(Reg.BT_CARVE 4 2, 0x83005001)]
    let t : Tag := tag0
    let core : CoreId := 4
    let n : Fin 8 := 2
    let v : Word := 0x00000005#32
    let r : Nat := Reg.BT_CARVE core n
    s.grants t 0 r v ∧ s.bit r 31 = true := by decide

theorem met_CarveOutsAndInjections_5 :
    let s : State := live
    let t : Tag := tag0
    let core : CoreId := 31
    let v : Word := 0x42000000#32
    s.grants t 0 (Reg.BT_ECC_INJECT core) (v ||| 0x80000000#32) := by decide

theorem met_CarveOutsAndInjections_6 :
    let s : State := live
    let t : Tag := tag0
    let v : Word := 0x42070000#32
    s.grants t 0 Reg.MEM_ECC_INJECT (v ||| 0x80000000#32) := by decide

theorem met_CarveOutsAndInjections_7 :
    let s : State := live
    let t : Tag := tag0
    let g : CoreId := 31
    let v : Word := 0xFFFFFFFF#32
    s.grants t 0 (Reg.TW_LEDGER_INJECT g.val) (v ||| 0x80000000#32) := by decide

theorem met_CarveOutsAndInjections_8 :
    let s : State := live
    let t : Tag := tag0
    let g : CoreId := 31
    let m : Fin 2 := 1
    let v : Word := 0x400F0011#32
    s.grants t 0 (Reg.TD_INJECT g.val m.val) (v ||| 0x80000000#32) := by decide

theorem met_CarveOutsAndInjections_9 :
    let s : State := live.regsSet [(Reg.WF_LINE_HWM 31, 0x1234)]
    let t : Tag := tag0
    let g : CoreId := 31
    let v : Word := 0#32
    s.grants t 0 (Reg.WF_LINE_HWM g.val) (v ||| 0x80000000#32) := by decide

theorem met_FirewallRegionsAndTraining_1 :
    let s : State := { live.regsSet [(Reg.MEM_DDR_CFG, 0x40000008), (Reg.SAF_FWR_BASE 5, 8), (Reg.SAF_FWR_LIMIT 5, 15)] with ddr := 2, ddrCap := 8 }
    let t : Tag := tag0
    let n : Fin 64 := 5
    let v : Word := 3#32
    let c : Nat := Reg.SAF_FWR_CTRL n
    let b : Nat := s.fld (Reg.SAF_FWR_BASE n) 15 0
    let l : Nat := s.fld (Reg.SAF_FWR_LIMIT n) 15 0
    s.grants t 0 c v ∧ s.bit c 31 = false ∧ s.bit c 0 = false ∧ v.getLsbD 0 = true ∧ b ≤ l ∧ (l + 1) * 2 ^ 20 ≤ s.ddrBytes ∧ (v.getLsbD 1 = true → (l + 1 - b) % 8 = 0) ∧ (∀ k : Fin 64, k ≠ n → s.bit (Reg.SAF_FWR_CTRL k) 0 = true → s.fld (Reg.SAF_FWR_LIMIT k) 15 0 < b ∨ l < s.fld (Reg.SAF_FWR_BASE k) 15 0) := by decide

theorem met_FirewallRegionsAndTraining_2 :
    let s : State := live.regsSet [(Reg.SAF_FWR_BASE 5, 8)]
    let t : Tag := tag0
    let n : Fin 64 := 5
    let v : Word := 1#32
    let c : Nat := Reg.SAF_FWR_CTRL n
    s.grants t 0 c v ∧ s.bit c 31 = false ∧ s.bit c 0 = false ∧ v.getLsbD 0 = true ∧ s.fld (Reg.SAF_FWR_LIMIT n) 15 0 < s.fld (Reg.SAF_FWR_BASE n) 15 0 := by decide

theorem met_FirewallRegionsAndTraining_3 :
    let s : State := (live.regsSet [(Reg.SAF_FWR_CTRL 5, 0x103), (Reg.SAF_FWR_LIMIT 5, 7)]).poke 4096 [1, 2, 3]
    let n : Fin 64 := 5
    let a : Nat := 4097
    let b : Nat := s.fld (Reg.SAF_FWR_BASE n) 15 0
    let l : Nat := s.fld (Reg.SAF_FWR_LIMIT n) 15 0
    s.bit (Reg.SAF_FWR_CTRL n) 8 = true ∧ b ≤ l := by decide

theorem met_FirewallRegionsAndTraining_4 :
    let s : State := live
    let t : Tag := tag0
    let v : Word := 0x00000008#32
    s.grants t 0 Reg.MEM_DDR_CFG (v ||| 0x20000000#32) ∧ (s.bit Reg.MEM_DDR_CFG 31 = false ∨ s.ddr = 0) := by decide

theorem met_FirewallRegionsAndTraining_5 :
    let s : State := { live with ddr := 1 }
    s.ddr = 1 := by decide

theorem met_FirewallRegionsAndTraining_6 :
    let s : State := { live with ddr := 1 }
    let c : Fin 16 := 7
    s.ddr = 1 := by decide

theorem met_MemoryMaintenance_1 :
    let s : State := { live with writeback := [4096], ecc := [(4096, .single), (8192, .double)] }
    let a : BitVec 40 := 4098#40
    let w : Nat := a.toNat / 8 * 8
    w ∈ s.writeback := by decide

theorem met_MemoryMaintenance_2 :
    let s : State := { live with cores := { scrubAt := scrubBytes - 64 } :: List.replicate 31 {} }
    let g : CoreId := 0
    let o : Nat := (s.core g).scrubAt
    s.phase = .live ∧ s.coreUp g = true ∧ s.cores.length = 32 ∧ s.marks (scrubAddr g o) 64 = [] ∧ scrubBytes ≤ o + 64 := by decide

theorem met_MemoryMaintenance_3 :
    let s : State := { live with ecc := [(skeinAddr 0 8, .single)] }
    let g : CoreId := 0
    let w : Nat := skeinAddr 0 8
    let u : Nat × Nat × Nat := (6, Kind.SKEIN_CE, Kind.SKEIN_UE)
    s.phase = .live ∧ s.coreUp g = true ∧ s.marks (scrubAddr g (s.core g).scrubAt) 64 = [(w, .single)] ∧ s.eccUnit w = some u := by decide

theorem met_MemoryMaintenance_4 :
    let s : State := { live with refNs := 4000000000 }
    let g : CoreId := 9
    s.phase = .live ∧ s.coreUp g = true ∧ s.cores.length = 32 ∧ (s.core g).scrubLateSent = false ∧ (s.core g).scrubSince + 4000000000 ≤ s.refNs := by decide

theorem met_MemoryMaintenance_5 :
    let s : State := live.setBit Reg.CMD_STATUS 31 true
    let a : BitVec 40 := 0x4000000008#40
    (0x4000000000 ≤ a.toNat ∧ a.toNat < 0x4004000000) ∧ s.cmd.journalLost = false := by decide

theorem met_MemoryMaintenance_6 :
    let s : State := live
    let g : CoreId := 31
    let o : Nat := (s.core g).scrubAt
    s.phase = .live ∧ s.coreUp g = true ∧ s.cores.length = 32 ∧ s.marks (scrubAddr g o) 64 = [] ∧ o + 64 < scrubBytes := by decide

theorem met_FirstRecordHeld_1 :
    let s : State := { live with tal := { windows := [⟨⟨0x102, 0x60, 0, 1, 3, 77⟩, 5, 0, []⟩] } }
    let w : Win := ⟨⟨0x102, 0x60, 0, 1, 3, 77⟩, 5, 0, []⟩
    let l : List Win := []
    s.tal.windows = w :: l ∧ w.due ≤ s.refNs ∧ w.msg.cls < 2 ∧ s.bit Reg.TAL_FIRST_CTRL 31 = false := by decide

theorem met_FirstRecordHeld_2 :
    let s : State := { live.setBit Reg.TAL_FIRST_CTRL 31 true with tal := { windows := [⟨⟨0x102, 0x60, 0, 1, 3, 77⟩, 5, 0, []⟩] } }
    let w : Win := ⟨⟨0x102, 0x60, 0, 1, 3, 77⟩, 5, 0, []⟩
    let l : List Win := []
    s.tal.windows = w :: l ∧ w.due ≤ s.refNs ∧ (2 ≤ w.msg.cls ∨ s.bit Reg.TAL_FIRST_CTRL 31 = true) := by decide

theorem met_FirstRecordHeld_3 :
    let s : State := live.setBit Reg.TAL_FIRST_CTRL 31 true
    let t : Tag := tag0
    let v : Word := 0#32
    s.grants t 0 Reg.TAL_FIRST_CTRL (v ||| 0x80000000#32) := by decide

theorem met_RecordsEnterTheHistory_1 :
    let s : State := { live with tal := { windows := [⟨⟨0x102, 0x60, 0, 1, 3, 77⟩, 5, 0, []⟩] } }
    let w : Win := ⟨⟨0x102, 0x60, 0, 1, 3, 77⟩, 5, 0, []⟩
    let l : List Win := []
    s.tal.windows = w :: l ∧ w.due ≤ s.refNs := by decide

theorem met_RecordsEnterTheHistory_2 :
    let s : State := { live with tal := { windows := [⟨⟨0x102, 0x60, 0, 1, 3, 77⟩, 5, 10000, []⟩] } }
    let w : Win := ⟨⟨0x102, 0x60, 0, 1, 3, 77⟩, 5, 10000, []⟩
    let l : List Win := []
    s.tal.windows = w :: l ∧ s.refNs < w.due := by decide

theorem met_RecordsEnterTheHistory_3 :
    let s : State := { live with tal := { windows := [⟨⟨0x102, 0x60, 0, 1, 3, 77⟩, 5, 0, []⟩] } }
    let w : Win := ⟨⟨0x102, 0x60, 0, 1, 3, 77⟩, 5, 0, []⟩
    let l : List Win := []
    s.tal.windows = w :: l ∧ w.due ≤ s.refNs ∧ w.msg.kind < 192 ∧ s.bit (Reg.TAL_REACT w.msg.kind) 8 = true ∧ s.bit Reg.TAL_FRAME_CTRL 31 = true := by decide

theorem met_MessagesArrive_1 :
    let s : State := live.report 0x102 0x70 0 5
    let src : BitVec 12 := 0x102#12
    let m : Msg := ⟨0x102, 0x70, 0, kindClass 0x70, 1, 5⟩
    (s.tal.waiting.find? fun m => m.source == src.toNat) = some m ∧ m.kind < 192 ∧ (m.kind ≠ Kind.HRAM_UE ∨ inJournal m.addr = false) ∧ m.cls < 2 ∧ s.fld (Reg.TAL_REACT m.kind) 1 0 = 0 ∧ s.tal.windows = [] := by decide

theorem met_MessagesArrive_2 :
    let s : State := live.report 6 Kind.SKEIN_CE 0 5
    let src : BitVec 12 := 6#12
    let m : Msg := ⟨6, Kind.SKEIN_CE, 0, 2, 1, 5⟩
    (s.tal.waiting.find? fun m => m.source == src.toNat) = some m ∧ (m.kind ≠ Kind.HRAM_UE ∨ inJournal m.addr = false) ∧ m.cls = 2 ∧ s.fld (Reg.TAL_REACT m.kind) 1 0 = 0 ∧ s.tal.windows = [] := by decide

theorem met_MessagesArrive_3 :
    let s : State := { live.report 6 Kind.SKEIN_CE 0 5 with tal := { (live.report 6 Kind.SKEIN_CE 0 5).tal with windows := [⟨⟨6, Kind.SKEIN_CE, 0, 2, 4, 5⟩, 1, 10000, [Kind.SKEIN_CE]⟩] } }
    let src : BitVec 12 := 6#12
    let m : Msg := ⟨6, Kind.SKEIN_CE, 0, 2, 1, 5⟩
    let w : Win := ⟨⟨6, Kind.SKEIN_CE, 0, 2, 4, 5⟩, 1, 10000, [Kind.SKEIN_CE]⟩
    (s.tal.waiting.find? fun m => m.source == src.toNat) = some m ∧ (m.kind ≠ Kind.HRAM_UE ∨ inJournal m.addr = false) ∧ m.cls = 2 ∧ s.fld (Reg.TAL_REACT m.kind) 1 0 = 0 ∧ s.tal.windows = [w] ∧ w.msg.addr = m.addr ∧ w.msg.kind = m.kind ∧ w.msg.source = m.source := by decide

theorem met_MessagesArrive_4 :
    let s : State := { live.report 0x110 0x30 9 0x4000 with tal := { (live.report 0x110 0x30 9 0x4000).tal with windows := [⟨⟨0x180, 0x34, 9, 1, 1, 0x4000⟩, 1, 10000, [0x34]⟩] } }
    let src : BitVec 12 := 0x110#12
    let m : Msg := ⟨0x110, 0x30, 9, kindClass 0x30, 1, 0x4000⟩
    let w : Win := ⟨⟨0x180, 0x34, 9, 1, 1, 0x4000⟩, 1, 10000, [0x34]⟩
    (s.tal.waiting.find? fun m => m.source == src.toNat) = some m ∧ s.fld (Reg.TAL_REACT m.kind) 1 0 = 0 ∧ s.tal.windows = [w] ∧ w.msg.addr = m.addr ∧ w.msg.source = 0x180 ∧ m.source ≠ 0x180 := by decide

theorem met_MessagesArrive_5 :
    let s : State := { live.report 0x180 0x34 9 0x4000 with tal := { (live.report 0x180 0x34 9 0x4000).tal with windows := [⟨⟨0x110, 0x30, 9, 1, 1, 0x4000⟩, 1, 10000, [0x30]⟩] } }
    let src : BitVec 12 := 0x180#12
    let m : Msg := ⟨0x180, 0x34, 9, kindClass 0x34, 1, 0x4000⟩
    let w : Win := ⟨⟨0x110, 0x30, 9, 1, 1, 0x4000⟩, 1, 10000, [0x30]⟩
    (s.tal.waiting.find? fun m => m.source == src.toNat) = some m ∧ s.fld (Reg.TAL_REACT m.kind) 1 0 = 0 ∧ s.tal.windows = [w] ∧ w.msg.addr = m.addr ∧ (m.source = 0x180 ∨ (w.msg.source ≠ 0x180 ∧ w.msg.kind = m.kind)) := by decide

theorem met_MessagesArrive_6 :
    let s : State := { live with tal := { live.tal with windows := [⟨⟨0x180, 0x34, 9, 1, 1, 0x4000⟩, 1, 10000, [0x34]⟩] } }
    let m : Msg := ⟨0x110, 0x30, 9, 1, 1, 0x4000⟩
    let w : Win := ⟨⟨0x180, 0x34, 9, 1, 1, 0x4000⟩, 1, 10000, [0x34]⟩
    s.tal.windows = [w] ∧ w.matches m = true := by decide

theorem met_MessagesArrive_7 :
    let s : State := (live.setBit Reg.CMD_STATUS 31 true).report 0x172 Kind.HRAM_UE 0 0x4000000000
    let src : BitVec 12 := 0x172#12
    let m : Msg := ⟨0x172, Kind.HRAM_UE, 0, kindClass Kind.HRAM_UE, 1, 0x4000000000⟩
    (s.tal.waiting.find? fun m => m.source == src.toNat) = some m ∧ (m.kind = Kind.HRAM_UE ∧ inJournal m.addr = true ∧ m.cls < 2) ∧ s.cmd.journalLost = false ∧ s.fld (Reg.TAL_REACT m.kind) 1 0 = 0 ∧ s.tal.windows = [] := by decide

theorem met_FaultPinAndAlive_1 :
    let s : State := { live with tal := { lowUntil := some 0 } }
    let d : Nat := 0
    s.tal.lowUntil = some d ∧ d ≤ s.refNs := by decide

theorem met_FaultPinAndAlive_2 :
    let s : State := { live.setBit Reg.TAL_STATUS 31 true with refNs := 1000000 }
    s.aliveOk = true ∧ s.phase ≠ .held ∧ s.tal.aliveAt + 1000000 ≤ s.refNs := by decide

theorem met_FaultPinAndAlive_3 :
    let s : State := live.setBit Reg.TAL_STATUS 31 true
    s.phase ≠ .held := by decide

theorem met_FaultPinAndAlive_4 :
    let s : State := live
    s.phase ≠ .held := by decide

theorem met_FaultPinAndAlive_5 :
    let s : State := live
    s.phase ≠ .held ∧ s.talReady = false := by decide

theorem met_FaultPinAndAlive_6 :
    let s : State := { live with cmd := { journalLost := true } }
    s.phase ≠ .held ∧ s.talReady = false ∧ s.cmd.journalLost = true := by decide

theorem met_FaultPinAndAlive_7 :
    let s : State := live
    s.phase ≠ .held ∧ s.talReady = false ∧ s.cmd.journalLost = false := by decide

theorem met_FaultPinAndAlive_8 :
    let s : State := { live with tal := { lowUntil := some 0 } }
    let d : Nat := 0
    s.tal.lowUntil = some d ∧ d ≤ s.refNs ∧ (∀ p : Fin 3, s.bilUp p = false) := by decide

theorem met_FaultFrames_1 :
    let s : State := { live.regsSet [(Reg.TAL_STATUS, 0x80000000), (Reg.ETH_PORT_CTRL 2, 0xC00005EE)] with tal := { batch := [(5, 0)] }, refNs := 50000 }
    let d : HostAddr := ⟨false, 0xFFFFFFFF⟩
    s.framesOn = true ∧ s.portUp 2 = true ∧ s.faultDest = some d ∧ s.eth.length = 3 ∧ s.tal.batch ≠ [] ∧ (8 ≤ s.tal.batch.length ∨ (s.tal.batch.headD (0, 0)).2 + 50000 ≤ s.refNs) := by decide

theorem met_FaultFrames_2 :
    let s : State := { live.regsSet [(Reg.TAL_STATUS, 0x80000000), (Reg.ETH_PORT_CTRL 2, 0xC00005EE)] with refNs := 1000000000 }
    let d : HostAddr := ⟨false, 0xFFFFFFFF⟩
    s.framesOn = true ∧ s.portUp 2 = true ∧ s.faultDest = some d ∧ s.eth.length = 3 ∧ s.fld Reg.TAL_FRAME_CTRL 15 0 ≠ 0 ∧ s.tal.lastFrame + s.fld Reg.TAL_FRAME_CTRL 15 0 * 1000000 ≤ s.refNs := by decide

theorem met_FaultFrames_3 :
    let s : State := { live with tal := { frames := [⟨1, [7], 2, 0, true⟩] } }
    let f : FaultFrame := ⟨1, [7], 2, 0, true⟩
    (s.tal.frames.find? fun f => f.due ≤ s.refNs) = some f ∧ 2 ≤ f.left := by decide

theorem met_FaultFrames_4 :
    let s : State := { live with tal := { batch := [(5, 0)] } }
    let t : Tag := tag0
    let v : Word := 1000#32
    s.grants t 0 Reg.TAL_FRAME_CTRL v ∧ s.bit Reg.TAL_CTRL 31 = false ∧ v.getLsbD 31 = false := by decide

theorem met_FaultFrames_5 :
    let s : State := live.regsSet [(Reg.TAL_PENDING 3, 0x0000003F)]
    let t : Tag := tag0
    let n : Fin 6 := 3
    let v : Word := 0x0000002A#32
    s.grants t 0 (Reg.TAL_PENDING n) v := by decide

theorem met_FaultFrames_6 :
    let s : State := (live.regsSet [(Reg.TAL_FRAME_CTRL, 0)])
    let t : Tag := tag0
    let v : Word := 0x80000000#32
    s.grants t 0 Reg.TAL_FRAME_CTRL v ∧ s.bit Reg.TAL_CTRL 31 = false ∧ (v.getLsbD 31 = true ∧ s.bit Reg.TAL_FRAME_CTRL 31 = false) := by decide

theorem met_PaceMeters_1 :
    let s : State := live
    let c : ClusterId := 2
    let n : BitVec 12 := 1000#12
    s.phase = .live ∧ s.clusterUp c = true ∧ 950 ≤ n.toNat := by decide

theorem met_PaceMeters_2 :
    let s : State := { live with pwr := { paceLow := [0, 0, 15, 0] } }
    let c : ClusterId := 2
    let n : BitVec 12 := 949#12
    s.phase = .live ∧ s.clusterUp c = true ∧ n.toNat < 950 ∧ 15 ≤ s.pwr.paceLow.getD c 0 ∧ s.pwr.paceLowAt.getD c none = none := by decide

theorem met_PaceMeters_3 :
    let s : State := live.regsSet [(Reg.PWR_PACE_MIN_C 1, 900)]
    let t : Tag := tag0
    let c : ClusterId := 1
    let v : Word := 0#32
    s.grants t 0 (Reg.PWR_PACE_MIN_C c) (v ||| 0x80000000#32) := by decide

theorem met_PaceMeters_4 :
    let s : State := live
    let t : Tag := ⟨0, 0x102#12, 0⟩
    let c : ClusterId := 3
    let v : Word := 95#32
    s.grants t 0 (Reg.PWR_PACE_CAP_C c) v ∧ 95 ≤ bits v.toNat 11 0 ∧ bits v.toNat 11 0 ≤ 1500 := by decide

theorem met_PaceMeters_4b :
    let s : State := { live with pwr := { escCap := [1500, 1500, 1500, 950] } }
    let t : Tag := ⟨0, 0x102#12, 0⟩
    let c : ClusterId := 3
    let v : Word := 1500#32
    s.grants t 0 (Reg.PWR_PACE_CAP_C c) v ∧ 95 ≤ bits v.toNat 11 0 ∧ bits v.toNat 11 0 ≤ 1500 := by decide

theorem met_PaceMeters_5 :
    let s : State := live
    let t : Tag := ⟨0, 0x102#12, 0⟩
    let c : ClusterId := 3
    let v : Word := 94#32
    s.grants t 0 (Reg.PWR_PACE_CAP_C c) v ∧ (bits v.toNat 11 0 < 95 ∨ 1500 < bits v.toNat 11 0) := by decide

theorem met_PaceMeters_5b :
    let s : State := live
    let t : Tag := ⟨0, 0x102#12, 0⟩
    let c : ClusterId := 3
    let v : Word := 1501#32
    s.grants t 0 (Reg.PWR_PACE_CAP_C c) v ∧ (bits v.toNat 11 0 < 95 ∨ 1500 < bits v.toNat 11 0) := by decide

theorem met_WattLimitBounds_1 :
    let trip : Bool := false
    let high : Bool := false
    let c : Nat := 1000
    let p : Nat := 600
    let watts : Nat := 60
    95 ≤ c ∧ c ≤ 1500 := by decide

theorem met_WattLimitBounds_2 :
    let s : State := (live.regsSet [(Reg.PWR_POWER, 0x03000300), (Reg.PWR_CAP, 40)]).updPwr fun p => { p with limit := 96, above := 9 }
    let mean : Nat := s.fld Reg.PWR_POWER 27 16
    let watts : Nat := s.fld Reg.PWR_CAP 6 0
    let c : Nat := nextLimit s.pwr.trip s.pwr.high s.pwr.limit mean watts
    let above : Nat := if c = 95 ∧ watts * 10 + 20 < mean then s.pwr.above + 1 else 0
    let met : Nat := if mean ≤ watts * 10 then s.pwr.met + 1 else 0
    let fire : Bool := above == 10 && s.pwr.unmetArmed
    s.phase = .live := by decide

theorem met_PowerAndThermalSamples_1 :
    let s : State := live
    let w : BitVec 12 := 600#12
    s.phase = .live := by decide

theorem met_PowerAndThermalSamples_2 :
    let s : State := live.regsSet [(Reg.PWR_POWER, 0x03000300)]
    let c : Nat := nextLimit s.pwr.trip s.pwr.high s.pwr.limit (s.fld Reg.PWR_POWER 27 16) (s.fld Reg.PWR_CAP 6 0)
    s.phase = .live := by decide

theorem met_PowerAndThermalSamples_3 :
    let s : State := live
    let l : List Int := List.replicate 7 60 ++ [140] ++ List.replicate 12 50
    s.phase = .live ∧ l.length = 20 ∧ s.pwr.trip = false ∧ (s.fld Reg.PWR_THERM 23 16 : Int) ≤ (hottestOf ((List.range 20).map fun i => (i, l.getD i 0))).2 := by decide

theorem met_PowerAndThermalSamples_4 :
    let s : State := live
    let l : List Int := List.replicate 20 60
    s.phase = .live ∧ l.length = 20 ∧ (hottestOf ((List.range 20).map fun i => (i, l.getD i 0))).2 < (s.fld Reg.PWR_THERM 23 16 : Int) ∧ (hottestOf ((List.range 20).map fun i => (i, l.getD i 0))).2 < (s.fld Reg.PWR_THERM 7 0 : Int) := by decide

theorem met_PowerAndThermalSamples_5 :
    let s : State := { live with pwr := { scorched := true } }
    s.phase = .live ∧ s.pwr.scorched = true := by decide

theorem met_PowerAndThermalSamples_6 :
    let s : State := live
    let mv : Nat := 660
    s.phase = .live ∧ 660 ≤ mv ∧ mv < 690 := by decide

theorem met_PowerAndThermalSamples_8 :
    let s : State := live
    let c : ClusterId := 3
    let mv : BitVec 12 := 700#12
    s.phase = .live := by decide

theorem met_PowerOnAndBoot_2 :
    let s : State := live.poke 0x5000000010 [7]
    let a : Nat := 0x5000000010
    s.sec.nor = none ∧ (0x5000000000 ≤ a ∧ a < 0x5010000000) := by decide

theorem met_PowerOnAndBoot_3 :
    let s : State := { live with phase := .held }
    let x : Straps := ⟨2⟩
    s.phase = .held := by decide

theorem met_PowerOnAndBoot_4 :
    let s : State := State.reset
    s.phase = .started := by decide

theorem met_PowerOnAndBoot_5 :
    let s : State := { live with phase := .locked, refNs := 960, pwr := { alignT1 := some 0, edgeAt := 960 } }
    s.phase = .locked ∧ s.pwr.edgeAt ≤ s.refNs := by decide

theorem met_PowerOnAndBoot_6 :
    let s : State := { live with phase := .aligned, refNs := 17 * 960, pwr := { alignT1 := some 0, edgeAt := 960 } }
    s.phase = .aligned ∧ s.pwr.edgeAt + 16 * 960 ≤ s.refNs := by decide

theorem met_PowerOnAndBoot_7 :
    let s : State := { live.regsSet [(Reg.PWR_ALIGN_STATUS, 0x30)] with phase := .aligned, refNs := 1920, pwr := { alignT1 := some 0, edgeAt := 960 } }
    s.phase = .aligned ∧ s.pwr.edgeAt + 960 ≤ s.refNs ∧ s.fld Reg.PWR_ALIGN_STATUS 5 4 = 3 := by decide

theorem met_PowerOnAndBoot_8 :
    let s : State := live
    let k : Nat := s.activeSet
    let one : Bool := (s.setFails k).all (· == 0)
    let two : Bool := (s.setFails (1 - k)).all (· == 0)
    s.phase = .live ∧ s.pwr.boot = .start := by decide

theorem met_PowerOnAndBoot_9 :
    let s : State := { live with pwr := { boot := .checked } }
    s.phase = .live ∧ s.pwr.boot = .checked ∧ s.pwr.warmPin = false := by decide

theorem met_PowerOnAndBoot_10 :
    let s : State := { live.regsSet [(Reg.PWR_ALIGN_STATUS, 0x20)] with phase := .aligned, refNs := 1920, pwr := { alignT1 := some 0, edgeAt := 960 } }
    s.phase = .aligned ∧ s.pwr.edgeAt + 960 ≤ s.refNs ∧ s.fld Reg.PWR_ALIGN_STATUS 5 4 < 3 := by decide

theorem met_ClustersAndStandby_1 :
    let s : State := live
    let t : Tag := tag0
    let c : ClusterId := 2
    let v : Word := 0#32
    s.grants t 0 (Reg.PWR_CLUSTER_C c) (v ||| 0x80000000#32) ∧ s.pwr.gated.length = 4 ∧ s.pwr.gated.getD c false = false ∧ s.escalating c = false := by decide

theorem met_ClustersAndStandby_2 :
    let s : State := { live with pwr := { gated := [false, false, true, false] } }
    let c : ClusterId := 2
    s.phase = .live ∧ s.pwr.gated.getD c false = true ∧ s.fld (Reg.PWR_CLUSTER_C c) 25 24 < 2 ∧ s.clusterBusy c = false ∧ s.escalating c = false := by decide

theorem met_ClustersAndStandby_3 :
    let s : State := { live.regsSet [(Reg.PWR_CLUSTER_C 2, 0x82000000)] with pwr := { gated := [false, false, true, false] } }
    let t : Tag := tag0
    let c : ClusterId := 2
    let v : Word := 0#32
    s.grants t 0 (Reg.PWR_CLUSTER_C c) (v &&& ~~~0x80000000#32) ∧ s.pwr.gated.length = 4 ∧ s.pwr.pace.length = 4 ∧ s.fld (Reg.PWR_CLUSTER_C c) 25 24 = 2 := by decide

theorem met_ClustersAndStandby_4 :
    let s : State := live
    let t : Tag := tag0
    let v : Word := 0#32
    s.grants t 0 Reg.PWR_STATE ((v ||| 0x10000000#32) &&& ~~~0x20000000#32) ∧ s.fld Reg.PWR_STATE 25 24 = 0 ∧ s.standbyErr = 0 := by decide

theorem met_ClustersAndStandby_5 :
    let s : State := live.regsSet [(Reg.PWR_STATE, 0x01000000)]
    s.phase = .live ∧ s.fld Reg.PWR_STATE 25 24 = 1 := by decide

theorem met_ClustersAndStandby_6 :
    let s : State := live.regsSet [(Reg.PWR_STATE, 0x02000000)]
    let t : Tag := tag0
    let v : Word := 0#32
    s.grants t 0 Reg.PWR_STATE ((v ||| 0x20000000#32) &&& ~~~0x10000000#32) ∧ s.fld Reg.PWR_STATE 25 24 = 2 := by decide

theorem met_ClustersAndStandby_7 :
    let s : State := (live.regsSet [(Reg.PWR_STATE, 0x03000000)]).poke (boltAddr 1 0) [9]
    s.phase = .live ∧ s.fld Reg.PWR_STATE 25 24 = 3 ∧ s.pwr.edgeAt ≤ s.refNs ∧ s.pwr.warmNext = none := by decide

theorem met_ClustersAndStandby_8 :
    let s : State := live.regsSet [(Reg.CMD_RING_CTRL 3, 0x80000000)]
    let t : Tag := tag0
    let v : Word := 0#32
    s.grants t 0 Reg.PWR_STATE ((v ||| 0x10000000#32) &&& ~~~0x20000000#32) ∧ s.fld Reg.PWR_STATE 25 24 = 0 ∧ s.standbyErr ≠ 0 := by decide

theorem met_ResetsTakeEffect_1 :
    let s : State := { live with pwr := { boot := .done } }
    let t : Tag := tag0
    let v : Word := 0#32
    s.grants t 0 Reg.PWR_RESET (v ||| 0x80000000#32) ∧ s.pwr.boot = .done ∧ s.pwr.warm = false ∧ s.fld Reg.PWR_STATE 25 24 = 0 := by decide

theorem met_ResetsTakeEffect_2 :
    let s : State := { live.regsSet [(Reg.PWR_STATE, 0x02000000)] with pwr := { boot := .done } }
    let t : Tag := tag0
    let v : Word := 0#32
    s.grants t 0 Reg.PWR_RESET (v ||| 0x80000000#32) ∧ s.pwr.boot = .done ∧ s.pwr.warm = false ∧ s.fld Reg.PWR_STATE 25 24 = 2 := by decide

theorem met_ResetsTakeEffect_3 :
    let s : State := { live with pwr := { boot := .done } }
    let ns : Nat := 1000
    s.phase = .live ∧ s.pwr.boot = .done ∧ s.pwr.warm = false ∧ s.fld Reg.PWR_STATE 25 24 = 0 ∧ 1000 ≤ ns := by decide

theorem met_ResetsTakeEffect_4 :
    let s : State := live
    let ns : Nat := 200
    ns ≤ 200 := by decide

theorem met_ResetsTakeEffect_5 :
    let s : State := { live.setBit Reg.CMD_STATUS 31 true with pwr := { boot := .done, warm := true } }
    s.pwr.warm = true ∧ s.journalOk = true := by decide

theorem met_ResetsTakeEffect_6 :
    let s : State := live
    let t : Tag := tag0
    let v : Word := 2#32
    let c : Fin 4 := 2
    s.grants t 0 Reg.PWR_RESET ((v ||| 0x40000000#32) &&& ~~~0x80000000#32) ∧ s.pwr.warm = false ∧ s.fld Reg.PWR_STATE 25 24 = 0 ∧ v.toNat % 4 = c.val ∧ s.fw.length = 7 ∧ (s.proc (3 + c)).restart = none ∧ s.bit (Reg.FW_PROC (3 + c)) 28 = false := by decide

theorem met_ResetsTakeEffect_7 :
    let s : State := { live with cmd := { jobs := [{ id := 0, src := .ring 0 0, stall := 0, phase := .placed, core := 5, cmds := [{ desc := [], began := true }] }] } }
    let t : Tag := tag0
    let v : Word := 5#32
    let g : Fin 32 := 5
    let j : Job := { id := 0, src := .ring 0 0, stall := 0, phase := .placed, core := 5, cmds := [{ desc := [], began := true }] }
    s.grants t 0 Reg.PWR_RESET ((v ||| 0x20000000#32) &&& ~~~0xC0000000#32) ∧ s.pwr.warm = false ∧ s.fld Reg.PWR_STATE 25 24 = 0 ∧ v.toNat % 32 = g.val ∧ (s.core g).disabled = false ∧ s.cmd.jobs = [j] ∧ (j.phase = .placed ∧ j.core = g.val ∧ j.cmds.any (·.began) = true ∧ j.ended = false) := by decide

theorem met_ImageSetsAndFuses_1 :
    let s : State := live.regsSet [(Reg.FW_STATUS, 0x7F)]
    let t : Tag := tag0
    let v : Word := 1#32
    s.grants t 0 Reg.FW_ACTIVATE (v ||| 0x80000000#32) ∧ s.sec.nor = none ∧ s.sec.activate = none ∧ s.securityUp = true := by decide

theorem met_ImageSetsAndFuses_2 :
    let s : State := { live.regsSet [(Reg.FW_STATUS, 0x7F)] with sec := { activate := some 1 } }
    let set : Nat := 1
    let bad : Option Nat := (s.setFails set).find? (· ≠ 0)
    s.sec.activate = some set ∧ s.securityUp = true := by decide

theorem met_ImageSetsAndFuses_3 :
    let s : State := live.regsSet [(Reg.FW_IMAGE_SVN 4, 3)]
    let t : Tag := tag0
    let v : Word := 4#32
    let n : Fin 7 := 4
    s.grants t 0 Reg.SEC_ROLLBACK_COMMIT (v ||| 0x80000000#32) ∧ v.toNat % 8 = n.val ∧ s.board.rollback.length = 7 ∧ (s.proc n).debug = false ∧ s.board.rollback.getD n 0 < s.fld (Reg.FW_IMAGE_SVN n) 6 0 := by decide

theorem met_ImageSetsAndFuses_4 :
    let s : State := live
    let t : Tag := tag0
    let v : Word := 0#32
    s.grants t 0 Reg.SEC_LC_CTRL (v ||| 0x40000000#32) ∧ v.getLsbD 31 = false ∧ (s.board.lifecycle = 0 ∨ s.board.lifecycle = 3) := by decide

theorem met_ImageSetsAndFuses_5 :
    let s : State := live.regsSet [(Reg.SEC_LC_TOKEN + 4, 0x50)]
    let t : Tag := tag0
    let v : Word := 0#32
    let a : Nat := s.rd64 Reg.SEC_LC_TOKEN % 2 ^ 40
    let k : List Byte := s.peek a 3828
    let e : Nat := s.tokenFails k
    s.grants t 0 Reg.SEC_LC_CTRL (v ||| 0x80000000#32) ∧ v.getLsbD 30 = false ∧ (0x5000000000 ≤ a ∧ a + 3828 ≤ 0x5000000000 + s.norBytes ∧ a + 3828 ≤ 0x5010000000) := by decide

theorem met_NorErasesAndPrograms_1 :
    let s : State := live.regsSet [(Reg.FW_STATUS, 0x7F), (Reg.SEC_NOR_DST, 0x1100000), (Reg.SEC_NOR_LEN, 2)]
    let t : Tag := tag0
    let v : Word := 0#32
    let off : Nat := (s.rd Reg.SEC_NOR_DST).toNat
    let n : Nat := (s.rd Reg.SEC_NOR_LEN).toNat
    s.grants t 0 Reg.SEC_NOR_CTRL ((v ||| 0x81000000#32) &&& ~~~0x02000000#32) ∧ s.sec.nor = none ∧ s.sec.activate = none ∧ s.securityUp = true ∧ n ≠ 0 ∧ off % 0x10000 = 0 ∧ s.norTarget off (n * 0x10000) = true := by decide

theorem met_NorErasesAndPrograms_2 :
    let s : State := live.regsSet [(Reg.FW_STATUS, 0x7F), (Reg.SEC_NOR_DST, 0x1100000), (Reg.SEC_NOR_LEN, 100), (Reg.SEC_NOR_SRC + 4, 0x50)]
    let t : Tag := tag0
    let v : Word := 0#32
    let off : Nat := (s.rd Reg.SEC_NOR_DST).toNat
    let n : Nat := (s.rd Reg.SEC_NOR_LEN).toNat
    let a : Nat := s.rd64 Reg.SEC_NOR_SRC % 2 ^ 40
    s.grants t 0 Reg.SEC_NOR_CTRL ((v ||| 0x82000000#32) &&& ~~~0x01000000#32) ∧ s.sec.nor = none ∧ s.sec.activate = none ∧ s.securityUp = true ∧ n ≠ 0 ∧ a % 64 = 0 ∧ (0x5000000000 ≤ a ∧ a + n ≤ 0x5000000000 + s.norBytes ∧ a + n ≤ 0x5010000000) ∧ (0x1100000 ≤ off ∧ off + n ≤ s.norBytes) := by decide

theorem met_NorErasesAndPrograms_3 :
    let s : State := live.regsSet [(Reg.FW_STATUS, 0x7F), (Reg.SEC_NOR_LEN, 2)]
    let t : Tag := tag0
    let v : Word := 0#32
    let off : Nat := (s.rd Reg.SEC_NOR_DST).toNat
    s.grants t 0 Reg.SEC_NOR_CTRL ((v ||| 0x81000000#32) &&& ~~~0x02000000#32) ∧ s.sec.nor = none ∧ s.sec.activate = none ∧ s.securityUp = true ∧ off < 0x10000 := by decide

theorem met_NorErasesAndPrograms_4 :
    let s : State := { (live.regsSet [(Reg.FW_STATUS, 0x7F)]).poke 0x5001100000 [1, 2] with sec := { nor := some (.erase 0x1100000 1) } }
    let off : Nat := 0x1100000
    let n : Nat := 1
    let a : Nat := 0x5001100001
    s.sec.nor = some (.erase off n) ∧ s.securityUp = true := by decide

theorem met_NorErasesAndPrograms_5 :
    let s : State := { live.regsSet [(Reg.FW_STATUS, 0x7F)] with sec := { nor := some (.program 0x1100000 [1, 2]) } }
    let off : Nat := 0x1100000
    let l : List Byte := [1, 2]
    s.sec.nor = some (.program off l) ∧ s.securityUp = true := by decide

theorem met_ProcessorsRestart_1 :
    let s : State := live.regsSet [(Reg.FW_STATUS, 0x7F)]
    let t : Tag := tag0
    let n : Fin 7 := 6
    let v : Word := 50#32
    s.grants t 0 (Reg.FW_PROC n) (v ||| 0x80000000#32) ∧ v.getLsbD 29 = false ∧ s.fw.length = 7 ∧ (s.proc n).restart = none ∧ s.bit (Reg.FW_PROC n) 28 = false ∧ s.fld Reg.PWR_STATE 25 24 = 0 := by decide

theorem met_ProcessorsRestart_2 :
    let s : State := live.regsSet [(Reg.FW_STATUS, 0x7F)]
    let n : Fin 7 := 0
    s.phase = .live ∧ s.procUp n = true ∧ s.pwr.warm = false ∧ s.fw.length = 7 ∧ (s.proc n).watchAt = none ∧ (s.proc n).restart = none ∧ s.bit (Reg.FW_PROC n) 28 = false ∧ s.fld Reg.PWR_STATE 25 24 = 0 := by decide

theorem met_ProcessorsRestart_3 :
    let s : State := { live.regsSet [(Reg.FW_STATUS, 0x7F)] with fw := { watchAt := some 0 } :: List.replicate 6 {} }
    let n : Fin 7 := 0
    let d : Nat := 0
    s.phase = .live ∧ s.procUp n = true ∧ s.pwr.warm = false ∧ s.fw.length = 7 ∧ (s.proc n).watchAt = some d ∧ s.refNs < d + 1000000000 := by decide

theorem met_ProcessorsRestart_4 :
    let s : State := { live with refNs := 8000000, fw := { restart := some (1, 0) } :: List.replicate 6 {} }
    let n : Fin 7 := 0
    let c : Nat := 1
    let d : Nat := 0
    s.phase = .live ∧ s.pwr.warm = false ∧ s.fw.length = 7 ∧ (s.proc n).restart = some (c, d) ∧ d + (procBound n + 3) * 1000000 ≤ s.refNs := by decide

theorem met_ProcessorsRestart_5 :
    let s : State := { live with fw := { restart := some (1, 0) } :: List.replicate 6 {} }
    let n : Fin 7 := 0
    let c : Nat := 1
    let d : Nat := 0
    s.phase = .live ∧ s.pwr.warm = false ∧ s.fw.length = 7 ∧ (s.proc n).restart = some (c, d) ∧ (s.proc n).test = none ∧ s.fld Reg.PWR_STATE 25 24 = 0 ∧ s.cmd.scanDue = false := by decide

theorem met_ProcessorsRestart_6 :
    let s : State := live.regsSet [(Reg.FW_STATUS, 0x7F), (Reg.FW_TEST_ADDR + 4, 0x50)]
    let t : Tag := tag0
    let n : Fin 7 := 4
    let v : Word := 50#32
    let a : Nat := s.rd64 Reg.FW_TEST_ADDR % 2 ^ 40
    let k : List Byte := s.peek a (1408 + min (codeLen (s.peek a 64)) (512 * 1024) + 2432)
    let e : Nat := s.imageFails k n [] true
    s.grants t 0 (Reg.FW_PROC n) (v ||| 0x20000000#32) ∧ v.getLsbD 31 = false ∧ s.fw.length = 7 ∧ s.board.lifecycle ≠ 2 ∧ s.securityUp = true ∧ (s.proc n).restart = none ∧ s.bit (Reg.FW_PROC n) 28 = false ∧ s.fld Reg.PWR_STATE 25 24 = 0 ∧ (0x5000000000 ≤ a ∧ a + 528128 ≤ 0x5000000000 + s.norBytes ∧ a + 528128 ≤ 0x5010000000) ∧ a % 64 = 0 := by decide

theorem met_KeysAndAttestation_1 :
    let s : State := live
    let t : Tag := tag0
    let v : Word := 0#32
    s.grants t 0 Reg.SEC_KEY_CTRL (v ||| 0x80000000#32) ∧ s.sec.keyLoad = none := by decide

theorem met_KeysAndAttestation_2 :
    let s : State := { live.regsSet [(Reg.FW_STATUS, 0x7F)] with sec := { keyLoad := some 0x5000000000 } }
    let a : Nat := 0x5000000000
    let k : List Byte := s.peek a (if blobForm (s.peek a 64) then blobBytes (s.peek a 64) else 64)
    s.sec.keyLoad = some a ∧ s.securityUp = true ∧ (0x5000000000 ≤ a ∧ a + 131072 ≤ 0x5000000000 + s.norBytes ∧ a + 131072 ≤ 0x5010000000) := by decide

theorem met_KeysAndAttestation_3 :
    let s : State := live.regsSet [(Reg.FW_STATUS, 0x7F)]
    let t : Tag := tag0
    let v : Word := 0#32
    s.grants t 0 Reg.SEC_ATTEST_CTRL (v ||| 0x80000000#32) ∧ s.bit Reg.SEC_ATTEST_CTRL 30 = false ∧ s.securityUp = true := by decide

theorem met_KeysAndAttestation_4 :
    let s : State := { live.regsSet [(Reg.FW_STATUS, 0x7F)] with sec := { attest := some [1] } }
    let l : List Byte := [1]
    s.sec.attest = some l ∧ s.securityUp = true := by decide

theorem met_KeysAndAttestation_5 :
    let s : State := { live.regsSet [(Reg.FW_STATUS, 0x7F)] with sec := { keyLoad := some 0x5000000000 } }
    let a : Nat := 0x5000000000
    let k : List Byte := s.peek a (if blobForm (s.peek a 64) then blobBytes (s.peek a 64) else 64)
    s.sec.keyLoad = some a ∧ s.securityUp = true ∧ (0x5000000000 ≤ a ∧ a + 131072 ≤ 0x5000000000 + s.norBytes ∧ a + 131072 ≤ 0x5010000000) ∧ (s.loadBlob k).1 ≠ 0 := by decide

theorem met_EscalationStages_1 :
    let s : State := (live.regsSet [(Reg.FW_STATUS, 0x7F)]).setEscal ⟨9, 0⟩ (some {})
    let u : UnitId := ⟨9, 0⟩
    let e : Escal := {}
    let r : Nat := Reg.PWR_REG_C (u.core.val / 8)
    s.escal u = some e ∧ e.phase = .due ∧ s.phase = .live ∧ s.controlUp u.core.val = true ∧ e.stage < 4 ∧ s.fld r 22 20 < e.stage + 1 := by decide

theorem met_EscalationStages_2 :
    let s : State := (live.regsSet [(Reg.FW_STATUS, 0x7F), (Reg.PWR_REG_C 1, 0x80200350)]).setEscal ⟨9, 2⟩ (some ⟨1, .due⟩)
    let u : UnitId := ⟨9, 2⟩
    let e : Escal := ⟨1, .due⟩
    let r : Nat := Reg.PWR_REG_C (u.core.val / 8)
    s.escal u = some e ∧ e.phase = .due ∧ s.phase = .live ∧ s.controlUp u.core.val = true ∧ e.stage < 4 ∧ e.stage + 1 ≤ s.fld r 22 20 := by decide

theorem met_EscalationStages_3 :
    let s : State := (live.regsSet [(Reg.FW_STATUS, 0x7F)]).setEscal ⟨9, 0⟩ (some ⟨5, .due⟩)
    let u : UnitId := ⟨9, 0⟩
    let e : Escal := ⟨5, .due⟩
    let c : Nat := u.core.val / 8
    let lim : Nat := if e.stage = 4 then 1100 else 950
    s.escal u = some e ∧ e.phase = .due ∧ s.phase = .live ∧ s.controlUp u.core.val = true ∧ (e.stage = 4 ∨ e.stage = 5) ∧ s.pwr.escCap.length = 4 := by decide

theorem met_EscalationStages_4 :
    let s : State := (live.regsSet [(Reg.FW_STATUS, 0x7F), (Reg.TW_LEDGER_HIST 9 0, 0x80010025), (Reg.TW_LEDGER_HIST 9 3, 0x80020025)]).setEscal ⟨9, 0⟩ (some ⟨6, .due⟩)
    let u : UnitId := ⟨9, 0⟩
    let e : Escal := ⟨6, .due⟩
    let col : Nat := 0x25
    let g : Nat := u.core.val
    s.escal u = some e ∧ e.phase = .due ∧ s.phase = .live ∧ s.controlUp g = true ∧ e.stage = 6 ∧ u.unit.val = 0 ∧ (s.core g).bypassed.length < 8 ∧ s.candidate g = some col := by decide

theorem met_EscalationStages_5 :
    let s : State := (live.regsSet [(Reg.FW_STATUS, 0x7F)]).setEscal ⟨31, 3⟩ (some ⟨6, .due⟩)
    let u : UnitId := ⟨31, 3⟩
    let e : Escal := ⟨6, .due⟩
    let g : Nat := u.core.val
    s.escal u = some e ∧ e.phase = .due ∧ s.phase = .live ∧ s.controlUp g = true ∧ 6 ≤ e.stage ∧ (u.unit.val ≠ 0 ∨ 8 ≤ (s.core g).bypassed.length ∨ s.candidate g = none) ∧ s.board.service.length = 32 := by decide

theorem met_EscalationStages_7 :
    let s : State := (live.regsSet [(Reg.FW_STATUS, 0x7F)]).setEscal ⟨31, 3⟩ (some ⟨6, .due⟩)
    let u : UnitId := ⟨31, 3⟩
    let e : Escal := ⟨6, .due⟩
    let g : Nat := u.core.val
    s.escal u = some e ∧ e.phase = .due ∧ s.phase = .live ∧ s.controlUp g = true ∧ 6 ≤ e.stage ∧ (u.unit.val ≠ 0 ∨ 8 ≤ (s.core g).bypassed.length ∨ s.candidate g = none) ∧ s.bit (Reg.PWR_CLUSTER_C (g / 8)) 31 = false := by decide

theorem met_ProbesEndEscalation_1 :
    let s : State := (live.regsSet [(Reg.FW_STATUS, 0x7F)]).setEscal ⟨0, 0⟩ (some ⟨1, .probeDue⟩)
    let u : UnitId := ⟨0, 0⟩
    let e : Escal := ⟨1, .probeDue⟩
    s.escal u = some e ∧ e.phase = .probeDue ∧ s.controlUp u.core.val = true ∧ (s.core u.core.val).pendMap = none ∧ s.coreBusy u.core.val = false ∧ (s.core u.core.val).testing = false := by decide

theorem met_ProbesEndEscalation_2 :
    let s : State := ((live.regsSet [(Reg.FW_STATUS, 0x7F), (Reg.TW_STATUS 3, 0x40000200)]).setEscal ⟨3, 0⟩ (some ⟨2, .probing⟩))
    let u : UnitId := ⟨3, 0⟩
    let e : Escal := ⟨2, .probing⟩
    let p : ProbePasses := ⟨8, 0⟩
    let k : ProbeSteps := ⟨5000, 100⟩
    let bad : List ProbeBad := [⟨0, 5#28, 0#28, false⟩]
    let g : Nat := u.core.val
    s.escal u = some e ∧ u.unit.val = 0 ∧ e.phase = .probing ∧ s.controlUp g = true ∧ k.ran ≤ 1000000 ∧ (∀ b ∈ bad, b.outcome = 0) := by decide

theorem met_ProbesEndEscalation_3 :
    let s : State := ((live.regsSet [(Reg.FW_STATUS, 0x7F), (Reg.TW_STATUS 3, 0x40000200)]).setEscal ⟨3, 0⟩ (some ⟨2, .probing⟩))
    let u : UnitId := ⟨3, 0⟩
    let e : Escal := ⟨2, .probing⟩
    let p : ProbePasses := ⟨8, 1⟩
    let k : ProbeSteps := ⟨5000, 100⟩
    let bad : List ProbeBad := [⟨0, 5#28, 0#28, false⟩, ⟨2, 0x80005#28, 0#28, false⟩]
    let known : Bool := true
    s.escal u = some e ∧ escalates u = true ∧ e.phase = .probing ∧ s.controlUp u.core.val = true ∧ k.ran ≤ 1000000 ∧ s.bit (suspectReg u) 30 = true ∧ (known = false ∨ ∃ b ∈ bad, b.outcome ≠ 0) := by decide

theorem met_ProbesEndEscalation_4 :
    let s : State := live.updCore 7 (fun c => { c with pendMap := some (false, [3, 9]) })
    let g : CoreId := 7
    let dis : Bool := false
    let cols : List Nat := [3, 9]
    (s.core g.val).pendMap = some (dis, cols) ∧ s.coreBusy g.val = false ∧ ((s.core g.val).escal.any fun e => e.any (·.phase = .probing)) = false := by decide

theorem met_ProbesEndEscalation_5 :
    let s : State := live.updCore 7 (fun c => { c with pendMap := some (false, [3, 9]) })
    let g : CoreId := 7
    let dis : Bool := false
    let cols : List Nat := [3, 9]
    (s.core g.val).pendMap = some (dis, cols) ∧ s.coreBusy g.val = false ∧ ((s.core g.val).escal.any fun e => e.any (·.phase = .probing)) = false ∧ (dis = false ∨ (s.core g.val).disabled = true) := by decide

theorem met_ProbesEndEscalation_6 :
    let s : State := ((live.regsSet [(Reg.FW_STATUS, 0x7F), (Reg.TD_STATUS 3 1, 0x40000000)]).setEscal ⟨3, 3⟩ (some ⟨2, .probing⟩))
    let u : UnitId := ⟨3, 3⟩
    let e : Escal := ⟨2, .probing⟩
    let p : ProbePasses := ⟨8, 0⟩
    let k : ProbeSteps := ⟨5000, 0⟩
    let bad : List ProbeBad := [⟨0, 5#28, 0#28, false⟩]
    let g : Nat := u.core.val
    let m : Nat := u.unit.val - 2
    s.escal u = some e ∧ 2 ≤ u.unit.val ∧ e.phase = .probing ∧ s.controlUp g = true ∧ k.ran ≤ 1000000 ∧ s.bit (Reg.PWR_CLUSTER_C (g / 8)) 31 = false ∧ (∀ b ∈ bad, b.outcome = 0) := by decide

theorem met_SelfTestSlices_1 :
    let s : State := { live.regsSet [(Reg.TAL_SW_CTRL, 0x800003E8)] with pwr := { boot := .done } }
    let g : Nat := 0
    s.phase = .live ∧ s.pwr.boot = .done ∧ s.bit Reg.TAL_SW_CTRL 31 = true ∧ s.fld Reg.PWR_STATE 25 24 = 0 ∧ s.pwr.warm = false ∧ s.sch.testAsk = none ∧ s.sch.testCore = none ∧ s.nextTest = some g := by decide

theorem met_SelfTestSlices_2 :
    let s : State := { live.updCore 3 (fun c => { c with testDefer := some 100 }) with refNs := 100 }
    let g : CoreId := 3
    let d : Nat := 100
    (s.core g.val).testDefer = some d ∧ d ≤ s.refNs := by decide

theorem met_SelfTestSlices_3 :
    let s : State := { live.regsSet [(Reg.FW_STATUS, 0x7F)] with sch := { testAsk := some 5 } }
    let g : CoreId := 5
    s.sch.testAsk = some g.val ∧ s.schedUp = true ∧ s.deadlineBusy g.val = false ∧ s.workFits g.val = true ∧ s.sch.testCore = none ∧ s.openCore g.val = true ∧ s.victimOn g.val 3 (fun _ => true) = none ∧ s.cores.length = 32 := by decide

theorem met_SelfTestSlices_4 :
    let s : State := { live.regsSet [(Reg.FW_STATUS, 0x7F), (Reg.TW_STATUS 5, 0x40000200)] with sch := { testAsk := some 5 } }
    let g : CoreId := 5
    s.sch.testAsk = some g.val ∧ s.schedUp = true ∧ (s.deadlineBusy g.val = true ∨ s.workFits g.val = false ∨ s.sch.testCore.isSome = true ∨ s.openCore g.val = false) ∧ s.cores.length = 32 := by decide

theorem met_SelfTestSlices_5 :
    let s : State := { (live.updCore 5 fun c => { c with testing := true }) with sch := { testCore := some 5 } }
    let g : CoreId := 5
    let n : Nat := 3
    let k : Nat := 20000
    s.sch.testCore = some g.val ∧ k ≤ s.fld Reg.SCH_TEST_SLICE 17 0 ∧ (s.test g.val).at_ + n < (s.test g.val).total ∧ s.swr.cores.length = 32 := by decide

theorem met_SelfTestSlices_6 :
    let s : State := { live with sch := { testCore := some 5 } }
    let g : CoreId := 5
    let n : Nat := 40
    let k : Nat := 9
    s.sch.testCore = some g.val ∧ k ≤ s.fld Reg.SCH_TEST_SLICE 17 0 ∧ (s.test g.val).total ≤ (s.test g.val).at_ + n ∧ s.swr.cores.length = 32 := by decide

theorem met_SelfTestSlices_7 :
    let s : State := { live with sch := { testCore := some 5 } }
    let g : CoreId := 5
    let n : Nat := 1
    let k : Nat := 0
    let e : Nat := 0
    let idx : Nat := 17
    let a : Nat := 8
    let unit : Fin 8 := 2
    let crc : Word := 9#32
    s.sch.testCore = some g.val ∧ k ≤ s.fld Reg.SCH_TEST_SLICE 17 0 ∧ (s.test g.val).packs = [] ∧ s.marks (testEntryAt g.val 0) 32 = [] ∧ (a < testEntryAt g.val 0 ∨ testEntryAt g.val 0 + 32 ≤ a) ∧ s.swr.cores.length = 32 := by decide

theorem met_SelfTestSlices_8 :
    let s : State := { live with pwr := { boot := .done }, refNs := 60000000000 }
    let g : CoreId := 31
    let x : CoreTest := s.test g.val
    s.phase = .live ∧ s.pwr.boot = .done ∧ (s.core g.val).disabled = false ∧ s.clusterUp (g.val / 8) = true ∧ max x.since x.starvedAt + s.testInterval ≤ s.refNs ∧ s.swr.cores.length = 32 := by decide

theorem met_SelfTestSlices_9 :
    let s : State := { live with sch := { testCore := some 5 } }
    let g : CoreId := 5
    let n : Nat := 40
    let k : Nat := 9
    let a : Nat := 0
    s.sch.testCore = some g.val ∧ k ≤ s.fld Reg.SCH_TEST_SLICE 17 0 ∧ (s.test g.val).total ≤ (s.test g.val).at_ + n ∧ (s.test g.val).packs = [] ∧ s.marks (testEntryAt g.val 0) 32 = [] ∧ (a < testEntryAt g.val 0 ∨ testEntryAt g.val 0 + 32 ≤ a) := by decide

theorem met_SelfTestSlices_10 :
    let s : State := { live with sch := { testCore := some 5 } }
    let g : CoreId := 5
    let n : Nat := 1
    let k : Nat := 0
    let e : Nat := 2
    let idx : Nat := 17
    let unit : Fin 8 := 1
    let crc : Word := 9#32
    s.sch.testCore = some g.val ∧ k ≤ s.fld Reg.SCH_TEST_SLICE 17 0 ∧ unit.val ≤ 1 := by decide

theorem met_SelfTestSlices_11 :
    let s : State := { live with sch := { testCore := some 5 } }
    let g : CoreId := 5
    let n : Nat := 1
    let k : Nat := 0
    let e : Nat := 0
    let idx : Nat := 17
    let unit : Fin 8 := 2
    let crc : Word := 9#32
    s.sch.testCore = some g.val ∧ k ≤ s.fld Reg.SCH_TEST_SLICE 17 0 ∧ (unit.val = 2 ∨ unit.val = 3) := by decide

theorem met_SelfTestSlices_11b :
    let s : State := { live with sch := { testCore := some 5 } }
    let g : CoreId := 5
    let n : Nat := 1
    let k : Nat := 0
    let e : Nat := 3
    let idx : Nat := 17
    let unit : Fin 8 := 3
    let crc : Word := 9#32
    s.sch.testCore = some g.val ∧ k ≤ s.fld Reg.SCH_TEST_SLICE 17 0 ∧ (unit.val = 2 ∨ unit.val = 3) := by decide

theorem met_SelfTestSlices_12 :
    let s : State := { live with sch := { testCore := some 5 } }
    let g : CoreId := 5
    let n : Nat := 1
    let k : Nat := 0
    let e : Nat := 0
    let idx : Nat := 17
    let unit : Fin 8 := 7
    let crc : Word := 9#32
    s.sch.testCore = some g.val ∧ k ≤ s.fld Reg.SCH_TEST_SLICE 17 0 ∧ 4 ≤ unit.val ∧ s.board.service.length = 32 := by decide

theorem met_SelfTestSlices_13 :
    let s : State := { live with sch := { testCore := some 5 } }
    let g : CoreId := 5
    let r : SliceResult := ⟨262144, 1, none⟩
    s.fld Reg.SCH_TEST_SLICE 17 0 < r.steps := by decide

theorem met_SwatchPacks_1 :
    let s : State := live.regsSet [(Reg.TAL_SW_ADDR 2, 0x40)]
    let t : Tag := tag0
    let k : Fin 4 := 2
    let v : Word := 0#32
    s.grants t 0 (Reg.TAL_SW_SLOT k.val) (v ||| 0x20000000#32) ∧ s.rd64 (Reg.TAL_SW_ADDR k.val) % 2 ^ 40 ≠ 0 ∧ s.swr.loads.length = 4 := by decide

theorem met_SwatchPacks_2 :
    let s : State := live.regsSet [(Reg.TAL_SW_SLOT 2, 0x80000000)]
    let t : Tag := tag0
    let k : Fin 4 := 2
    let v : Word := 0#32
    s.grants t 0 (Reg.TAL_SW_SLOT k.val) (v ||| 0x20000000#32) ∧ s.rd64 (Reg.TAL_SW_ADDR k.val) % 2 ^ 40 = 0 ∧ s.swr.loads.length = 4 := by decide

theorem met_SwatchPacks_3 :
    let s : State := { live.regsSet [(Reg.FW_STATUS, 0x7F)] with swr := { loads := [none, some 0x7000000000, none, none] } }
    let k : Fin 4 := 1
    let a : Nat := 0x7000000000
    let r : Option (List Byte) × State := s.secRead a 64
    s.swr.loads.getD k.val none = some a ∧ s.securityUp = true ∧ r.1 = none ∧ s.swr.loads.length = 4 := by decide

theorem met_SwatchPacks_4 :
    let s : State := { (live.regsSet [(Reg.FW_STATUS, 0x7F)]).poke 0x5001100000 ([0x57, 0x53, 1, 0, 7, 0, 0, 0, 1, 0, 0, 0, 0, 0, 0, 0, 64, 0, 0, 0] ++ List.replicate 44 0) with swr := { loads := [none, some 0x5001100000, none, none] } }
    let k : Fin 4 := 1
    let a : Nat := 0x5001100000
    let h : List Byte := s.view a 64
    let n : Nat := min (le h 16 4) 65536
    let body : List Byte := s.view a n
    let key : Nat := le (s.view a 64) 3 1 % 16
    let ok : Bool := decide (a % 64 = 0) && packForm body && s.vkeyServes key 0 && Config.mldsaVerify (s.sec.vkeys.getD key []) (leBytes 32 (sha3 body).toNat) (s.view (a + n) 2420) && decide (s.packVersion (le body 4 4) ≤ le body 8 4)
    s.swr.loads.getD k.val none = some a ∧ s.securityUp = true ∧ (0x5000000000 ≤ a ∧ a + n + 2420 ≤ 0x5000000000 + s.norBytes ∧ a + n + 2420 ≤ 0x5010000000) ∧ 64 ≤ n ∧ s.swr.slots.length = 4 := by decide

theorem met_SwatchPacks_5 :
    let s : State := { (live.regsSet [(Reg.FW_STATUS, 0x7F)]).poke 0x5001100000 ([0x57, 0x53, 1, 0, 7, 0, 0, 0, 1, 0, 0, 0, 0, 0, 0, 0, 64, 0, 0, 0] ++ List.replicate 44 0) with swr := { loads := [none, some 0x5001100000, none, none] } }
    let k : Fin 4 := 1
    let a : Nat := 0x5001100000
    let h : List Byte := s.view a 64
    let n : Nat := min (le h 16 4) 65536
    let body : List Byte := s.view a n
    s.swr.loads.getD k.val none = some a ∧ s.securityUp = true ∧ (0x5000000000 ≤ a ∧ a + n + 2420 ≤ 0x5000000000 + s.norBytes ∧ a + n + 2420 ≤ 0x5010000000) ∧ 64 ≤ n ∧ (a % 64 ≠ 0 ∨ packForm body = false ∨ s.vkeyServes (le h 3 1 % 16) 0 = false ∨ le body 8 4 < s.packVersion (le body 4 4)) := by decide

theorem met_AgeMonitors_1 :
    let s : State := live.regsSet [(Reg.SAF_AGE_LIMIT 63, 1000), (Reg.SAF_AGE_PERIOD 63, 10), (Reg.SAF_AGE_TOL 63, 9)]
    let t : Tag := tag0
    let m : Fin 64 := 63
    let v : Word := 0x23000000#32
    let c : Nat := Reg.SAF_AGE_CTRL m.val
    let lim : Nat := (s.rd (Reg.SAF_AGE_LIMIT m.val)).toNat
    s.grants t 0 c (v ||| 0x80000000#32) ∧ s.bit c 31 = false ∧ (1 ≤ lim ∧ lim ≤ 10000000) ∧ (v.getLsbD 29 = true → s.monTol m.val < s.monPeriod m.val) ∧ s.age.length = 64 := by decide

theorem met_AgeMonitors_2 :
    let s : State := live.regsSet [(Reg.SAF_AGE_LIMIT 63, 1000), (Reg.SAF_AGE_PERIOD 63, 9), (Reg.SAF_AGE_TOL 63, 9)]
    let t : Tag := tag0
    let m : Fin 64 := 63
    let v : Word := 0x23000000#32
    let c : Nat := Reg.SAF_AGE_CTRL m.val
    let lim : Nat := (s.rd (Reg.SAF_AGE_LIMIT m.val)).toNat
    s.grants t 0 c (v ||| 0x80000000#32) ∧ s.bit c 31 = false ∧ (lim = 0 ∨ 10000000 < lim ∨ (v.getLsbD 29 = true ∧ s.monPeriod m.val ≤ s.monTol m.val)) := by decide

theorem met_AgeMonitors_3 :
    let s : State := { live.regsSet [(Reg.SAF_AGE_CTRL 2, 0xA3000000), (Reg.SAF_AGE_PERIOD 2, 10)] with age := List.replicate 2 {} ++ [{ due := some 50 }] ++ List.replicate 61 {}, refNs := 51 }
    let m : Fin 64 := 2
    let d : Nat := 50
    let c : Nat := Reg.SAF_AGE_CTRL m.val
    let n : Nat := min (s.fld (Reg.SAF_AGE_COUNT m.val) 15 0 + 1) 65535
    (s.mon m.val).due = some d ∧ s.phase = .live ∧ s.bit c 31 = true ∧ s.bit c 29 = true ∧ d < s.refNs ∧ s.age.length = 64 := by decide

theorem met_AgeMonitors_4 :
    let s : State := live.regsSet [(Reg.SAF_AGE_CTRL 2, 0x83000000), (Reg.SAF_AGE_LIMIT 2, 10)]
    let m : Nat := 2
    let stall : Nat := 3
    let p : Prov := { hasTime := true, capture := 5, frame := 77 }
    let now : Nat := 10005
    let c : Nat := Reg.SAF_AGE_CTRL m
    let age : Int := now - p.capture
    s.bit c 31 = true ∧ s.fld c 27 24 = stall ∧ p.hasTime = true ∧ (s.bit c 30 = false ∨ (p.synced = true ∧ s.synced = true)) ∧ (p.stepGen = s.stepGen ∨ s.bit c 28 = true) ∧ (0 ≤ age ∧ age ≤ (s.rd (Reg.SAF_AGE_LIMIT m)).toNat * 1000) := by decide

theorem met_AgeMonitors_5 :
    let s : State := live
    let m : Nat := 2
    let stall : Nat := 3
    let p : Prov := {}
    let now : Nat := 10006
    (s.bit (Reg.SAF_AGE_CTRL m) 31 = false ∨ s.fld (Reg.SAF_AGE_CTRL m) 27 24 ≠ stall) := by decide

theorem met_AgeMonitors_6 :
    let s : State := live.regsSet [(Reg.SAF_AGE_CTRL 2, 0x83000000), (Reg.SAF_AGE_LIMIT 2, 10)]
    let m : Nat := 2
    let stall : Nat := 3
    let p : Prov := { hasTime := true, capture := 5, frame := 77 }
    let now : Nat := 10006
    let c : Nat := Reg.SAF_AGE_CTRL m
    let age : Int := now - p.capture
    s.bit c 31 = true ∧ s.fld c 27 24 = stall ∧ p.hasTime = true ∧ (s.bit c 30 = false ∨ (p.synced = true ∧ s.synced = true)) ∧ (p.stepGen = s.stepGen ∨ s.bit c 28 = true) ∧ (age < 0 ∨ (s.rd (Reg.SAF_AGE_LIMIT m)).toNat * 1000 < age) := by decide

theorem met_WeightDigests_1 :
    let s : State := { live.regsSet [(Reg.FW_STATUS, 0x7F)] with refNs := 60000000000 }
    s.roundsRun = true ∧ s.dig.start + s.fld Reg.SAF_DIG_CTRL 15 0 * 1000000 ≤ s.refNs ∧ s.dig.running = false := by decide

theorem met_WeightDigests_2 :
    let s : State := { live.regsSet [(Reg.FW_STATUS, 0x7F)] with refNs := 60000000000, dig := { running := true } }
    s.roundsRun = true ∧ s.dig.start + s.fld Reg.SAF_DIG_CTRL 15 0 * 1000000 ≤ s.refNs ∧ s.dig.running = true ∧ s.dig.late = false := by decide

theorem met_WeightDigests_3 :
    let s : State := { live.regsSet [(Reg.FW_STATUS, 0x7F)] with refNs := 60000000000, dig := { running := true, late := true } }
    s.roundsRun = true ∧ s.dig.running = true := by decide

theorem met_WeightDigests_4 :
    let s : State := live.regsSet [(Reg.SAF_DIG_ENT 63, 0x82000000), (Reg.SAF_DIG_LENGTH 63, 64)]
    let n : Fin 64 := 63
    let r : Nat × Nat := s.digRegion n.val
    s.digOn n.val = true ∧ 0 < r.2 ∧ (s.barrier s.secTag .read r.1 (min r.2 (64 - r.1 % 64))).isSome = true := by decide

theorem met_WeightDigests_5 :
    let s : State := live.regsSet [(Reg.SAF_DIG_ENT 63, 0x82000000), (Reg.SAF_DIG_LENGTH 63, 64), (Reg.SAF_DIG_ADDR 63 + 4, 0x10)]
    let n : Fin 64 := 63
    let r : Nat × Nat := s.digRegion n.val
    let v : Nat := (sha3 (s.view r.1 r.2)).toNat
    s.digOn n.val = true ∧ s.canRead false s.secTag r.1 r.2 = true := by decide

theorem met_WeightDigests_6 :
    let s : State := { live.regsSet [(Reg.FW_STATUS, 0x7F), (Reg.SAF_DIG_ENT 9, 0x92000000)] with cmd := { jobs := [jobWith [cmdOf (desc128 [0x16, 1, 0, 0, 2, 0, 0, 0, 0, 0, 0, 0, 0, 0, 0, 0, 3, 9])]] } }
    let job : Nat := 7
    let idx : Nat := 0
    let j : Job := jobWith [cmdOf (desc128 [0x16, 1, 0, 0, 2, 0, 0, 0, 0, 0, 0, 0, 0, 0, 0, 0, 3, 9])]
    let c : Cmd := cmdOf (desc128 [0x16, 1, 0, 0, 2, 0, 0, 0, 0, 0, 0, 0, 0, 0, 0, 0, 3, 9])
    let n : Nat := digEntry c.desc
    s.goes job idx 0x16 .started j c ∧ s.securityUp = true ∧ digMode c.desc = 3 ∧ (s.digOn n = true → s.fld (Reg.SAF_DIG_ENT n) 27 24 = j.stall) := by decide

theorem met_WeightDigests_7 :
    let s : State := { live.regsSet [(Reg.FW_STATUS, 0x7F), (Reg.SAF_DIG_ENT 9, 0x92000000)] with cmd := { jobs := [jobWith [cmdOf (desc128 [0x16, 1, 0, 0, 2, 0, 0, 0, 0, 0, 0, 0, 0, 0, 0, 0, 1, 8])]] } }
    let job : Nat := 7
    let idx : Nat := 0
    let j : Job := jobWith [cmdOf (desc128 [0x16, 1, 0, 0, 2, 0, 0, 0, 0, 0, 0, 0, 0, 0, 0, 0, 1, 8])]
    let c : Cmd := cmdOf (desc128 [0x16, 1, 0, 0, 2, 0, 0, 0, 0, 0, 0, 0, 0, 0, 0, 0, 1, 8])
    let n : Nat := digEntry c.desc
    s.goes job idx 0x16 .started j c ∧ s.securityUp = true ∧ digMode c.desc = 1 ∧ s.digOn n = false := by decide

theorem met_WeightDigests_8 :
    let s : State := { live.regsSet [(Reg.FW_STATUS, 0x7F), (Reg.SAF_DIG_ENT 9, 0x92000000)] with cmd := { jobs := [jobWith [cmdOf (desc128 [0x16, 1, 0, 0, 2, 0, 0, 0, 0, 0, 0, 0, 0, 0, 0, 0, 2, 9])]] } }
    let job : Nat := 7
    let idx : Nat := 0
    let peer : PeerDigest := ⟨[0#32, 0#32, 0#32, 0#32, 0#32, 0#32, 0#32], true, true, 0, 0⟩
    let j : Job := jobWith [cmdOf (desc128 [0x16, 1, 0, 0, 2, 0, 0, 0, 0, 0, 0, 0, 0, 0, 0, 0, 2, 9])]
    let c : Cmd := cmdOf (desc128 [0x16, 1, 0, 0, 2, 0, 0, 0, 0, 0, 0, 0, 0, 0, 0, 0, 2, 9])
    let n : Nat := digEntry c.desc
    let own : List Word := (List.range 7).map fun k => s.rd (Reg.FW_IMAGE k)
    let model : Nat := (s.dig.expect.getD n (0, 0)).2
    s.goes job idx 0x16 .started j c ∧ s.securityUp = true ∧ digMode c.desc = 2 ∧ (own = peer.versions ∧ s.digOn n = true ∧ peer.enabled = true ∧ peer.digested = true ∧ peer.modelId.toNat = model) ∧ s.fld (Reg.SAF_DIG_ENT n) 27 24 = j.stall := by decide

theorem met_WeightDigests_9 :
    let s : State := { live.regsSet [(Reg.FW_STATUS, 0x7F), (Reg.SAF_DIG_ENT 9, 0x92000000)] with cmd := { jobs := [jobWith [cmdOf (desc128 [0x16, 1, 0, 0, 2, 0, 0, 0, 0, 0, 0, 0, 0, 0, 0, 0, 0, 9])]] } }
    let job : Nat := 7
    let idx : Nat := 0
    let j : Job := jobWith [cmdOf (desc128 [0x16, 1, 0, 0, 2, 0, 0, 0, 0, 0, 0, 0, 0, 0, 0, 0, 0, 9])]
    let c : Cmd := cmdOf (desc128 [0x16, 1, 0, 0, 2, 0, 0, 0, 0, 0, 0, 0, 0, 0, 0, 0, 0, 9])
    let n : Nat := digEntry c.desc
    s.goes job idx 0x16 .started j c ∧ s.securityUp = true ∧ digMode c.desc = 0 ∧ j.stall < 16 ∧ s.dig.expect.length = 64 := by decide

theorem met_WeightDigests_10 :
    let s : State := { live.regsSet [(Reg.FW_STATUS, 0x7F)] with dig := { running := true } }
    s.roundsRun = true ∧ s.dig.running = true ∧ (∀ n : Fin 64, s.digOn n.val = false) := by decide

theorem met_WeightDigests_11 :
    let s : State := { live.regsSet [(Reg.FW_STATUS, 0x7F), (Reg.SAF_DIG_ENT 63, 0x82000000), (Reg.SAF_DIG_LENGTH 63, 64), (Reg.SAF_DIG_ADDR 63 + 4, 0x10)] with dig := { running := true } }
    let n : Fin 64 := 63
    let r : Nat × Nat := s.digRegion n.val
    let v : Nat := (sha3 (s.view r.1 r.2)).toNat
    s.roundsRun = true ∧ s.dig.running = true ∧ (∀ k : Fin 64, s.digOn k.val = decide (k = n)) ∧ s.canRead false s.secTag r.1 r.2 = true := by decide

theorem met_WeightDigests_12 :
    let s : State := { live.regsSet [(Reg.FW_STATUS, 0x7F), (Reg.SAF_DIG_ENT 9, 0x93000000)] with cmd := { jobs := [jobWith [cmdOf (desc128 [0x16, 1, 0, 0, 2, 0, 0, 0, 0, 0, 0, 0, 0, 0, 0, 0, 1, 9])]] } }
    let job : Nat := 7
    let idx : Nat := 0
    let j : Job := jobWith [cmdOf (desc128 [0x16, 1, 0, 0, 2, 0, 0, 0, 0, 0, 0, 0, 0, 0, 0, 0, 1, 9])]
    let c : Cmd := cmdOf (desc128 [0x16, 1, 0, 0, 2, 0, 0, 0, 0, 0, 0, 0, 0, 0, 0, 0, 1, 9])
    let n : Nat := digEntry c.desc
    s.goes job idx 0x16 .started j c ∧ s.securityUp = true ∧ digMode c.desc = 1 ∧ s.digOn n = true ∧ s.fld (Reg.SAF_DIG_ENT n) 27 24 ≠ j.stall := by decide

theorem met_WeightDigests_13 :
    let s : State := { live.regsSet [(Reg.FW_STATUS, 0x7F), (Reg.SAF_DIG_ENT 9, 0x92000000), (Reg.SAF_DIG_LENGTH 9, 64), (Reg.SAF_DIG_ADDR 9 + 4, 0x10)] with cmd := { jobs := [jobWith [cmdOf (desc128 [0x16, 1, 0, 0, 2, 0, 0, 0, 0, 0, 0, 0, 0, 0, 0, 0, 1, 9])]] } }
    let job : Nat := 7
    let idx : Nat := 0
    let j : Job := jobWith [cmdOf (desc128 [0x16, 1, 0, 0, 2, 0, 0, 0, 0, 0, 0, 0, 0, 0, 0, 0, 1, 9])]
    let c : Cmd := cmdOf (desc128 [0x16, 1, 0, 0, 2, 0, 0, 0, 0, 0, 0, 0, 0, 0, 0, 0, 1, 9])
    let n : Nat := digEntry c.desc
    let r : Nat × Nat := s.digRegion n
    let v : Nat := (sha3 (s.view r.1 r.2)).toNat
    s.goes job idx 0x16 .started j c ∧ s.securityUp = true ∧ digMode c.desc = 1 ∧ s.digOn n = true ∧ s.fld (Reg.SAF_DIG_ENT n) 27 24 = j.stall ∧ s.canRead true s.secTag r.1 r.2 = true := by decide

theorem met_WeightDigests_14 :
    let s : State := { live.regsSet [(Reg.FW_STATUS, 0x7F), (Reg.SAF_DIG_ENT 9, 0x92000000)] with cmd := { jobs := [jobWith [cmdOf (desc128 [0x16, 1, 0, 0, 2, 0, 0, 0, 0, 0, 0, 0, 0, 0, 0, 0, 2, 9])]] } }
    let job : Nat := 7
    let idx : Nat := 0
    let peer : PeerDigest := ⟨[0#32, 0#32, 0#32, 0#32, 0#32, 0#32, 1#32], true, true, 0, 0⟩
    let j : Job := jobWith [cmdOf (desc128 [0x16, 1, 0, 0, 2, 0, 0, 0, 0, 0, 0, 0, 0, 0, 0, 0, 2, 9])]
    let c : Cmd := cmdOf (desc128 [0x16, 1, 0, 0, 2, 0, 0, 0, 0, 0, 0, 0, 0, 0, 0, 0, 2, 9])
    s.goes job idx 0x16 .started j c ∧ s.securityUp = true ∧ digMode c.desc = 2 ∧ ((List.range 7).map fun k => s.rd (Reg.FW_IMAGE k)) ≠ peer.versions := by decide

theorem met_WeightDigests_15 :
    let s : State := { live.regsSet [(Reg.FW_STATUS, 0x7F), (Reg.SAF_DIG_ENT 9, 0x92000000)] with cmd := { jobs := [jobWith [cmdOf (desc128 [0x16, 1, 0, 0, 2, 0, 0, 0, 0, 0, 0, 0, 0, 0, 0, 0, 2, 9])]] } }
    let job : Nat := 7
    let idx : Nat := 0
    let peer : PeerDigest := ⟨[0#32, 0#32, 0#32, 0#32, 0#32, 0#32, 0#32], true, false, 0, 0⟩
    let j : Job := jobWith [cmdOf (desc128 [0x16, 1, 0, 0, 2, 0, 0, 0, 0, 0, 0, 0, 0, 0, 0, 0, 2, 9])]
    let c : Cmd := cmdOf (desc128 [0x16, 1, 0, 0, 2, 0, 0, 0, 0, 0, 0, 0, 0, 0, 0, 0, 2, 9])
    let n : Nat := digEntry c.desc
    let own : List Word := (List.range 7).map fun k => s.rd (Reg.FW_IMAGE k)
    let model : Nat := (s.dig.expect.getD n (0, 0)).2
    s.goes job idx 0x16 .started j c ∧ s.securityUp = true ∧ digMode c.desc = 2 ∧ own = peer.versions ∧ (s.digOn n = false ∨ peer.enabled = false ∨ peer.digested = false ∨ peer.modelId.toNat ≠ model) := by decide

theorem met_WeightDigests_16 :
    let s : State := { (live.poke (boltAddr 0 0x1000) [0, 0, 0, 0, 1]).regsSet [(Reg.FW_STATUS, 0x7F), (Reg.SEC_VKEY 0, 0x80000004), (Reg.SAF_DIG_CTRL, 1000)] with cmd := { jobs := [jobWith [cmdOf (desc128 [0x16, 1, 0, 0, 2, 0, 0, 0, 0, 0, 0, 0, 0, 0, 0, 0, 0, 9, 0, 0, 0, 0, 0, 0, 0, 0, 0, 0, 16, 0, 0, 0, 0, 16, 0, 0, 16])]] } }
    let job : Nat := 7
    let idx : Nat := 0
    let j : Job := jobWith [cmdOf (desc128 [0x16, 1, 0, 0, 2, 0, 0, 0, 0, 0, 0, 0, 0, 0, 0, 0, 0, 9, 0, 0, 0, 0, 0, 0, 0, 0, 0, 0, 16, 0, 0, 0, 0, 16, 0, 0, 16])]
    let c : Cmd := cmdOf (desc128 [0x16, 1, 0, 0, 2, 0, 0, 0, 0, 0, 0, 0, 0, 0, 0, 0, 0, 9, 0, 0, 0, 0, 0, 0, 0, 0, 0, 0, 16, 0, 0, 0, 0, 16, 0, 0, 16])
    let n : Nat := digEntry c.desc
    let man : Nat := le c.desc 32 5
    let addr : Nat := le c.desc 24 5
    let at_ : Nat := man + 64 + 64 * le c.desc 18 2
    let h : List Byte := s.view man 64
    let r : List Byte := s.view at_ 64
    let body : List Byte := s.view man (64 + 64 * le h 4 2)
    let sig : List Byte := s.view (man + 64 + 64 * le h 4 2) 2420
    let want : Nat := leNat (slice r 8 32)
    let ok : Bool := recordsOk h body && Config.mldsaVerify (s.sec.vkeys.getD (le h 3 1 % 16) []) (leBytes 32 (sha3 body).toNat) sig && decide ((sha3 (s.view addr (le r 0 4))).toNat = want)
    s.goes job idx 0x16 .started j c ∧ s.securityUp = true ∧ digMode c.desc = 0 ∧ j.stall < 16 ∧ s.dig.expect.length = 64 ∧ s.digOn n = false ∧ le c.desc 18 2 < le h 4 2 ∧ s.digTotal n + le r 0 4 ≤ s.fld Reg.SAF_DIG_CTRL 15 0 * 1200000 ∧ s.vkeyServes (le h 3 1 % 16) j.stall = true ∧ digRegionOk addr (le r 0 4) = true ∧ (s.canRead true s.secTag man 64 = true ∧ s.canRead true s.secTag at_ 64 = true) ∧ (s.canRead true s.secTag man (64 + 64 * le h 4 2) = true ∧ s.canRead true s.secTag (man + 64 + 64 * le h 4 2) 2420 = true) ∧ s.canRead true s.secTag addr (le r 0 4) = true := by decide

theorem met_TestPort_3 :
    let s : State := { live with tap := { state := .shiftDr } }
    let tdi : Bool := true
    s.tap.instr = .bypass ∧ s.tap.state = .shiftDr := by decide

theorem met_AccumulatorsAreDotProducts_1 :
    let sg : Bool := true
    let b : Nat := 8
    let rows : Nat := 2
    let cols : Nat := 1
    let i : Nat := 1
    let j : Nat := 0
    let ks : List KStep := [⟨[5, 0xF0], [7]⟩, ⟨[0, 0], [3]⟩, ⟨[1, 0x7F], [-9]⟩]
    1 ≤ b ∧ (∀ k ∈ ks, k.weft.length = rows ∧ k.warp.length = cols) ∧ i < rows ∧ j < cols := by decide

theorem met_ChecksumsLocateAFault_1 :
    let sg : Bool := true
    let b : Nat := 8
    let rows : Nat := 2
    let cols : Nat := 2
    let cin : Option (List (List Int)) := some [[1, 2], [-3, 4]]
    let ks : List KStep := [⟨[5, 0xF0], [7, 8]⟩, ⟨[1, 0x7F], [-9, 100]⟩]
    (∀ l ∈ cin, l.length = rows ∧ ∀ r ∈ l, r.length = cols) ∧ (∀ k ∈ ks, k.weft.length = rows ∧ k.warp.length = cols) := by decide

theorem met_ChecksumsLocateAFault_2 :
    let t : Tile := tile22
    let p : Nat := 512
    let i : Nat := 1
    let j : Nat := 0
    let n : Fin 32 := 31
    let u : Tile := t.flip p ⟨.data i j, n⟩
    let d : Word := t.cell i j - flipBit n.val (t.cell i j)
    t.classify = .clean ∧ i < 512 ∧ j < p ∧ i < t.acc.length ∧ j < (t.acc.getD i []).length := by decide

theorem met_ChecksumsLocateAFault_4 :
    let t : Tile := tile22
    let p : Nat := 512
    let i : Nat := 1
    let n : Fin 32 := 31
    t.classify = .clean := by decide

theorem met_ChecksumsLocateAFault_5 :
    let t : Tile := tile22
    let i : Nat := 1
    let j : Nat := 0
    let k : Nat := 1
    let v : Word := 8#32
    let w : Word := 7#32
    t.classify = .clean ∧ i < t.acc.length ∧ (j < (t.acc.getD i []).length ∧ k < (t.acc.getD i []).length) ∧ j ≠ k ∧ v ≠ t.cell i j ∧ w ≠ t.cell i k := by decide

theorem met_TwillPassRunsAndDrains_1 :
    let s : State := (live.withJob (jobWith [cmdOf twillDesc])).poke (boltAddr 0 0x200) [5, 6]
    let job : Nat := 7
    let idx : Nat := 0
    let j : Job := jobWith [cmdOf twillDesc]
    let c : Cmd := cmdOf twillDesc
    let a : Nat := skeinAddr 0 0x60000
    let d : TwillD := twillD c.desc
    s.goes job idx 0x01 .started j c ∧ s.cores.length = 32 ∧ j.core < 32 ∧ d.cin = false ∧ s.stepsReady (j.tag s 0) j.core d = true ∧ offChunks j.core a := by decide

theorem met_TwillPassRunsAndDrains_2 :
    let s : State := (live.withJob (jobWith [goingOf twillDesc])).updCore 0 (fun x => { x with pass := some pass22 })
    let g : CoreId := 0
    let p : Pass := pass22
    let j : Job := jobWith [goingOf twillDesc]
    let c : Cmd := goingOf twillDesc
    let i : Nat := 1
    let k : Nat := 0
    let a : Nat := 0x1000001008
    let d : TwillD := twillD c.desc
    (s.core g.val).pass = some p ∧ s.goes p.job p.cmd 0x01 .running j c ∧ j.core = g.val ∧ d.raw ∧ (p.rerun = false ∧ p.inject = none) ∧ p.tile.classify = .clean ∧ (i < d.rows ∧ k < d.cols) ∧ (d.cols * 4 ≤ d.outStride ∧ d.out + d.rows * d.outStride ≤ 0x400000) ∧ s.drainReady (j.tag s 0) g.val d = true ∧ (∀ r < d.rows, a < boltAddr g.val d.out + r * d.outStride ∨ boltAddr g.val d.out + r * d.outStride + 4 * d.cols ≤ a) := by decide

theorem met_TwillPassRunsAndDrains_3 :
    let s : State := (live.withJob (jobWith [goingOf twillDesc])).updCore 0 (fun x => { x with pass := some { pass22 with tile := { tile22 with corner := 0 } } })
    let g : CoreId := 0
    let p : Pass := { pass22 with tile := { tile22 with corner := 0 } }
    let j : Job := jobWith [goingOf twillDesc]
    let c : Cmd := goingOf twillDesc
    let d : TwillD := twillD c.desc
    (s.core g.val).pass = some p ∧ s.goes p.job p.cmd 0x01 .running j c ∧ j.core = g.val ∧ d.raw ∧ (p.rerun = false ∧ p.inject = none) ∧ p.tile.classify = .mismatch ∧ s.drainReady (j.tag s 0) g.val d = true := by decide

theorem met_TwillPassRunsAndDrains_4 :
    let s : State := (live.withJob (jobWith [goingOf twillDesc])).updCore 0 (fun x => { x with pass := some { pass22 with rerun := true } })
    let g : CoreId := 0
    let p : Pass := { pass22 with rerun := true }
    let j : Job := jobWith [goingOf twillDesc]
    let c : Cmd := goingOf twillDesc
    let d : TwillD := twillD c.desc
    (s.core g.val).pass = some p ∧ s.goes p.job p.cmd 0x01 .running j c ∧ j.core = g.val ∧ d.raw ∧ (p.rerun = true ∧ p.inject = none ∧ c.eng.injected = none) ∧ p.tile.classify = .clean ∧ s.drainReady (j.tag s 0) g.val d = true := by decide

theorem met_TwillPassRunsAndDrains_5 :
    let s : State := live.withJob (jobWith [{ goingOf twillDesc with eng := { rerunDue := true } }])
    let g : CoreId := 0
    let j : Job := jobWith [{ goingOf twillDesc with eng := { rerunDue := true } }]
    let i : Nat := 0
    let c : Cmd := { goingOf twillDesc with eng := { rerunDue := true } }
    let a : Nat := 0
    let d : TwillD := twillD c.desc
    (s.core g.val).pass = none ∧ s.yieldDue g.val = false ∧ s.engineCmd g.val (fun c => c.eng.rerunDue) = some (j, i, c) ∧ s.goes j.id i 0x01 .running j c ∧ s.cores.length = 32 ∧ d.cin = false ∧ s.stepsReady (j.tag s 0) g.val d = true ∧ offChunks g.val a := by decide

theorem met_TwillPassRunsAndDrains_6 :
    let s : State := live.withJob (jobWith [{ goingOf twillDesc with eng := { lowDue := true } }])
    let g : CoreId := 0
    let j : Job := jobWith [{ goingOf twillDesc with eng := { lowDue := true } }]
    let i : Nat := 0
    let c : Cmd := { goingOf twillDesc with eng := { lowDue := true } }
    let a : Nat := 0
    let d : TwillD := twillD c.desc
    (s.core g.val).pass = none ∧ s.yieldDue g.val = false ∧ s.engineCmd g.val (fun c => opcodeOf c.desc == 1 && c.eng.lowDue && !c.eng.rerunDue) = some (j, i, c) ∧ s.goes j.id i 0x01 .running j c ∧ s.cores.length = 32 ∧ d.cin = false ∧ s.stepsReady (j.tag s 0) g.val d = true ∧ offChunks g.val a := by decide

theorem met_TwillPassRunsAndDrains_7 :
    let s : State := live.updCore 0 (fun x => { x with pass := some pass22 })
    let g : CoreId := 0
    let n : Nat := 2 ^ 32 + 5
    (s.core g.val).pass.isSome = true := by decide

theorem met_TwillPassRunsAndDrains_8 :
    let s : State := (live.regsSet [(Reg.BT_CARVE 0 0, 0x83000000)]).withJob (jobWith [cmdOf twillDesc])
    let job : Nat := 7
    let idx : Nat := 0
    let j : Job := jobWith [cmdOf twillDesc]
    let c : Cmd := cmdOf twillDesc
    let d : TwillD := twillD c.desc
    s.goes job idx 0x01 .started j c ∧ s.cores.length = 32 ∧ j.core < 32 ∧ d.cin = false ∧ (0 < d.k ∧ 0 < d.bits) ∧ (s.barrier (j.tag s 0) .read (boltAddr j.core d.weft) (min (d.bits * 64) (64 - boltAddr j.core d.weft % 64))).isSome = true := by decide

theorem met_TwillPassRunsAndDrains_9 :
    let s : State := (live.withJob (jobWith [goingOf twillDesc])).updCore 0 (fun x => { x with pass := some { pass22 with rerun := true, tile := { tile22 with corner := 0 } } })
    let g : CoreId := 0
    let p : Pass := { pass22 with rerun := true, tile := { tile22 with corner := 0 } }
    let j : Job := jobWith [goingOf twillDesc]
    let c : Cmd := goingOf twillDesc
    let d : TwillD := twillD c.desc
    (s.core g.val).pass = some p ∧ s.goes p.job p.cmd 0x01 .running j c ∧ j.core = g.val ∧ d.raw ∧ (p.rerun = true ∧ p.inject = none ∧ c.eng.injected = none) ∧ p.tile.classify ≠ .clean ∧ s.drainReady (j.tag s 0) g.val d = true := by decide

theorem met_FeederRuns_1 :
    let s : State := live.withJob (jobWith [cmdOf poolDesc])
    let job : Nat := 7
    let idx : Nat := 0
    let j : Job := jobWith [cmdOf poolDesc]
    let c : Cmd := cmdOf poolDesc
    let st : Nat := 0
    let r : Nat := 0
    let l : Layer := convLayer poolDesc
    let ls : List Layer := s.layersOf j c
    let w : Nat := Reg.WF_STATUS j.core
    s.goes job idx 0x02 .started j c ∧ s.cores.length = 32 ∧ j.core < 32 ∧ (nextRun ls 5 0 0 = some (st, r) ∧ ls[st]? = some l ∧ l.kind ≠ 0) := by decide

theorem met_FeederRuns_2 :
    let s : State := fusedUp
    let job : Nat := 7
    let idx : Nat := 0
    let j : Job := jobWith [cmdOf fusedDesc]
    let c : Cmd := cmdOf fusedDesc
    let st : Nat := 0
    let r : Nat := 0
    let l : Layer := (fusedUp.layersOf (jobWith [cmdOf fusedDesc]) (cmdOf fusedDesc)).headD (convLayer poolDesc)
    let ls : List Layer := s.layersOf j c
    let w : Nat := Reg.WF_STATUS j.core
    s.goes job idx 0x03 .started j c ∧ s.cores.length = 32 ∧ j.core < 32 ∧ (nextRun ls 5 0 0 = some (st, r) ∧ ls[st]? = some l ∧ l.kind ≠ 0) := by decide +kernel

theorem met_FeederRuns_3 :
    let s : State := live.withJob (jobWith [goingOf (poolDesc.set 16 0)])
    let g : CoreId := 0
    let j : Job := jobWith [goingOf (poolDesc.set 16 0)]
    let i : Nat := 0
    let c : Cmd := goingOf (poolDesc.set 16 0)
    let l : Layer := convLayer (poolDesc.set 16 0)
    let faults : List LaneFault := []
    let ls : List Layer := s.layersOf j c
    s.feederCmd g.val = some (j, i, c) ∧ s.goes j.id i (opcodeOf c.desc) .running j c ∧ ls[c.aux]? = some l ∧ l.kind = 0 ∧ nextRun ls 5 c.aux (c.progress + 1) = none := by decide

theorem met_FeederRuns_4 :
    let s : State := live.withJob (jobWith [goingOf poolDesc])
    let g : CoreId := 0
    let j : Job := jobWith [goingOf poolDesc]
    let i : Nat := 0
    let c : Cmd := goingOf poolDesc
    let l : Layer := convLayer poolDesc
    let ls : List Layer := s.layersOf j c
    let n : Option (Nat × Nat) := nextRun ls 5 c.aux (c.progress + 1)
    s.feederCmd g.val = some (j, i, c) ∧ s.goes j.id i (opcodeOf c.desc) .running j c ∧ ls[c.aux]? = some l ∧ l.kind ≠ 0 ∧ n = none := by decide

theorem met_FeederRuns_5 :
    let s : State := live.regsSet [(Reg.WF_STATUS 8, 0x80000000)]
    let g : CoreId := 8
    let n : Nat := 77
    s.bit (Reg.WF_STATUS g.val) 31 = true := by decide

theorem met_FeederRuns_6 :
    let s : State := live.withJob (jobWith [cmdOf (poolDesc.set 40 0)])
    let job : Nat := 7
    let idx : Nat := 0
    let j : Job := jobWith [cmdOf (poolDesc.set 40 0)]
    let c : Cmd := cmdOf (poolDesc.set 40 0)
    s.goes job idx 0x02 .started j c ∧ nextRun (s.layersOf j c) 5 0 0 = none := by decide

theorem met_FeederRuns_7 :
    let s : State := live.withJob (jobWith [cmdOf (desc128 [3])])
    let job : Nat := 7
    let idx : Nat := 0
    let j : Job := jobWith [cmdOf (desc128 [3])]
    let c : Cmd := cmdOf (desc128 [3])
    s.goes job idx 0x03 .started j c ∧ nextRun (s.layersOf j c) 5 0 0 = none := by decide

theorem met_FeederRuns_8 :
    let s : State := (live.withJob (jobWith [cmdOf denseDesc])).poke (boltAddr 0 0) [5, 6, 7]
    let job : Nat := 7
    let idx : Nat := 0
    let j : Job := jobWith [cmdOf denseDesc]
    let c : Cmd := cmdOf denseDesc
    let a : Nat := skeinAddr 0 0x60000
    let l : Layer := convLayer c.desc
    let w : Nat := Reg.WF_STATUS j.core
    s.goes job idx 0x02 .started j c ∧ s.cores.length = 32 ∧ j.core < 32 ∧ (l.kind = 0 ∧ l.cin = false) ∧ 0 < l.nRuns ∧ s.runReady (j.tag s 1) j.core l 0 = true ∧ offChunks j.core a := by decide

theorem met_FeederRuns_9 :
    let s : State := (live.withJob (jobWith [goingOf (denseDesc.set 44 1)])).setPreempt 0 (some { victim := 7, winner := none, since := 0, waits := false })
    let g : CoreId := 0
    let j : Job := jobWith [goingOf (denseDesc.set 44 1)]
    let i : Nat := 0
    let c : Cmd := goingOf (denseDesc.set 44 1)
    let l : Layer := convLayer (denseDesc.set 44 1)
    let faults : List LaneFault := []
    let st : Nat := 0
    let r : Nat := 1
    let ls : List Layer := s.layersOf j c
    s.feederCmd g.val = some (j, i, c) ∧ s.goes j.id i 0x02 .running j c ∧ ls[c.aux]? = some l ∧ l.kind = 0 ∧ nextRun ls 5 c.aux (c.progress + 1) = some (st, r) ∧ (s.yieldDue g.val = true ∨ s.barred j c.desc = true) := by decide

theorem met_FeederRuns_10 :
    let s : State := (live.regsSet [(Reg.BT_CARVE 0 0, 0x83000000)]).withJob (jobWith [cmdOf denseDesc])
    let job : Nat := 7
    let idx : Nat := 0
    let y : Nat := 0
    let a : Nat := 0
    let b : Nat := 1
    let j : Job := jobWith [cmdOf denseDesc]
    let c : Cmd := cmdOf denseDesc
    let l : Layer := convLayer c.desc
    let o : Nat := boltAddr j.core l.inOff + (y - l.storeY0) * l.rowStride + (a - l.storeX0)
    s.goes job idx 0x02 .started j c ∧ s.cores.length = 32 ∧ j.core < 32 ∧ (l.kind = 0 ∧ 0 < l.cIn ∧ 0 < l.nRuns) ∧ (l.needs (l.run 0).1 (l.run 0).2).1.head? = some y ∧ ((l.needs (l.run 0).1 (l.run 0).2).2.head? = some a ∧ (l.needs (l.run 0).1 (l.run 0).2).2.getLast? = some b ∧ a ≤ b) ∧ (s.barrier (j.tag s 1) .read o (min (b + 1 - a) (64 - o % 64))).isSome = true := by decide

theorem met_TidyUnitsStayInside_1 :
    let s : State := live.withJob (jobWith [cmdOf (desc128 [4])])
    let job : Nat := 7
    let idx : Nat := 0
    let a : Nat := 0x4000000000
    let j : Job := jobWith [cmdOf (desc128 [4])]
    let c : Cmd := cmdOf (desc128 [4])
    let faults : List LaneFault := []
    s.goes job idx 0x04 .started j c ∧ s.yieldDue j.core = false ∧ (a < 0x3000000000 ∨ 0x3004000000 + 16 ≤ a) ∧ s.keptByReads a ∧ (∀ m : Fin 2, ∀ k : Fin 16, (s.barrier (j.tag s (2 + m.val)) .write (a - k.val) 1).isSome = true) := by decide

theorem met_TidyUnitsStayInside_2 :
    let s : State := live.withJob (jobWith [cmdOf (desc128 [6])])
    let job : Nat := 7
    let idx : Nat := 0
    let a : Nat := 0x4000000000
    let j : Job := jobWith [cmdOf (desc128 [6])]
    let c : Cmd := cmdOf (desc128 [6])
    let faults : List LaneFault := []
    s.goes job idx 0x06 .started j c ∧ s.yieldDue j.core = false ∧ (a < 0x3000000000 ∨ 0x3004000000 + 16 ≤ a) ∧ s.keptByReads a ∧ (∀ m : Fin 2, ∀ k : Fin 16, (s.barrier (j.tag s (2 + m.val)) .write (a - k.val) 1).isSome = true) := by decide

theorem met_TidyUnitsStayInside_3 :
    let s : State := live.withJob (jobWith [cmdOf (desc128 [5])])
    let job : Nat := 7
    let idx : Nat := 0
    let a : Nat := 0x4000000000
    let j : Job := jobWith [cmdOf (desc128 [5])]
    let c : Cmd := cmdOf (desc128 [5])
    let faults : List PassFault := []
    let lanes : List LaneFault := []
    let d : AttnD := attnD c.desc
    s.goes job idx 0x05 .started j c ∧ (a < 0x3000000000 ∨ 0x3004000000 + 16 ≤ a) ∧ s.keptByReads a ∧ offChunks j.core a ∧ (∀ k : Fin 16, (s.barrier (j.tag s 2) .write (a - k.val) 1).isSome = true) ∧ (a < boltAddr j.core d.scratch ∨ boltAddr j.core d.scratch + d.scratchSize ≤ a) := by decide

theorem met_TidyUnitsStayInside_4 :
    let s : State := (live.withJob (jobWith [cmdOf (desc128 [4])])).setPreempt 0 (some { victim := 7, winner := none, since := 0, waits := false })
    let job : Nat := 7
    let idx : Nat := 0
    let a : Nat := 0x4000000000
    let j : Job := jobWith [cmdOf (desc128 [4])]
    let c : Cmd := cmdOf (desc128 [4])
    let faults : List LaneFault := []
    s.goes job idx 0x04 .started j c ∧ (a < 0x3000000000 ∨ 0x3004000000 + 16 ≤ a) ∧ s.keptByReads a ∧ (∀ m : Fin 2, ∀ k : Fin 16, (s.barrier (j.tag s (2 + m.val)) .write (a - k.val) 1).isSome = true) := by decide

theorem met_TidyUnitsStayInside_5 :
    let s : State := (live.withJob (jobWith [cmdOf (desc128 [6])])).setPreempt 0 (some { victim := 7, winner := none, since := 0, waits := false })
    let job : Nat := 7
    let idx : Nat := 0
    let a : Nat := 0x4000000000
    let j : Job := jobWith [cmdOf (desc128 [6])]
    let c : Cmd := cmdOf (desc128 [6])
    let faults : List LaneFault := []
    s.goes job idx 0x06 .started j c ∧ (a < 0x3000000000 ∨ 0x3004000000 + 16 ≤ a) ∧ s.keptByReads a ∧ (∀ m : Fin 2, ∀ k : Fin 16, (s.barrier (j.tag s (2 + m.val)) .write (a - k.val) 1).isSome = true) := by decide

theorem met_ContextsAndMoves_1 :
    let s : State := live.withJob (jobWith [cmdOf (desc128 ([8] ++ List.replicate 15 0 ++ [0, 0, 16, 0, 8, 0, 0, 0, 9, 0, 0, 0, 2, 0, 0, 0, 0, 0, 0, 0, 16, 0, 0, 0, 0, 16, 0, 0, 2, 0, 0, 0]))])
    let job : Nat := 7
    let idx : Nat := 0
    let n : Nat := 10
    let j : Job := jobWith [cmdOf (desc128 ([8] ++ List.replicate 15 0 ++ [0, 0, 16, 0, 8, 0, 0, 0, 9, 0, 0, 0, 2, 0, 0, 0, 0, 0, 0, 0, 16, 0, 0, 0, 0, 16, 0, 0, 2, 0, 0, 0]))]
    let c : Cmd := cmdOf (desc128 ([8] ++ List.replicate 15 0 ++ [0, 0, 16, 0, 8, 0, 0, 0, 9, 0, 0, 0, 2, 0, 0, 0, 0, 0, 0, 0, 16, 0, 0, 0, 0, 16, 0, 0, 2, 0, 0, 0]))
    let d : List Byte := c.desc
    let w : Nat := le d 18 2
    let len : Nat := le d 20 4
    let e : Nat := (latentBytes (bits (le d 16 1) 3 0)).getD 1
    s.goes job idx 0x08 .started j c ∧ (0 < j.stall ∧ j.stall < 16) ∧ ctxFirst d + ctxCount d ≤ 65536 ∧ n ∈ ctxSet d ∧ s.ctxState n = 0 ∧ (∀ k ∈ ctxSet d, s.ctxState k = 0 → s.canWrite (j.portTag s c) (ctxCreateBase d k + len * slotBytes w e) (tagArrayBytes len) = true) := by decide

theorem met_ContextsAndMoves_2 :
    let s : State := (live.withJob (jobWith [cmdOf (desc128 ([9] ++ List.replicate 15 0 ++ [1, 0, 5, 0, 0, 0, 0, 0, 9, 0, 0, 0, 2]))])).poke (ctxAddr 10) [1, 2, 0, 0, 0, 0, 0, 0, 0, 0, 0, 0, 0, 0, 5]
    let job : Nat := 7
    let idx : Nat := 0
    let n : Nat := 10
    let j : Job := jobWith [cmdOf (desc128 ([9] ++ List.replicate 15 0 ++ [1, 0, 5, 0, 0, 0, 0, 0, 9, 0, 0, 0, 2]))]
    let c : Cmd := cmdOf (desc128 ([9] ++ List.replicate 15 0 ++ [1, 0, 5, 0, 0, 0, 0, 0, 9, 0, 0, 0, 2]))
    let d : List Byte := c.desc
    let gf : Nat := le d 18 2
    s.goes job idx 0x09 .started j c ∧ bits (le d 16 1) 1 0 = 1 ∧ (n ∈ ctxSet d ∧ s.ctxState n ≠ 0 ∧ (s.ctx n).gen = gf) := by decide

theorem met_ContextsAndMoves_3 :
    let s : State := (live.withJob (jobWith [cmdOf (desc128 ([7] ++ List.replicate 15 0 ++ [0, 0, 16, 0, 1, 0, 0, 0, 9, 0, 0, 0, 3, 0, 0, 0, 0, 1, 0, 0, 64]))])).poke (ctxAddr 9) [1, 2, 16, 0, 8, 0, 0, 0, 0, 0, 0x20, 0, 0x10]
    let job : Nat := 7
    let idx : Nat := 0
    let j : Job := jobWith [cmdOf (desc128 ([7] ++ List.replicate 15 0 ++ [0, 0, 16, 0, 1, 0, 0, 0, 9, 0, 0, 0, 3, 0, 0, 0, 0, 1, 0, 0, 64]))]
    let c : Cmd := cmdOf (desc128 ([7] ++ List.replicate 15 0 ++ [0, 0, 16, 0, 1, 0, 0, 0, 9, 0, 0, 0, 3, 0, 0, 0, 0, 1, 0, 0, 64]))
    let x : Token := ⟨0, 9, 3⟩
    let d : List Byte := c.desc
    let tag : Tag := j.portTag s c
    let r : CtxRec := s.ctx x.ctx
    let k : Nat := x.pos % r.maxLen
    let base : Nat := boltAddr j.core (le d 32 4 % 2 ^ 22)
    let n : Nat := r.latentW * r.e
    let p : Prov := provOf (s.peek (selvageAt base (le d 20 4 * le d 36 4)) 32)
    s.goes job idx 0x07 .started j c ∧ s.kvTokens j.core d = [x] ∧ r.wrap = false ∧ 0 < r.maxLen ∧ x.pos + 1 < 2 ^ 32 ∧ r.base + r.maxLen * r.slot + 8 * r.maxLen ≤ ctxAddr 0 ∧ s.canRead true tag (kvListAt j.core d).1 (kvListAt j.core d).2 = true ∧ s.canRead true tag (base + x.k * le d 36 4) n = true ∧ (s.canWrite tag (r.tagAddr k) 4 = true ∧ s.canWrite tag (r.tagAddr k) 8 = true ∧ s.canWrite tag (r.slotAddr k) n = true) := by decide

theorem met_ContextsAndMoves_4 :
    let s : State := (live.withJob (jobWith [cmdOf (moveDesc 0 1 8 0 0)])).poke (boltAddr 0 0) [1, 2, 3]
    let job : Nat := 7
    let idx : Nat := 0
    let a : Nat := boltAddr 0 0x108
    let j : Job := jobWith [cmdOf (moveDesc 0 1 8 0 0)]
    let c : Cmd := cmdOf (moveDesc 0 1 8 0 0)
    let g : CoreId := 0
    let m : MoveD := moveD c.desc
    let tag : Tag := j.portTag s c
    let cnt : Nat := Reg.MEM_PORT_BYTES j.core (b2n c.second)
    s.goes job idx 0x0A .started j c ∧ (m.mode = 0 ∧ m.decrypt = false) ∧ (c.progress = 0 ∧ s.yieldDue j.core = false) ∧ s.movePayloadOk m = true ∧ m.src + m.rowBytes ≤ 0x3000000000 ∧ (m.dst + m.rowBytes ≤ 0x1000000000 ∨ (boltAddr g.val 0 ≤ m.dst ∧ m.dst + m.rowBytes ≤ boltAddr g.val 0 + 0x400000)) ∧ j.core < 32 ∧ s.canRead true tag m.src m.rowBytes = true ∧ s.canWrite tag m.dst m.rowBytes = true ∧ (a < m.dst ∨ m.dst + m.rowBytes ≤ a) := by decide

theorem met_ContextsAndMoves_5 :
    let s : State := (live.withJob (jobWith [cmdOf (moveDesc 1 3 4 6 8)])).poke (boltAddr 0 0) [1, 2, 3, 4, 5, 6, 7, 8, 9, 10, 11, 12, 13, 14, 15, 16]
    let job : Nat := 7
    let idx : Nat := 0
    let r : Nat := 2
    let j : Job := jobWith [cmdOf (moveDesc 1 3 4 6 8)]
    let c : Cmd := cmdOf (moveDesc 1 3 4 6 8)
    let g : CoreId := 0
    let m : MoveD := moveD c.desc
    let tag : Tag := j.portTag s c
    s.goes job idx 0x0A .started j c ∧ (m.mode = 1 ∧ m.decrypt = false) ∧ (c.progress = 0 ∧ s.yieldDue j.core = false) ∧ s.movePayloadOk m = true ∧ m.src + m.rows * m.srcStride + m.rowBytes ≤ 0x3000000000 ∧ (m.dst + m.rows * m.dstStride ≤ 0x1000000000 ∨ (boltAddr g.val 0 ≤ m.dst ∧ m.dst + m.rows * m.dstStride ≤ boltAddr g.val 0 + 0x400000)) ∧ m.rowBytes ≤ m.dstStride ∧ (∀ k < m.rows, s.canRead true tag (m.src + k * m.srcStride) m.rowBytes = true ∧ s.canWrite tag (m.dst + k * m.dstStride) m.rowBytes = true) ∧ r < m.rows := by decide

theorem met_ContextsAndMoves_6 :
    let s : State := (live.withJob (jobWith [cmdOf (moveDesc 6 3 4 6 8)])).poke (boltAddr 0 0) [1, 2, 3, 4, 5, 6, 7, 8, 9, 10, 11, 12, 13, 14, 15, 16]
    let job : Nat := 7
    let idx : Nat := 0
    let i : Nat := 2
    let r : Nat := 1
    let j : Job := jobWith [cmdOf (moveDesc 6 3 4 6 8)]
    let c : Cmd := cmdOf (moveDesc 6 3 4 6 8)
    let g : CoreId := 0
    let m : MoveD := moveD c.desc
    let tag : Tag := j.portTag s c
    s.goes job idx 0x0A .started j c ∧ (m.mode = 2 ∧ m.decrypt = false) ∧ (c.progress = 0 ∧ s.yieldDue j.core = false) ∧ s.movePayloadOk m = true ∧ m.src + m.rows * m.srcStride + m.rowBytes ≤ 0x3000000000 ∧ (m.dst + m.c * m.dstStride ≤ 0x1000000000 ∨ (boltAddr g.val 0 ≤ m.dst ∧ m.dst + m.c * m.dstStride ≤ boltAddr g.val 0 + 0x400000)) ∧ m.rows * m.e ≤ m.dstStride ∧ (∀ k < m.rows, s.canRead true tag (m.src + k * m.srcStride) m.rowBytes = true) ∧ (∀ k < m.c, s.canWrite tag (m.dst + k * m.dstStride) (m.rows * m.e) = true) ∧ (i < m.rows ∧ r < m.c) := by decide

theorem met_ContextsAndMoves_7 :
    let s : State := (live.regsSet [(Reg.FW_STATUS, 0x7F)]).withJob (jobWith [cmdOf (moveDesc 16 1 8 0 0)])
    let job : Nat := 7
    let idx : Nat := 0
    let j : Job := jobWith [cmdOf (moveDesc 16 1 8 0 0)]
    let c : Cmd := cmdOf (moveDesc 16 1 8 0 0)
    let m : MoveD := moveD c.desc
    s.goes job idx 0x0A .started j c ∧ m.decrypt = true ∧ s.securityUp = true ∧ j.stall < 16 ∧ s.dkeyServes m.key j.stall = false := by decide

theorem met_ContextsAndMoves_8 :
    let s : State := (live.regsSet [(Reg.BIL_PORT_CTRL 1, 0xC4010000)]).withJob (jobWith [cmdOf ((moveDesc 0 1 8 0 0).set 44 0x90)])
    let job : Nat := 7
    let idx : Nat := 0
    let dev : Nat := 1
    let o : Nat := 0x1000000100 % 0x1000000000
    let p : Nat := 1
    let j : Job := jobWith [cmdOf ((moveDesc 0 1 8 0 0).set 44 0x90)]
    let c : Cmd := cmdOf ((moveDesc 0 1 8 0 0).set 44 0x90)
    let m : MoveD := moveD c.desc
    s.goes job idx 0x0A .started j c ∧ (m.mode = 0 ∧ m.decrypt = false ∧ m.selvage = 0) ∧ regionOf m.dst = .remote dev o ∧ (dev ≠ s.board.devnum ∧ 0 < m.rowBytes ∧ o + m.rowBytes ≤ 0xFE0000000) ∧ s.portTo dev = some p ∧ s.canRead true (j.portTag s c) m.src m.rowBytes = true ∧ m.src + m.rowBytes ≤ 0x3000000000 := by decide

theorem met_ContextsAndMoves_9 :
    let s : State := (live.withJob (jobWith [cmdOf (desc128 ([8] ++ List.replicate 15 0 ++ [0, 0, 16, 0, 8, 0, 0, 0, 9, 0, 0, 0, 2, 0, 0, 0, 0, 0, 0, 0, 16, 0, 0, 0, 0, 16, 0, 0, 2, 0, 0, 0]))])).poke (ctxAddr 10) [1, 2]
    let job : Nat := 7
    let idx : Nat := 0
    let n : Nat := 10
    let j : Job := jobWith [cmdOf (desc128 ([8] ++ List.replicate 15 0 ++ [0, 0, 16, 0, 8, 0, 0, 0, 9, 0, 0, 0, 2, 0, 0, 0, 0, 0, 0, 0, 16, 0, 0, 0, 0, 16, 0, 0, 2, 0, 0, 0]))]
    let c : Cmd := cmdOf (desc128 ([8] ++ List.replicate 15 0 ++ [0, 0, 16, 0, 8, 0, 0, 0, 9, 0, 0, 0, 2, 0, 0, 0, 0, 0, 0, 0, 16, 0, 0, 0, 0, 16, 0, 0, 2, 0, 0, 0]))
    let d : List Byte := c.desc
    s.goes job idx 0x08 .started j c ∧ (0 < j.stall ∧ j.stall < 16) ∧ n < 65536 ∧ n ∈ ctxSet d ∧ s.ctxState n ≠ 0 := by decide

theorem met_ContextsAndMoves_10 :
    let s : State := (live.withJob (jobWith [cmdOf (desc128 ([9] ++ List.replicate 15 0 ++ [1, 0, 5, 0, 0, 0, 0, 0, 9, 0, 0, 0, 2]))])).poke (ctxAddr 10) [1, 2, 0, 0, 0, 0, 0, 0, 0, 0, 0, 0, 0, 0, 6]
    let job : Nat := 7
    let idx : Nat := 0
    let n : Nat := 10
    let a : Nat := 0
    let j : Job := jobWith [cmdOf (desc128 ([9] ++ List.replicate 15 0 ++ [1, 0, 5, 0, 0, 0, 0, 0, 9, 0, 0, 0, 2]))]
    let c : Cmd := cmdOf (desc128 ([9] ++ List.replicate 15 0 ++ [1, 0, 5, 0, 0, 0, 0, 0, 9, 0, 0, 0, 2]))
    let d : List Byte := c.desc
    let gf : Nat := le d 18 2
    s.goes job idx 0x09 .started j c ∧ bits (le d 16 1) 1 0 = 1 ∧ (n ∈ ctxSet d ∧ (s.ctxState n = 0 ∨ (s.ctx n).gen ≠ gf)) ∧ (∀ k ∈ ctxSet d, a < ctxAddr k ∨ ctxAddr k + 32 ≤ a) := by decide

theorem met_ContextsAndMoves_11 :
    let s : State := (live.withJob (jobWith [cmdOf (desc128 ([9] ++ List.replicate 15 0 ++ [0, 0, 5, 0, 0, 0, 0, 0, 9, 0, 0, 0, 2]))])).poke (ctxAddr 10) [1, 2, 16, 0, 8, 0, 0, 0, 0, 0, 0x20, 0, 0x10, 0, 5, 0, 3]
    let job : Nat := 7
    let idx : Nat := 0
    let n : Nat := 10
    let j : Job := jobWith [cmdOf (desc128 ([9] ++ List.replicate 15 0 ++ [0, 0, 5, 0, 0, 0, 0, 0, 9, 0, 0, 0, 2]))]
    let c : Cmd := cmdOf (desc128 ([9] ++ List.replicate 15 0 ++ [0, 0, 5, 0, 0, 0, 0, 0, 9, 0, 0, 0, 2]))
    let d : List Byte := c.desc
    let gf : Nat := le d 18 2
    s.goes job idx 0x09 .started j c ∧ bits (le d 16 1) 1 0 = 0 ∧ (0 < j.stall ∧ j.stall < 16) ∧ ctxFirst d + ctxCount d ≤ 65536 ∧ (n ∈ ctxSet d ∧ s.ctxState n ≠ 0 ∧ (s.ctx n).gen = gf) ∧ (∀ k ∈ ctxSet d, s.canWrite (j.portTag s c) ((s.ctx k).base + (s.ctx k).maxLen * slotBytes (s.ctx k).latentW (s.ctx k).e) (tagArrayBytes (s.ctx k).maxLen) = true) := by decide

theorem met_ContextsAndMoves_12 :
    let s : State := ((live.withJob (jobWith [cmdOf (moveDesc 0 1 8 0 0)])).poke (boltAddr 0 0) [1, 2, 3]).setPreempt 0 (some { victim := 7, winner := none, since := 0, waits := false })
    let job : Nat := 7
    let idx : Nat := 0
    let a : Nat := boltAddr 0 0x108
    let j : Job := jobWith [cmdOf (moveDesc 0 1 8 0 0)]
    let c : Cmd := cmdOf (moveDesc 0 1 8 0 0)
    let g : CoreId := 0
    let m : MoveD := moveD c.desc
    s.goes job idx 0x0A .started j c ∧ (m.mode = 0 ∧ m.decrypt = false) ∧ (m.dst + m.rowBytes ≤ 0x1000000000 ∨ (boltAddr g.val 0 ≤ m.dst ∧ m.dst + m.rowBytes ≤ boltAddr g.val 0 + 0x400000)) ∧ m.src + m.rowBytes ≤ 0x3000000000 ∧ (a < m.dst ∨ m.dst + m.rowBytes ≤ a) ∧ s.keptByReads a := by decide

theorem met_SessionsAndRequests_1 :
    let s : State := live.regsSet [(Reg.BAR_HOST 0, 0x80000009), (Reg.BAR_HOST_ADDR 0, 0x0A000001)]
    let p : PortId := 0
    let a : HostAddr := ⟨false, 0x0A000001⟩
    let body : List Byte := [1, 1, 3, 0, 4, 0, 0, 0, 0, 0, 0, 0, 0, 0, 0, 9]
    let h : Nat := 0
    let k : Nat := 0
    let v : Nat := min (be body 1 1) (s.fld Reg.BAR_VERSION 15 8)
    let n : Nat := s.freeNum 9 s.bar.nextNum
    let st : Nat := be body 2 1
    (16 ≤ body.length ∧ st < 16 ∧ be body 3 1 = 0 ∧ be body 6 2 = 0) ∧ (256 ≤ be body 4 2 ∧ be body 4 2 ≤ 8192 ∧ be body 4 2 % 64 = 0) ∧ (s.sessions.find? fun x => x.addr == a && x.nonce == be body 8 8) = none ∧ s.hostEntry p.val a = some h ∧ (s.bit (Reg.BAR_HOST h) st = true ∧ (p.val = 2 → s.bit (Reg.BAR_HOST h) 28 = true)) ∧ (be body 0 1 ≤ v ∧ s.fld Reg.BAR_VERSION 7 0 ≤ v) ∧ s.bar.slots.findIdx? (·.isNone) = some k := by decide

theorem met_SessionsAndRequests_2 :
    let s : State := live
    let p : PortId := 0
    let a : HostAddr := ⟨false, 0x0A000001⟩
    let body : List Byte := []
    (s.sessions.find? fun x => x.addr == a && x.nonce == be body 8 8) = none ∧ (body.length < 16 ∨ s.hostEntry p.val a = none ∨ s.bar.slots.all (·.isSome) = true) := by decide

theorem met_SessionsAndRequests_3 :
    let s : State := { live.withSession { sess5 with claim := some ⟨3, 50, 9⟩ } with refNs := 700 }
    let n : BitVec 16 := 5
    let q : Word := 1
    let body : List Byte := []
    let x : Session := { sess5 with claim := some ⟨3, 50, 9⟩ }
    s.hears n q x := by decide

theorem met_SessionsAndRequests_4 :
    let s : State := live.withSession { sess5 with expect := 3, resps := [(2, some [1])] }
    let n : BitVec 16 := 5
    let q : Word := 2
    let body : List Byte := []
    let x : Session := { sess5 with expect := 3, resps := [(2, some [1])] }
    s.session? n.toNat = some x ∧ (q.toNat < x.expect ∧ x.expect ≤ q.toNat + 64 ∧ 1 ≤ q.toNat) := by decide

theorem met_SessionsAndRequests_5 :
    let s : State := live
    let n : BitVec 16 := 5
    let q : Word := 2
    let body : List Byte := []
    s.session? n.toNat = none := by decide

theorem met_SessionsAndRequests_6 :
    let s : State := live.withSession sess5
    let n : BitVec 16 := 5
    let q : Word := 1
    let body : List Byte := [1, 2]
    let x : Session := sess5
    s.hears n q x := by decide

theorem met_SessionsAndRequests_7 :
    let s : State := live.withSession sess5
    let n : BitVec 16 := 5
    let q : Word := 1
    let body : List Byte := [0, 0, 0, 0x30, 0, 0x40, 0, 0x34, 0, 1, 0, 0]
    let x : Session := sess5
    let off : Nat := 0x400034
    s.hears n q x ∧ regBodyBad body false = none ∧ (be body 8 2 = 1 ∧ be body 0 8 = 0x3000000000 + off) ∧ off / 0x100000 ≠ 13 ∧ s.regDeny (s.sessionTag x) x.num off none = none := by decide

theorem met_SessionsAndRequests_8 :
    let s : State := live.withSession sess5
    let n : BitVec 16 := 5
    let q : Word := 1
    let body : List Byte := [0, 0, 0, 0x30, 0, 0x40, 0, 0x34, 0, 1, 0, 0, 0, 0, 0, 7]
    let x : Session := sess5
    s.hears n q x ∧ s.bar.owner ≠ some x.num := by decide

theorem met_SessionsAndRequests_9 :
    let s : State := { live.withSession { sess5 with reqs := [⟨1, 1, [], 1, 0, .entry 3, 2⟩] } with refNs := 60000000 }
    let n : BitVec 16 := 5
    let x : Session := { sess5 with reqs := [⟨1, 1, [], 1, 0, .entry 3, 2⟩] }
    let r : Req := ⟨1, 1, [], 1, 0, .entry 3, 2⟩
    s.session? n.toNat = some x ∧ x.reqs.head? = some r ∧ r.at_ + s.fld Reg.BAR_RTO 15 0 * 1000 ≤ s.refNs ∧ (∀ q ∈ x.reqs, q.sends ≤ s.fld Reg.BAR_RTO 19 16) := by decide

theorem met_SessionsAndRequests_10 :
    let s : State := { live.withSession sess5 with refNs := 600000000000 }
    let n : BitVec 16 := 5
    let x : Session := sess5
    let w : Fin 256 := 3
    s.session? n.toNat = some x ∧ x.last + s.fld Reg.BAR_IDLE 15 0 * 1000000 ≤ s.refNs ∧ s.bar.owner ≠ some n.toNat := by decide

theorem met_SessionsAndRequests_11 :
    let s : State := live.withSession { sess5 with reqs := [⟨1, 1, [], 1, 0, .entry 3, 2⟩], nextSeq := 2 }
    let n : BitVec 16 := 5
    let q : Word := 1
    let body : List Byte := List.replicate 64 0
    let r : Req := ⟨1, 1, [], 1, 0, .entry 3, 2⟩
    s.req? n.toNat q.toNat = some r ∧ (∀ x ∈ s.sessions, x.num = n.toNat → q.toNat < x.nextSeq) ∧ (match r.why with | .entry _ => decide (body.length = 64) | .completion _ => true) = true := by decide

theorem met_SessionsAndRequests_12 :
    let s : State := live.withSession { sess5 with reqs := [⟨1, 1, [], 1, 0, .completion 3, 2⟩], nextSeq := 2 }
    let n : BitVec 16 := 5
    let q : Word := 1
    let body : List Byte := [4]
    let r : Req := ⟨1, 1, [], 1, 0, .completion 3, 2⟩
    let k : Fin 64 := 3
    s.req? n.toNat q.toNat = some r ∧ (be body 0 1 = 4 ∨ be body 0 1 = 6) ∧ s.cmd.rings.length = 64 ∧ r.why = .completion k.val := by decide

theorem met_SessionsAndRequests_13 :
    let s : State := live.withSession sess5
    let n : BitVec 16 := 5
    let q : Word := 1
    let body : List Byte := [0, 0, 0, 0x30, 0, 0x4F, 0xFF, 0xF0, 0, 1, 0, 0]
    let x : Session := sess5
    let off : Nat := 0x4FFFF0
    s.hears n q x ∧ regBodyBad body false = none ∧ (be body 8 2 = 1 ∧ be body 0 8 = 0x3000000000 + off) ∧ off / 0x100000 ≠ 13 ∧ (s.regDeny (s.sessionTag x) x.num off none).isSome = true := by decide

theorem met_SessionsAndRequests_14 :
    let s : State := ownerUp.updSession 5 (fun x => { x with stall := 0 })
    let n : BitVec 16 := 5
    let q : Word := 1
    let body : List Byte := beBytes 8 (0x3000000000 + Reg.TAL_HIST_RD) ++ [0, 1, 0, 0, 0, 0, 0, 7]
    let x : Session := { sess5 with stall := 0 }
    s.hears n q x ∧ s.bar.owner = some x.num ∧ regBodyBad body true = none ∧ (be body 8 2 = 1 ∧ be body 0 8 = 0x3000000000 + Reg.TAL_HIST_RD) ∧ s.regDeny (s.sessionTag x) x.num Reg.TAL_HIST_RD (some (BitVec.ofNat 32 (be body 12 4))) = none := by decide

theorem met_SessionsAndRequests_15 :
    let s : State := ownerUp
    let n : BitVec 16 := 5
    let q : Word := 1
    let body : List Byte := [1]
    let x : Session := sess5
    s.hears n q x ∧ s.bar.owner = some x.num ∧ (regBodyBad body true).isSome = true := by decide

theorem met_SessionsAndRequests_16 :
    let s : State := { ownerUp with refNs := 600000000000 }
    let n : BitVec 16 := 5
    let x : Session := sess5
    let w : Fin 256 := 3
    s.session? n.toNat = some x ∧ x.last + s.fld Reg.BAR_IDLE 15 0 * 1000000 ≤ s.refNs ∧ s.bar.owner = some n.toNat := by decide

theorem met_OwnershipAndWindows_1 :
    let s : State := (live.regsSet [(Reg.BAR_HOST 1, 0xA0050008)]).withSession sess5
    let n : BitVec 16 := 5
    let q : Word := 1
    let body : List Byte := [7, 0, 0, 50]
    let x : Session := sess5
    let lease : Nat := be body 2 2
    let h : Nat := Reg.BAR_HOST x.host
    s.hears n q x ∧ (4 ≤ body.length ∧ be body 1 1 = 0) ∧ (10 ≤ lease ∧ lease ≤ 1000) ∧ (s.bit h 29 = true ∧ s.fld h 23 16 ≤ be body 0 1) := by decide

theorem met_OwnershipAndWindows_2 :
    let s : State := live.withSession sess5
    let n : BitVec 16 := 5
    let q : Word := 1
    let body : List Byte := [7, 0, 0, 9]
    let x : Session := sess5
    s.hears n q x ∧ (4 ≤ body.length ∧ be body 1 1 = 0) ∧ (be body 2 2 < 10 ∨ 1000 < be body 2 2 ∨ s.bit (Reg.BAR_HOST x.host) 29 = false) := by decide

theorem met_OwnershipAndWindows_3 :
    let s : State := { (live.withSession { sess5 with claim := some ⟨1, 50, 900⟩ }).updBar (fun b => { b with elect := some 100 }) with refNs := 100 }
    let d : Nat := 100
    let n : Nat := 5
    let r : Fin 64 := 63
    s.bar.elect = some d ∧ d ≤ s.refNs ∧ s.firstCandidate = some n := by decide

theorem met_OwnershipAndWindows_4 :
    let s : State := { live.updBar (fun b => { b with elect := some 100 }) with refNs := 100 }
    let d : Nat := 100
    s.bar.elect = some d ∧ d ≤ s.refNs ∧ s.firstCandidate = none := by decide

theorem met_OwnershipAndWindows_5 :
    let s : State := (live.withSession sess5).updBar (fun b => { b with owner := some 5 })
    let n : BitVec 16 := 5
    let q : Word := 1
    let body : List Byte := [0, 0]
    let x : Session := sess5
    let r : Fin 64 := 0
    s.hears n q x ∧ (2 ≤ body.length ∧ be body 0 2 = 0) ∧ s.bar.owner = some x.num := by decide

theorem met_OwnershipAndWindows_6 :
    let s : State := live.withSession { sess5 with claim := some ⟨1, 50, 900⟩ }
    let n : BitVec 16 := 5
    let q : Word := 1
    let body : List Byte := [0, 9]
    let x : Session := { sess5 with claim := some ⟨1, 50, 900⟩ }
    s.hears n q x ∧ 2 ≤ body.length ∧ s.bar.owner ≠ some x.num := by decide

theorem met_OwnershipAndWindows_7 :
    let s : State := { (live.withSession { sess5 with claim := some ⟨1, 50, 900⟩ }).updBar (fun b => { b with owner := some 5 }) with refNs := 900 }
    let n : BitVec 16 := 5
    let x : Session := { sess5 with claim := some ⟨1, 50, 900⟩ }
    let c : Claim := ⟨1, 50, 900⟩
    s.session? n.toNat = some x ∧ x.claim = some c ∧ c.due ≤ s.refNs ∧ s.bar.owner = some n.toNat := by decide

theorem met_OwnershipAndWindows_8 :
    let s : State := (live.withSession sess5).updBar (fun b => { b with owner := some 5 })
    let t : Tag := tag0
    let m : BitVec 16 := 5
    let w : BitVec 8 := 200
    let v : Word := 0x3000000#32
    let n : Nat := 5
    let r : Nat := Reg.BAR_WIN w.toNat
    s.grants t m.toNat r (v ||| 0x40000000#32) ∧ s.bit r 31 = false ∧ s.bar.owner = some n := by decide

theorem met_OwnershipAndWindows_9 :
    let s : State := ((live.withSession { sess5 with reqs := [⟨1, 1, [], 1, 0, .entry 3, 200⟩] }).regsSet [(Reg.BAR_WIN 200, 0x83000005)]).updBar (fun b => { b with owner := some 5 })
    let t : Tag := tag0
    let m : BitVec 16 := 5
    let w : BitVec 8 := 200
    let v : Word := 0#32
    let r : Nat := Reg.BAR_WIN w.toNat
    s.grants t m.toNat r (v ||| 0x20000000#32) ∧ s.bit r 31 = true := by decide

theorem met_OwnershipAndWindows_10 :
    let s : State := ((live.withSession sess5).updBar (fun b => { b with owner := some 5 })).withJob { jobWith [] with phase := .accepted, listDev := false, list := 2 * 2 ^ 56 }
    let t : Tag := tag0
    let m : BitVec 16 := 5
    let v : Word := 0#32
    s.grants t m.toNat Reg.BAR_OWNER (v ||| 0x40000000#32) := by decide

theorem met_OwnershipAndWindows_11 :
    let s : State := { live.withSession { sess5 with claim := some ⟨1, 50, 900⟩ } with refNs := 900 }
    let n : BitVec 16 := 5
    let x : Session := { sess5 with claim := some ⟨1, 50, 900⟩ }
    let c : Claim := ⟨1, 50, 900⟩
    s.session? n.toNat = some x ∧ x.claim = some c ∧ c.due ≤ s.refNs ∧ s.bar.owner ≠ some n.toNat := by decide

theorem met_EntriesAreAccepted_1 :
    let s : State := live.withSession sess5
    let n : BitVec 16 := 5
    let q : Word := 1
    let r : RingId := 3
    let e : BitVec 64 := 9
    let x : Session := sess5
    s.hears n q x ∧ s.bar.owner ≠ some x.num := by decide

theorem met_EntriesAreAccepted_2 :
    let s : State := ownerUp
    let n : BitVec 16 := 5
    let q : Word := 1
    let r : RingId := 3
    let e : BitVec 64 := 9
    let x : Session := sess5
    s.hears n q x ∧ s.bar.owner = some x.num ∧ s.schedUp = true ∧ e.toNat ≤ s.accepted r.val := by decide

theorem met_EntriesAreAccepted_3 :
    let s : State := ownerUp
    let n : BitVec 16 := 5
    let q : Word := 1
    let r : RingId := 3
    let e : BitVec 64 := 10
    let x : Session := sess5
    s.hears n q x ∧ s.bar.owner = some x.num ∧ s.schedUp = true ∧ s.accepted r.val < e.toNat ∧ (s.published r.val + s.ringSize r.val < e.toNat ∨ s.ringOpen r.val = false) := by decide

theorem met_EntriesAreAccepted_3b :
    let s : State := ownerUp
    let n : BitVec 16 := 5
    let q : Word := 1
    let r : RingId := 4
    let e : BitVec 64 := 10
    let x : Session := sess5
    s.hears n q x ∧ s.bar.owner = some x.num ∧ s.schedUp = true ∧ s.accepted r.val < e.toNat ∧ (s.published r.val + s.ringSize r.val < e.toNat ∨ s.ringOpen r.val = false) := by decide

theorem met_EntriesAreAccepted_4 :
    let s : State := ringUp
    let n : BitVec 16 := 5
    let q : Word := 1
    let r : RingId := 3
    let e : BitVec 64 := 10
    let x : Session := sess5
    let y : Nat := 5
    let base : Nat := s.rd64 (Reg.CMD_RING_BASE r.val)
    let off : Nat := refOff base + s.accepted r.val % s.ringSize r.val * 64
    s.hears n q x ∧ s.bar.owner = some x.num ∧ s.schedUp = true ∧ (s.accepted r.val < e.toNat ∧ e.toNat ≤ s.published r.val + s.ringSize r.val) ∧ s.ringOpen r.val = true ∧ s.cmd.rings.length = 64 ∧ ((s.ring r.val).fetch = .idle ∧ s.fetchPaused = false ∧ s.cmd.replayLeft.any (fun z => z.1 == r.val) = false) ∧ (refReserved base = 0 ∧ s.winRead (refWin base) off 64 = some y ∧ s.roomFor y 1 = true) := by decide

theorem met_EntriesAreAccepted_5 :
    let s : State := ownerUp.setBit Reg.FW_STATUS 2 false
    let n : BitVec 16 := 5
    let q : Word := 1
    let r : RingId := 3
    let e : BitVec 64 := 9
    let x : Session := sess5
    s.hears n q x ∧ s.bar.owner = some x.num ∧ s.schedUp = false ∧ s.cmd.rings.length = 64 := by decide

theorem met_EntriesAreAccepted_6 :
    let s : State := ringUp.updRing 3 (fun z => { z with fetch := .reading false })
    let r : RingId := 3
    let d : List Byte := sealed9
    let second : Bool := false
    s.schedUp = true ∧ (s.ring r.val).fetch = .reading second ∧ (le d 0 8 = s.accepted r.val ∧ le d 60 4 = (crc32c (slice d 0 60)).toNat) := by decide +kernel

theorem met_EntriesAreAccepted_7 :
    let s : State := ringUp.updRing 3 (fun z => { z with fetch := .waiting 0 })
    let r : RingId := 3
    let d : Nat := 0
    let y : Nat := 5
    let base : Nat := s.rd64 (Reg.CMD_RING_BASE r.val)
    let off : Nat := refOff base + s.accepted r.val % s.ringSize r.val * 64
    s.schedUp = true ∧ ((s.ring r.val).fetch = .waiting d ∧ d ≤ s.refNs) ∧ (refReserved base = 0 ∧ s.winRead (refWin base) off 64 = some y ∧ s.roomFor y 1 = true) := by decide

theorem met_EntriesAreAccepted_8 :
    let s : State := ringUp.updRing 3 (fun z => { z with fetch := .journalling entry9 none })
    let r : RingId := 3
    let d : List Byte := entry9
    let st : Option Nat := none
    let acc : Nat := s.accepted r.val
    let stall : Nat := s.ringStall r.val
    let e : List Byte := leBytes 8 acc ++ d.drop 8
    (s.ring r.val).fetch = .journalling d st ∧ (s.schedUp = true ∧ s.journalOk = true) ∧ acc + 1 < 2 ^ 64 := by decide

theorem met_EntriesAreAccepted_9 :
    let s : State := ringUp
    let t : Tag := tag0
    let r : RingId := 3
    let v : Word := 0x800D0200#32
    let c : Nat := Reg.CMD_RING_CTRL r.val
    s.grants t 0 c v ∧ v.getLsbD 31 = true ∧ (s.rd64 (Reg.CMD_RING_BASE r.val) ≠ 0 ∧ s.rd64 (Reg.CMD_RING_COMP r.val) ≠ 0) := by decide

theorem met_EntriesAreAccepted_9b :
    let s : State := ringUp.regsSet [(Reg.CMD_RING_CTRL 3, 0)]
    let t : Tag := tag0
    let r : RingId := 3
    let v : Word := 0x80040200#32
    let c : Nat := Reg.CMD_RING_CTRL r.val
    s.grants t 0 c v ∧ v.getLsbD 31 = true ∧ (s.rd64 (Reg.CMD_RING_BASE r.val) ≠ 0 ∧ s.rd64 (Reg.CMD_RING_COMP r.val) ≠ 0) := by decide

theorem met_EntriesAreAccepted_10 :
    let s : State := ringUp
    let t : Tag := tag0
    let r : RingId := 3
    let v : Word := 0x00040200#32
    let c : Nat := Reg.CMD_RING_CTRL r.val
    s.grants t 0 c v ∧ v.getLsbD 31 = false ∧ s.cmd.rings.length = 64 := by decide

theorem met_EntriesAreAccepted_11 :
    let s : State := ringUp.regsSet [(Reg.CMD_RING_CTRL 3, 0)]
    let t : Tag := tag0
    let r : RingId := 3
    let high : Bool := true
    let v : Word := 77#32
    let c : Nat := Reg.CMD_RING_CTRL r.val
    let q : Nat := Reg.CMD_RING_SEQ r.val
    let p : Nat := Reg.CMD_RING_PUB r.val
    s.grants t 0 (q + if high then 4 else 0) v ∧ (s.bit c 31 = false ∧ s.accepted r.val = s.published r.val) := by decide

theorem met_EntriesAreAccepted_12 :
    let s : State := ringUp
    let t : Tag := tag0
    let r : RingId := 3
    let high : Bool := false
    let v : Word := 77#32
    let q : Nat := Reg.CMD_RING_SEQ r.val
    s.grants t 0 (q + if high then 4 else 0) v ∧ (s.bit (Reg.CMD_RING_CTRL r.val) 31 = true ∨ s.accepted r.val ≠ s.published r.val) := by decide

theorem met_EntriesAreAccepted_13 :
    let s : State := ringUp.updRing 3 (fun z => { z with fetch := .reading false })
    let r : RingId := 3
    let d : List Byte := [8]
    s.schedUp = true ∧ (s.ring r.val).fetch = .reading false ∧ (le d 0 8 ≠ s.accepted r.val ∨ le d 60 4 ≠ (crc32c (slice d 0 60)).toNat) := by decide

theorem met_EntriesAreAccepted_13b :
    let s : State := ringUp.updRing 3 (fun z => { z with fetch := .reading false })
    let r : RingId := 3
    let d : List Byte := entry9
    s.schedUp = true ∧ (s.ring r.val).fetch = .reading false ∧ (le d 0 8 ≠ s.accepted r.val ∨ le d 60 4 ≠ (crc32c (slice d 0 60)).toNat) := by decide +kernel

theorem met_EntriesAreAccepted_14 :
    let s : State := ringUp.updRing 3 (fun z => { z with fetch := .reading true })
    let r : RingId := 3
    let d : List Byte := [9]
    s.schedUp = true ∧ (s.ring r.val).fetch = .reading true ∧ (le d 0 8 = s.accepted r.val ∧ le d 60 4 ≠ (crc32c (slice d 0 60)).toNat) := by decide +kernel

theorem met_EntriesAreAccepted_15 :
    let s : State := ringUp.updRing 3 (fun z => { z with fetch := .reading true })
    let r : RingId := 3
    let d : List Byte := [8]
    s.schedUp = true ∧ (s.ring r.val).fetch = .reading true ∧ le d 0 8 ≠ s.accepted r.val := by decide

theorem met_JobsArePlacedAndStart_1 :
    let s : State := placeMe [cmdNew waitDesc]
    let id : Nat := 7
    let g : Nat := 4
    let data : List Byte := []
    let j : Job := waitingJob [cmdNew waitDesc]
    let ds : List (List Byte) := j.cmds.map (·.desc)
    s.job? id = some j ∧ (s.placeable j = true ∧ j.cmds ≠ []) ∧ s.choose ((s.candidates j.stall j.coreMask ds).filter s.openCore) ds [] = some g ∧ s.firstBad g j = none := by decide

theorem met_JobsArePlacedAndStart_2 :
    let s : State := placeMe [cmdNew waitDesc, cmdNew (desc128 [0x77, 1, 0, 0, 2])]
    let id : Nat := 7
    let g : Nat := 4
    let i : Nat := 1
    let st : Nat := St.BAD_OPCODE
    let data : List Byte := []
    let j : Job := waitingJob [cmdNew waitDesc, cmdNew (desc128 [0x77, 1, 0, 0, 2])]
    let ds : List (List Byte) := j.cmds.map (·.desc)
    s.job? id = some j ∧ (s.placeable j = true ∧ j.cmds ≠ []) ∧ s.choose ((s.candidates j.stall j.coreMask ds).filter s.openCore) ds [] = some g ∧ s.firstBad g j = some (i, st) := by decide

theorem met_JobsArePlacedAndStart_3 :
    let s : State := (placeMe [cmdNew waitDesc]).wr (Reg.SCH_STALL_CORES 2) 0
    let id : Nat := 7
    let data : List Byte := []
    let j : Job := waitingJob [cmdNew waitDesc]
    let ds : List (List Byte) := j.cmds.map (·.desc)
    s.job? id = some j ∧ (s.placeable j = true ∧ j.cmds ≠ []) ∧ s.candidates j.stall j.coreMask ds = [] := by decide

theorem met_JobsArePlacedAndStart_4 :
    let s : State := listUp
    let id : Nat := 7
    let data : List Byte := []
    let j : Job := listJob
    s.job? id = some j ∧ (s.placeable j = true ∧ j.cmds = [] ∧ j.listDev = true) ∧ (okOf (readList j.stall j.nCmds j.list) s).isSome = true := by decide +kernel

theorem met_JobsArePlacedAndStart_5 :
    let s : State := placeWith { waitingJob [] with listDev := false, list := 2 ^ 56 }
    let id : Nat := 7
    let data : List Byte := []
    let j : Job := { waitingJob [] with listDev := false, list := 2 ^ 56 }
    s.job? id = some j ∧ (s.placeable j = true ∧ j.cmds = [] ∧ j.listDev = false) ∧ (refWin j.list ≠ 0 ∧ s.winSession (refWin j.list) = none) := by decide

theorem met_JobsArePlacedAndStart_6 :
    let s : State := placedState [cmdNew waitDesc]
    let id : Nat := 7
    let i : Nat := 0
    let errs : List (BitVec 40 × Bool) := []
    let links : List (Fin 16 × Bool) := []
    let j : Job := placedJob [cmdNew waitDesc]
    let c : Cmd := cmdNew waitDesc
    let s0 : State := if s.rank j = 4 then s.grantSlice j.core else s
    let s1 : State := ({ s0.addErrors errs with links := (s0.addErrors errs).links ++ links.map fun l => (l.1.val, l.2) } : State).takeTurn j c.desc
    let info : CmdInfo := s1.cmdInfo j.core c.desc
    let s2 : State := if info.ctxs.isEmpty then s1 else s1.hold id i info.excl info.ctxs
    let c2 : Cmd := { c with second := s2.seatFor j.core c.desc }
    let s3 : State := s2.updCmd id i fun x => { x with began := true, stage := .started, budget := info.budget.ceil.toNat, second := s2.seatFor j.core c.desc }
    (s.job? id = some j ∧ j.cmd? i = some c) ∧ (s.schedUp = true ∧ j.phase = .placed ∧ j.preempted = false) ∧ (s0.mayStart j i c = true ∧ s0.mayUse j c.desc = true ∧ s0.waitsInit j.core c.desc = false) ∧ (info.ctxs = [] ∨ s1.canHold id i info.excl info.ctxs = true) ∧ okOf (beginBody id i j c2) s3 = some () := by decide

theorem met_JobsArePlacedAndStart_7 :
    let s : State := heldState
    let id : Nat := 7
    let i : Nat := 0
    let j : Job := placedJob [cmdNew resetDesc]
    let c : Cmd := cmdNew resetDesc
    let s0 : State := if s.rank j = 4 then s.grantSlice j.core else s
    let s1 : State := s0.takeTurn j c.desc
    let info : CmdInfo := s1.cmdInfo j.core c.desc
    (s.job? id = some j ∧ j.cmd? i = some c) ∧ (s.schedUp = true ∧ j.phase = .placed ∧ j.preempted = false) ∧ (s0.mayStart j i c = true ∧ s0.mayUse j c.desc = true ∧ s0.waitsInit j.core c.desc = false) ∧ (info.ctxs ≠ [] ∧ s1.canHold id i info.excl info.ctxs = false) := by decide

theorem met_JobsArePlacedAndStart_8 :
    let s : State := grantState
    let id : Nat := 7
    let i : Nat := 0
    let j : Job := placedJob [waitReset]
    let c : Cmd := waitReset
    let s0 : State := if s.rank j = 4 then s.grantSlice j.core else s
    let s1 : State := s0.takeTurn j c.desc
    let info : CmdInfo := s1.cmdInfo j.core c.desc
    let s2 : State := s1.hold id i info.excl info.ctxs
    let c2 : Cmd := { c with second := s2.seatFor j.core c.desc }
    let s3 : State := s2.updCmd id i fun x => { x with began := true, stage := .started, budget := info.budget.ceil.toNat, second := s2.seatFor j.core c.desc }
    (s.job? id = some j ∧ j.cmd? i = some c) ∧ (s.schedUp = true ∧ j.phase = .placed ∧ j.preempted = false ∧ c.stage = .ctxWait) ∧ (s0.mayUse j c.desc = true ∧ s0.waitsInit j.core c.desc = false) ∧ (info.ctxs ≠ [] ∧ s1.canHold id i info.excl info.ctxs = true) ∧ okOf (beginBody id i j c2) s3 = some () := by decide

theorem met_JobsArePlacedAndStart_9 :
    let s : State := placeWith { listJob with list := 0x1004000800 }
    let id : Nat := 7
    let data : List Byte := []
    let j : Job := { listJob with list := 0x1004000800 }
    s.job? id = some j ∧ (s.placeable j = true ∧ j.cmds = [] ∧ j.listDev = true) ∧ endsWith (readList j.stall j.nCmds j.list) s St.CRC_MISMATCH = true := by decide +kernel

theorem met_JobsArePlacedAndStart_10 :
    let s : State := placeMe []
    let id : Nat := 7
    let data : List Byte := []
    let j : Job := waitingJob []
    s.job? id = some j ∧ (s.placeable j = true ∧ j.cmds = [] ∧ j.listDev = true) ∧ endsWith (readList j.stall j.nCmds j.list) s St.FIREWALL = true := by decide

theorem met_JobsArePlacedAndStart_11 :
    let s : State := placeWith { waitingJob [] with listDev := false }
    let id : Nat := 7
    let data : List Byte := []
    let j : Job := { waitingJob [] with listDev := false }
    s.job? id = some j ∧ (s.placeable j = true ∧ j.cmds = [] ∧ j.listDev = false) ∧ refWin j.list = 0 := by decide

theorem met_JobsArePlacedAndStart_12 :
    let s : State := placedState [cmdNew resetDesc]
    let id : Nat := 7
    let i : Nat := 0
    let st : Nat := St.FIREWALL
    let errs : List (BitVec 40 × Bool) := []
    let links : List (Fin 16 × Bool) := []
    let j : Job := placedJob [cmdNew resetDesc]
    let c : Cmd := cmdNew resetDesc
    let s0 : State := if s.rank j = 4 then s.grantSlice j.core else s
    let s1 : State := ({ s0.addErrors errs with links := (s0.addErrors errs).links ++ links.map fun l => (l.1.val, l.2) } : State).takeTurn j c.desc
    let info : CmdInfo := s1.cmdInfo j.core c.desc
    let s2 : State := if info.ctxs.isEmpty then s1 else s1.hold id i info.excl info.ctxs
    let c2 : Cmd := { c with second := s2.seatFor j.core c.desc }
    let s3 : State := s2.updCmd id i fun x => { x with began := true, stage := .started, budget := info.budget.ceil.toNat, second := s2.seatFor j.core c.desc }
    (s.job? id = some j ∧ j.cmd? i = some c) ∧ (s.schedUp = true ∧ j.phase = .placed ∧ j.preempted = false) ∧ (s0.mayStart j i c = true ∧ s0.mayUse j c.desc = true ∧ s0.waitsInit j.core c.desc = false) ∧ (info.ctxs = [] ∨ s1.canHold id i info.excl info.ctxs = true) ∧ endsWith (beginBody id i j c2) s3 st = true := by decide

theorem met_JobsArePlacedAndStart_13 :
    let s : State := heldBy [waitReset]
    let id : Nat := 7
    let i : Nat := 0
    let j : Job := placedJob [waitReset]
    let c : Cmd := waitReset
    let s0 : State := if s.rank j = 4 then s.grantSlice j.core else s
    let s1 : State := s0.takeTurn j c.desc
    let info : CmdInfo := s1.cmdInfo j.core c.desc
    (s.job? id = some j ∧ j.cmd? i = some c) ∧ (s.schedUp = true ∧ j.phase = .placed ∧ j.preempted = false ∧ c.stage = .ctxWait) ∧ (s0.mayUse j c.desc = true ∧ s0.waitsInit j.core c.desc = false) ∧ (info.ctxs ≠ [] ∧ s1.canHold id i info.excl info.ctxs = false) := by decide

theorem met_JobsArePlacedAndStart_14 :
    let s : State := placedState [waitReset]
    let id : Nat := 7
    let i : Nat := 0
    let st : Nat := St.FIREWALL
    let j : Job := placedJob [waitReset]
    let c : Cmd := waitReset
    let s0 : State := if s.rank j = 4 then s.grantSlice j.core else s
    let s1 : State := s0.takeTurn j c.desc
    let info : CmdInfo := s1.cmdInfo j.core c.desc
    let s2 : State := s1.hold id i info.excl info.ctxs
    let c2 : Cmd := { c with second := s2.seatFor j.core c.desc }
    let s3 : State := s2.updCmd id i fun x => { x with began := true, stage := .started, budget := info.budget.ceil.toNat, second := s2.seatFor j.core c.desc }
    (s.job? id = some j ∧ j.cmd? i = some c) ∧ (s.schedUp = true ∧ j.phase = .placed ∧ j.preempted = false ∧ c.stage = .ctxWait) ∧ (s0.mayUse j c.desc = true ∧ s0.waitsInit j.core c.desc = false) ∧ (info.ctxs ≠ [] ∧ s1.canHold id i info.excl info.ctxs = true) ∧ endsWith (beginBody id i j c2) s3 st = true := by decide

theorem met_JobsArePlacedAndStart_15 :
    let s : State := placedState [cmdNew waitDesc]
    let id : Nat := 7
    let i : Nat := 0
    let errs : List (BitVec 40 × Bool) := []
    let links : List (Fin 16 × Bool) := []
    let j : Job := placedJob [cmdNew waitDesc]
    let c : Cmd := cmdNew waitDesc
    let s0 : State := if s.rank j = 4 then s.grantSlice j.core else s
    (s.job? id = some j ∧ j.cmd? i = some c) ∧ (s.schedUp = true ∧ j.phase = .placed ∧ j.preempted = false) ∧ s0.mayStart j i c = true ∧ (opcodeOf c.desc = 0x10 ∨ opcodeOf c.desc = 0x11 ∨ opcodeOf c.desc = 0x12) := by decide

theorem met_JobsArePlacedAndStart_16 :
    let s : State := grantState
    let id : Nat := 7
    let i : Nat := 0
    let j : Job := placedJob [waitReset]
    let c : Cmd := waitReset
    let d : List Byte := c.desc
    let gf : Nat := le d 18 2
    let s0 : State := if s.rank j = 4 then s.grantSlice j.core else s
    (s.job? id = some j ∧ j.cmd? i = some c) ∧ (s.schedUp = true ∧ j.phase = .placed ∧ j.preempted = false ∧ c.stage = .ctxWait) ∧ (s0.mayUse j d = true ∧ s0.waitsInit j.core d = false) ∧ (opcodeOf d = 0x09 ∧ j.stall < 16 ∧ s.ctxResetBudget d ≤ 237500 ∧ ctxSet d ≠ []) ∧ s.canHold id i true (ctxSet d) = true ∧ (∀ k ∈ ctxSet d, s.calm (ctxAddr k) 32 = true ∧ s.injection (ctxAddr k) = none ∧ (s.ctx k).owner = j.stall ∧ (s.ctx k).gen = gf ∧ ((s.ctx k).state = 1 ∨ (s.ctx k).state = 2)) := by decide

theorem met_JobsEndAndComplete_1 :
    let s : State := placedState [endingOf waitDesc 0, cmdNew waitDesc]
    let id : Nat := 7
    let i : Nat := 0
    let j : Job := placedJob [endingOf waitDesc 0, cmdNew waitDesc]
    let c : Cmd := endingOf waitDesc 0
    let s1 : State := (runOn (closeBody j c) s).2
    (s.job? id = some j ∧ j.cmd? i = some c) ∧ (c.stage = .ending ∧ j.runs (opcodeOf c.desc) = true) ∧ (usesUnit c.desc = false ∨ s.controlUp j.core = true) ∧ (succeeded c.status = true ∧ okOf (closeBody j c) s = some ()) ∧ (j.stall < 16 ∧ s1.sound j.core = true) := by decide

theorem met_JobsEndAndComplete_1b :
    let s : State := placedState [endingOf (moveTo4.set 16 32) 0, cmdNew waitDesc]
    let id : Nat := 7
    let i : Nat := 0
    let j : Job := placedJob [endingOf (moveTo4.set 16 32) 0, cmdNew waitDesc]
    let c : Cmd := endingOf (moveTo4.set 16 32) 0
    let s1 : State := (runOn (closeBody j c) s).2
    (s.job? id = some j ∧ j.cmd? i = some c) ∧ (c.stage = .ending ∧ j.runs (opcodeOf c.desc) = true) ∧ (usesUnit c.desc = false ∨ s.controlUp j.core = true) ∧ (succeeded c.status = true ∧ okOf (closeBody j c) s = some ()) ∧ (j.stall < 16 ∧ s1.sound j.core = true) := by decide

theorem met_JobsEndAndComplete_2 :
    let s : State := placedState [{ endingOf waitDesc 0 with stage := .done }]
    let id : Nat := 7
    let n : Nat := 0
    let q : Nat := 0
    let j : Job := placedJob [{ endingOf waitDesc 0 with stage := .done }]
    s.job? id = some j ∧ j.src = .ring n q ∧ (j.ended = true ∧ s.schedUp = true) ∧ (j.phase = .accepted ∨ j.phase = .placed) ∧ (succeeded j.outcome.1 = false ∨ s.completionRefused j n q = none) := by decide

theorem met_JobsEndAndComplete_3 :
    let s : State := doneState .completed 0
    let r : RingId := 3
    let j : Job := doneJob .completed 0
    let y : Nat := 5
    let x : Session := sess5
    let ref : Nat := s.compRef r.val (s.published r.val)
    (s.nextPublished r.val = some j ∧ j.phase = .completed) ∧ ((s.ring r.val).refusedHold = false ∧ s.rd64 (Reg.CMD_RING_COMP r.val) ≠ 0 ∧ s.schedUp = true) ∧ (j.statusPtr = 0 ∧ j.record.length = 32) ∧ (s.winWrite (refWin ref) (refOff ref) 32).isSome = true ∧ (refReserved (ref + 8) = 0 ∧ s.winWrite (refWin (ref + 8)) (refOff (ref + 8)) 24 = some y) ∧ (s.session? y = some x ∧ 24 ≤ x.maxData ∧ x.reqs.length < 64) := by decide

theorem met_JobsEndAndComplete_4 :
    let s : State := (doneState .completed 0).wr (Reg.BAR_WIN 2) 0
    let r : RingId := 3
    let j : Job := doneJob .completed 0
    let ref : Nat := s.compRef r.val (s.published r.val)
    s.nextPublished r.val = some j ∧ ((s.ring r.val).refusedHold = true ∨ s.winWrite (refWin ref) (refOff ref) 32 = none) := by decide

theorem met_JobsEndAndComplete_5 :
    let s : State := awaitingAck (doneState .publishing 1)
    let r : RingId := 3
    let j : Job := doneJob .publishing 1
    (s.nextPublished r.val = some j ∧ j.phase = .publishing ∧ j.pubStep ≠ 0) ∧ s.sessions.any (fun x => x.reqs.any fun z => z.why == .completion r.val) = true ∧ s.published r.val + 1 < 2 ^ 64 := by decide

theorem met_JobsEndAndComplete_6 :
    let s : State := awaitingAck (doneState .publishing 0)
    let r : RingId := 3
    let j : Job := doneJob .publishing 0
    let y : Nat := 5
    let x : Session := { sess5 with reqs := [⟨1, 2, [], 1, 0, .completion 3, 2⟩], nextSeq := 2 }
    let ref : Nat := s.compRef r.val (s.published r.val)
    (s.nextPublished r.val = some j ∧ j.phase = .publishing ∧ j.pubStep = 0 ∧ 8 ≤ j.record.length) ∧ s.sessions.any (fun x => x.reqs.any fun z => z.why == .completion r.val) = true ∧ (refReserved ref = 0 ∧ s.winWrite (refWin ref) (refOff ref) 8 = some y) ∧ (s.session? y = some x ∧ 24 ≤ x.maxData ∧ x.reqs.length < 64) := by decide

theorem met_JobsEndAndComplete_7 :
    let s : State := placeWith { placedJob [cmdNew waitDesc] with deadline := some 0 }
    let id : Nat := 7
    let d : Nat := 0
    let n : Nat := 0
    let q : Nat := 0
    let j : Job := { placedJob [cmdNew waitDesc] with deadline := some 0 }
    s.job? id = some j ∧ j.src = .ring n q ∧ (j.deadline = some d ∧ d ≤ s.refNs ∧ j.deadlinePassed = false) ∧ (j.phase = .accepted ∨ j.phase = .placed) := by decide

theorem met_JobsEndAndComplete_8 :
    let s : State := placedState [endingOf waitDesc 0x22, cmdNew waitDesc]
    let id : Nat := 7
    let i : Nat := 0
    let j : Job := placedJob [endingOf waitDesc 0x22, cmdNew waitDesc]
    let c : Cmd := endingOf waitDesc 0x22
    (s.job? id = some j ∧ j.cmd? i = some c) ∧ (c.stage = .ending ∧ j.runs (opcodeOf c.desc) = true) ∧ (usesUnit c.desc = false ∨ s.controlUp j.core = true) ∧ (succeeded c.status = false ∧ c.status ≠ St.VERSION_MISMATCH) ∧ (j.stall < 16 ∧ s.sound j.core = true) := by decide

theorem met_JobsEndAndComplete_9 :
    let s : State := placedState [endingOf ((moveTo4.set 16 32).set 44 0) 0]
    let id : Nat := 7
    let i : Nat := 0
    let st : Nat := St.FIREWALL
    let j : Job := placedJob [endingOf ((moveTo4.set 16 32).set 44 0) 0]
    let c : Cmd := endingOf ((moveTo4.set 16 32).set 44 0) 0
    let s1 : State := (runOn (closeBody j c) s).2
    (s.job? id = some j ∧ j.cmd? i = some c) ∧ (c.stage = .ending ∧ j.runs (opcodeOf c.desc) = true) ∧ (usesUnit c.desc = false ∨ s.controlUp j.core = true) ∧ (succeeded c.status = true ∧ endsWith (closeBody j c) s st = true) ∧ (j.stall < 16 ∧ s1.sound j.core = true) := by decide

theorem met_JobsEndAndComplete_10 :
    let s : State := pastSlot
    let id : Nat := 7
    let n : Nat := 3
    let q : Nat := 9
    let ref : Nat := pastSlot.compRef 3 9
    let j : Job := lateJob
    let k : Job := { j with early := some (St.FIREWALL, 0xFFFF) }
    s.job? id = some j ∧ j.src = .ring n q ∧ (j.ended = true ∧ s.schedUp = true) ∧ (j.phase = .accepted ∨ j.phase = .placed) ∧ (succeeded j.outcome.1 = true ∧ s.completionRefused j n q = some ref) := by decide

theorem met_JobsEndAndComplete_11 :
    let s : State := placedState [endingOf waitDesc 0, cmdNew waitDesc]
    let id : Nat := 7
    let i : Nat := 0
    let j : Job := placedJob [endingOf waitDesc 0, cmdNew waitDesc]
    let c : Cmd := endingOf waitDesc 0
    (s.job? id = some j ∧ j.cmd? i = some c) ∧ (c.stage = .ending ∧ j.runs (opcodeOf c.desc) = true) ∧ (usesUnit c.desc = false ∨ s.controlUp j.core = true) ∧ (succeeded c.status = true ∧ s.framedOuts j.core c.desc = []) ∧ (j.stall < 16 ∧ s.sound j.core = true) := by decide

theorem met_JobsEndAndComplete_12 :
    let s : State := placedState [endingOf (moveTo4.set 16 32) 0, cmdNew waitDesc]
    let id : Nat := 7
    let i : Nat := 0
    let a : Nat := 0x1004000160
    let j : Job := placedJob [endingOf (moveTo4.set 16 32) 0, cmdNew waitDesc]
    let c : Cmd := endingOf (moveTo4.set 16 32) 0
    let b : Buf := { base := 0x1004000100, extent := 8, unit := 4 }
    let at_ : Nat := selvageAt b.base b.extent
    (s.job? id = some j ∧ j.cmd? i = some c) ∧ (c.stage = .ending ∧ j.runs (opcodeOf c.desc) = true) ∧ (usesUnit c.desc = false ∨ s.controlUp j.core = true) ∧ (succeeded c.status = true ∧ s.framedOuts j.core c.desc = [b]) ∧ s.canWrite (j.tagFor s c b.unit) at_ 32 = true ∧ (boltAddr j.core 0 ≤ at_ ∧ at_ + 32 ≤ boltAddr j.core 0 + 0x400000) ∧ (j.stall < 16 ∧ j.core < 32 ∧ s.sound j.core = true) ∧ (a < at_ ∨ at_ + 32 ≤ a) := by decide

theorem met_FencesSignalsAndWaits_1 :
    let s : State := live.withJob (jobWith [cmdOf (desc128 [0x10, 1])])
    let id : Nat := 7
    let i : Nat := 0
    let j : Job := jobWith [cmdOf (desc128 [0x10, 1])]
    let c : Cmd := cmdOf (desc128 [0x10, 1])
    s.goes id i 0x10 .started j c ∧ s.fenceMet j i c.desc = true := by decide

theorem met_FencesSignalsAndWaits_2 :
    let s : State := live.withJob (jobWith [goingOf (desc128 [0x10, 1])])
    let id : Nat := 7
    let i : Nat := 0
    let j : Job := jobWith [goingOf (desc128 [0x10, 1])]
    let c : Cmd := goingOf (desc128 [0x10, 1])
    s.goes id i 0x10 .running j c ∧ s.fenceMet j i c.desc = true := by decide

theorem met_FencesSignalsAndWaits_4 :
    let s : State := live.withJob (jobWith [cmdOf (sigDesc 0 33)])
    let id : Nat := 7
    let i : Nat := 0
    let j : Job := jobWith [cmdOf (sigDesc 0 33)]
    let c : Cmd := cmdOf (sigDesc 0 33)
    let d : List Byte := c.desc
    let sig : Nat := le d 17 1
    let v : Nat := le d 24 8
    let dev : Nat := bits (le d 16 1) 1 0
    s.goes id i 0x11 .started j c ∧ sig / 16 = j.stall ∧ (bitOf (le d 16 1) 2 = false ∧ dev = s.board.devnum) := by decide

theorem met_FencesSignalsAndWaits_5 :
    let s : State := live.withJob (jobWith [cmdOf (sigDesc 0 48)])
    let id : Nat := 7
    let i : Nat := 0
    let j : Job := jobWith [cmdOf (sigDesc 0 48)]
    let c : Cmd := cmdOf (sigDesc 0 48)
    s.goes id i 0x11 .started j c ∧ le c.desc 17 1 / 16 ≠ j.stall := by decide

theorem met_FencesSignalsAndWaits_6 :
    let s : State := (live.withJob (jobWith [cmdOf waitDesc])).updTim (fun t => { t with on := true })
    let id : Nat := 7
    let i : Nat := 0
    let j : Job := jobWith [cmdOf waitDesc]
    let c : Cmd := cmdOf waitDesc
    let w : Int := s.waitTarget j c.desc
    s.goes id i 0x12 .started j c ∧ (0 ≤ w ∧ w < 2 ^ 63 ∧ s.actionDue w.toNat 0 = true) := by decide

theorem met_FencesSignalsAndWaits_7 :
    let s : State := (live.withJob (jobWith [goingOf waitDesc])).updTim (fun t => { t with on := true })
    let id : Nat := 7
    let i : Nat := 0
    let j : Job := jobWith [goingOf waitDesc]
    let c : Cmd := goingOf waitDesc
    s.goes id i 0x12 .running j c ∧ s.actionDue c.target 0 = true := by decide

theorem met_FencesSignalsAndWaits_8 :
    let s : State := live.withJob (jobWith [cmdOf (desc128 ([0x10, 1] ++ List.replicate 14 0 ++ [2, 0, 0, 0, 0, 0, 0, 0, 5]))])
    let id : Nat := 7
    let i : Nat := 0
    let j : Job := jobWith [cmdOf (desc128 ([0x10, 1] ++ List.replicate 14 0 ++ [2, 0, 0, 0, 0, 0, 0, 0, 5]))]
    let c : Cmd := cmdOf (desc128 ([0x10, 1] ++ List.replicate 14 0 ++ [2, 0, 0, 0, 0, 0, 0, 0, 5]))
    s.goes id i 0x10 .started j c ∧ s.fenceMet j i c.desc = false := by decide

theorem met_FencesSignalsAndWaits_9 :
    let s : State := live.withJob (jobWith [cmdOf (sigDesc 6 33)])
    let id : Nat := 7
    let i : Nat := 0
    let j : Job := jobWith [cmdOf (sigDesc 6 33)]
    let c : Cmd := cmdOf (sigDesc 6 33)
    let d : List Byte := c.desc
    let sig : Nat := le d 17 1
    let v : Nat := le d 24 8
    let dev : Nat := bits (le d 16 1) 1 0
    s.goes id i 0x11 .started j c ∧ sig / 16 = j.stall ∧ bitOf (le d 16 1) 2 = true := by decide

theorem met_FencesSignalsAndWaits_10 :
    let s : State := live.withJob (jobWith [cmdOf (sigDesc 2 33)])
    let id : Nat := 7
    let i : Nat := 0
    let j : Job := jobWith [cmdOf (sigDesc 2 33)]
    let c : Cmd := cmdOf (sigDesc 2 33)
    let d : List Byte := c.desc
    let sig : Nat := le d 17 1
    let dev : Nat := bits (le d 16 1) 1 0
    s.goes id i 0x11 .started j c ∧ sig / 16 = j.stall ∧ (bitOf (le d 16 1) 2 = false ∧ dev ≠ s.board.devnum ∧ s.portTo dev = none) := by decide

theorem met_FencesSignalsAndWaits_11 :
    let s : State := (live.withJob (jobWith [cmdOf (sigDesc 2 33)])).regsSet [(Reg.BIL_PORT_CTRL 1, 0xC4020001)]
    let id : Nat := 7
    let i : Nat := 0
    let j : Job := jobWith [cmdOf (sigDesc 2 33)]
    let c : Cmd := cmdOf (sigDesc 2 33)
    let d : List Byte := c.desc
    let sig : Nat := le d 17 1
    let dev : Nat := bits (le d 16 1) 1 0
    s.goes id i 0x11 .started j c ∧ sig / 16 = j.stall ∧ (bitOf (le d 16 1) 2 = false ∧ dev ≠ s.board.devnum ∧ (s.portTo dev).isSome = true) := by decide

theorem met_FencesSignalsAndWaits_12 :
    let s : State := live.withJob (jobWith [cmdOf (waitDesc.set 31 128)])
    let id : Nat := 7
    let i : Nat := 0
    let j : Job := jobWith [cmdOf (waitDesc.set 31 128)]
    let c : Cmd := cmdOf (waitDesc.set 31 128)
    let w : Int := s.waitTarget j c.desc
    s.goes id i 0x12 .started j c ∧ (w < 0 ∨ 2 ^ 63 ≤ w) := by decide

theorem met_FencesSignalsAndWaits_13 :
    let s : State := live.withJob (jobWith [cmdOf waitDesc])
    let id : Nat := 7
    let i : Nat := 0
    let j : Job := jobWith [cmdOf waitDesc]
    let c : Cmd := cmdOf waitDesc
    let w : Int := s.waitTarget j c.desc
    s.goes id i 0x12 .started j c ∧ (0 ≤ w ∧ w < 2 ^ 63 ∧ s.actionDue w.toNat 0 = false) := by decide

theorem met_PublishStatsAndSensors_1 :
    let s : State := pubReady [cmdOf pubDesc]
    let id : Nat := 7
    let i : Nat := 0
    let j : Job := jobWith0 [cmdOf pubDesc]
    let c : Cmd := cmdOf pubDesc
    let target : Option Nat := none
    let p : PubD := pubD c.desc
    let tag : Tag := s.portTag p.port j.stall
    let sel : List Byte := s.view (selvageAt p.src p.len) 32
    let pay : List Byte := s.view p.src p.len
    let tsel : List Byte := s.view (selvageAt p.template p.tlen) 32
    let tem : List Byte := s.view p.template p.tlen
    let room : Nat := min (p.n - c.progress) (64 - (s.txQueue p.port p.queue).length)
    s.goes id i 0x13 .started j c ∧ (s.canRead true tag (selvageAt p.src p.len) 32 = true ∧ s.canRead true tag p.src p.len = true) ∧ (crc32c pay).toNat = le sel 24 4 ∧ (s.canRead true tag (selvageAt p.template p.tlen) 32 = true ∧ s.canRead true tag p.template p.tlen = true) ∧ (crc32c tem).toNat = le tsel 24 4 ∧ ((pubTarget p (provOf sel)).toOption = some target ∧ s.silenced j.stall = false ∧ p.mon = none) := by decide +kernel

theorem met_PublishStatsAndSensors_2 :
    let s : State := pubReady [goingOf pubDesc]
    let id : Nat := 7
    let i : Nat := 0
    let j : Job := jobWith0 [goingOf pubDesc]
    let c : Cmd := goingOf pubDesc
    let target : Option Nat := none
    let p : PubD := pubD c.desc
    let tag : Tag := s.portTag p.port j.stall
    let sel : List Byte := s.view (selvageAt p.src p.len) 32
    let room : Nat := min (p.n - c.progress) (64 - (s.txQueue p.port p.queue).length)
    s.goes id i 0x13 .running j c ∧ c.progress < p.n ∧ (s.canRead true tag (selvageAt p.src p.len) 32 = true ∧ s.canRead true tag p.src p.len = true) ∧ s.canRead true tag p.template p.tlen = true ∧ (pubTarget p (provOf sel)).toOption.join = target := by decide

theorem met_PublishStatsAndSensors_3 :
    let s : State := live.withJob (jobWith [{ goingOf pubDesc with progress := 1 }])
    let id : Nat := 7
    let i : Nat := 0
    let j : Job := jobWith [{ goingOf pubDesc with progress := 1 }]
    let c : Cmd := { goingOf pubDesc with progress := 1 }
    s.goes id i 0x13 .running j c ∧ ((pubD c.desc).n ≤ c.progress ∧ s.framesWait id i = false) := by decide

theorem met_PublishStatsAndSensors_3b :
    let s : State := live.withJob (jobWith [{ goingOf pubDesc with progress := 1, aux := 1 }])
    let id : Nat := 7
    let i : Nat := 0
    let j : Job := jobWith [{ goingOf pubDesc with progress := 1, aux := 1 }]
    let c : Cmd := { goingOf pubDesc with progress := 1, aux := 1 }
    s.goes id i 0x13 .running j c ∧ ((pubD c.desc).n ≤ c.progress ∧ s.framesWait id i = false) := by decide

theorem met_PublishStatsAndSensors_4 :
    let s : State := statsUp (cmdOf statDesc)
    let id : Nat := 7
    let i : Nat := 0
    let f : Nat := 10
    let j : Job := jobWith0 [cmdOf statDesc]
    let c : Cmd := cmdOf statDesc
    let src : Nat := tabStats (s.stream (le c.desc 16 1 % 128)).table + f % 4 * statsSlot
    let dst : Nat := boltAddr j.core (le c.desc 24 4)
    let tag : Tag := s.tagOf j.stall 0x120
    let v : List Byte := s.view (selvageAt src statsBytes) 32
    let b : List Byte := s.view src statsBytes
    s.goes id i 0x14 .started j c ∧ s.streamOwned (le c.desc 16 1 % 128) j.stall = true ∧ s.statsAt j c.desc = .ready f ∧ (s.canRead true tag (selvageAt src statsBytes) 32 = true ∧ s.canRead true tag src statsBytes = true) ∧ (s.canWrite tag dst statsBytes = true ∧ s.canWrite tag (selvageAt dst statsBytes) 32 = true) ∧ (j.core < 32 ∧ le c.desc 24 4 + statsBytes + 32 ≤ 0x400000) ∧ (src + statsBytes + 32 ≤ boltAddr j.core 0 ∨ (boltAddr j.core 0 + 0x400000 ≤ src ∧ src + statsBytes + 32 ≤ 0x2000000000)) ∧ (selvageCrcOk v = true ∧ bits (le v 13 1) 7 4 = 1 ∧ le v 20 4 = statsBytes ∧ le v 14 2 &&& flagRefuseOf c.desc = 0) := by decide +kernel

theorem met_PublishStatsAndSensors_5 :
    let s : State := statsUp (goingOf statDesc)
    let id : Nat := 7
    let i : Nat := 0
    let f : Nat := 10
    let j : Job := jobWith0 [goingOf statDesc]
    let c : Cmd := goingOf statDesc
    let src : Nat := tabStats (s.stream (le c.desc 16 1 % 128)).table + f % 4 * statsSlot
    let dst : Nat := boltAddr j.core (le c.desc 24 4)
    let tag : Tag := s.tagOf j.stall 0x120
    let v : List Byte := s.view (selvageAt src statsBytes) 32
    let b : List Byte := s.view src statsBytes
    s.goes id i 0x14 .running j c ∧ s.streamOwned (le c.desc 16 1 % 128) j.stall = true ∧ s.statsAt j c.desc = .ready f ∧ (s.canRead true tag (selvageAt src statsBytes) 32 = true ∧ s.canRead true tag src statsBytes = true) ∧ (s.canWrite tag dst statsBytes = true ∧ s.canWrite tag (selvageAt dst statsBytes) 32 = true) ∧ (j.core < 32 ∧ le c.desc 24 4 + statsBytes + 32 ≤ 0x400000) ∧ (src + statsBytes + 32 ≤ boltAddr j.core 0 ∨ (boltAddr j.core 0 + 0x400000 ≤ src ∧ src + statsBytes + 32 ≤ 0x2000000000)) ∧ (selvageCrcOk v = true ∧ bits (le v 13 1) 7 4 = 1 ∧ le v 20 4 = statsBytes ∧ le v 14 2 &&& flagRefuseOf c.desc = 0) := by decide +kernel

theorem met_PublishStatsAndSensors_6 :
    let s : State := (live.withJob (jobWith [cmdOf sensDesc])).regsSet [(Reg.ING_STR_CTRL 3, 0x82000000)]
    let id : Nat := 7
    let i : Nat := 0
    let j : Job := jobWith [cmdOf sensDesc]
    let c : Cmd := cmdOf sensDesc
    let x : SensD := sensD c.desc
    let n : Nat := x.stream
    let aim : Nat := (if x.rel then ((s.firedFrame j n).elim 0 (·.1) + x.target) % 2 ^ 32 else x.target)
    let late : Bool := decide (ahead (aim + 2 ^ 32 - s.strLatency n + 1) (s.frameCount n) ≤ 0)
    s.goes id i 0x15 .started j c ∧ (s.streams.length = 128 ∧ n < 128 ∧ s.streamOwned n j.stall = true) ∧ (s.stream n).queue.length < 16 ∧ (late = false ∨ x.late = true) := by decide +kernel

theorem met_PublishStatsAndSensors_7 :
    let s : State := (live.withJob (jobWith [goingOf sensDesc])).regsSet [(Reg.ING_STR_CTRL 3, 0x82000000)]
    let id : Nat := 7
    let i : Nat := 0
    let j : Job := jobWith [goingOf sensDesc]
    let c : Cmd := goingOf sensDesc
    let x : SensD := sensD c.desc
    let n : Nat := x.stream
    let aim : Nat := (if x.rel then ((s.firedFrame j n).elim 0 (·.1) + x.target) % 2 ^ 32 else x.target)
    let late : Bool := decide (ahead (aim + 2 ^ 32 - s.strLatency n + 1) (s.frameCount n) ≤ 0)
    s.goes id i 0x15 .running j c ∧ (s.streams.length = 128 ∧ n < 128 ∧ s.streamOwned n j.stall = true) ∧ (s.stream n).queue.length < 16 ∧ (late = false ∨ x.late = true) := by decide +kernel

theorem met_PublishStatsAndSensors_8 :
    let s : State := (pubReady [cmdOf pubDesc]).wr (Reg.ETH_PORT_CTRL 0) 0xC00005EE#32
    let id : Nat := 7
    let i : Nat := 0
    let j : Job := jobWith0 [cmdOf pubDesc]
    let c : Cmd := cmdOf pubDesc
    let target : Option Nat := none
    let p : PubD := pubD c.desc
    let tag : Tag := s.portTag p.port j.stall
    let sel : List Byte := s.view (selvageAt p.src p.len) 32
    let pay : List Byte := s.view p.src p.len
    let tsel : List Byte := s.view (selvageAt p.template p.tlen) 32
    let tem : List Byte := s.view p.template p.tlen
    let room : Nat := min (p.n - c.progress) (64 - (s.txQueue p.port p.queue).length)
    s.goes id i 0x13 .started j c ∧ (s.canRead true tag (selvageAt p.src p.len) 32 = true ∧ s.canRead true tag p.src p.len = true) ∧ (crc32c pay).toNat = le sel 24 4 ∧ (s.canRead true tag (selvageAt p.template p.tlen) 32 = true ∧ s.canRead true tag p.template p.tlen = true) ∧ (crc32c tem).toNat = le tsel 24 4 ∧ ((pubTarget p (provOf sel)).toOption = some target ∧ s.silenced j.stall = false ∧ p.mon = none) ∧ (s.portUp p.port = true ∧ s.eth.length = 3 ∧ (s.ethPort p.port).queues.length = 8) := by decide +kernel

theorem met_PublishStatsAndSensors_9 :
    let s : State := (pubReady [goingOf pubDesc]).wr (Reg.ETH_PORT_CTRL 0) 0xC00005EE#32
    let id : Nat := 7
    let i : Nat := 0
    let j : Job := jobWith0 [goingOf pubDesc]
    let c : Cmd := goingOf pubDesc
    let target : Option Nat := none
    let p : PubD := pubD c.desc
    let tag : Tag := s.portTag p.port j.stall
    let sel : List Byte := s.view (selvageAt p.src p.len) 32
    let pay : List Byte := s.view p.src p.len
    let tem : List Byte := s.view p.template p.tlen
    let room : Nat := min (p.n - c.progress) (64 - (s.txQueue p.port p.queue).length)
    s.goes id i 0x13 .running j c ∧ c.progress < p.n ∧ (s.canRead true tag (selvageAt p.src p.len) 32 = true ∧ s.canRead true tag p.src p.len = true) ∧ s.canRead true tag p.template p.tlen = true ∧ (pubTarget p (provOf sel)).toOption.join = target ∧ (s.portUp p.port = true ∧ s.eth.length = 3 ∧ (s.ethPort p.port).queues.length = 8) := by decide

theorem met_PublishStatsAndSensors_10 :
    let s : State := (pubReady [cmdOf pubDesc]).poke 0x1000000000 [1]
    let id : Nat := 7
    let i : Nat := 0
    let j : Job := jobWith0 [cmdOf pubDesc]
    let c : Cmd := cmdOf pubDesc
    let p : PubD := pubD c.desc
    let tag : Tag := s.portTag p.port j.stall
    let sel : List Byte := s.view (selvageAt p.src p.len) 32
    let pay : List Byte := s.view p.src p.len
    s.goes id i 0x13 .started j c ∧ (s.canRead true tag (selvageAt p.src p.len) 32 = true ∧ s.canRead true tag p.src p.len = true) ∧ (crc32c pay).toNat ≠ le sel 24 4 := by decide +kernel

theorem met_PublishStatsAndSensors_11 :
    let s : State := pubReady [cmdOf (pubDesc.set 16 32)]
    let id : Nat := 7
    let i : Nat := 0
    let j : Job := jobWith0 [cmdOf (pubDesc.set 16 32)]
    let c : Cmd := cmdOf (pubDesc.set 16 32)
    let p : PubD := pubD c.desc
    let tag : Tag := s.portTag p.port j.stall
    let sel : List Byte := s.view (selvageAt p.src p.len) 32
    let pay : List Byte := s.view p.src p.len
    let tsel : List Byte := s.view (selvageAt p.template p.tlen) 32
    let tem : List Byte := s.view p.template p.tlen
    s.goes id i 0x13 .started j c ∧ (s.canRead true tag (selvageAt p.src p.len) 32 = true ∧ s.canRead true tag p.src p.len = true) ∧ (crc32c pay).toNat = le sel 24 4 ∧ (s.canRead true tag (selvageAt p.template p.tlen) 32 = true ∧ s.canRead true tag p.template p.tlen = true) ∧ (crc32c tem).toNat = le tsel 24 4 ∧ (pubTarget p (provOf sel)).toOption = none := by decide +kernel

theorem met_PublishStatsAndSensors_12 :
    let s : State := ({ pubReady [cmdOf pubDesc] with tal := { live.tal with silence := [(5, [0])] } } : State).wr (Reg.TAL_REACT 5) 1
    let id : Nat := 7
    let i : Nat := 0
    let j : Job := jobWith0 [cmdOf pubDesc]
    let c : Cmd := cmdOf pubDesc
    let p : PubD := pubD c.desc
    let tag : Tag := s.portTag p.port j.stall
    let sel : List Byte := s.view (selvageAt p.src p.len) 32
    let pay : List Byte := s.view p.src p.len
    let tsel : List Byte := s.view (selvageAt p.template p.tlen) 32
    let tem : List Byte := s.view p.template p.tlen
    s.goes id i 0x13 .started j c ∧ (s.canRead true tag (selvageAt p.src p.len) 32 = true ∧ s.canRead true tag p.src p.len = true) ∧ (crc32c pay).toNat = le sel 24 4 ∧ (s.canRead true tag (selvageAt p.template p.tlen) 32 = true ∧ s.canRead true tag p.template p.tlen = true) ∧ (crc32c tem).toNat = le tsel 24 4 ∧ ((pubTarget p (provOf sel)).toOption.isSome = true ∧ s.silenced j.stall = true) := by decide +kernel

theorem met_PublishStatsAndSensors_13 :
    let s : State := live.withJob (jobWith [cmdOf pubDesc])
    let id : Nat := 7
    let i : Nat := 0
    let st : Nat := St.CRC_MISMATCH
    let j : Job := jobWith [cmdOf pubDesc]
    let c : Cmd := cmdOf pubDesc
    s.goes id i 0x13 .started j c ∧ endsWith (pubBody id i j c) s st = true := by decide +kernel

theorem met_PublishStatsAndSensors_14 :
    let s : State := live.withJob (jobWith [{ goingOf pubDesc with progress := 1 }])
    let id : Nat := 7
    let i : Nat := 0
    let j : Job := jobWith [{ goingOf pubDesc with progress := 1 }]
    let c : Cmd := { goingOf pubDesc with progress := 1 }
    s.goes id i 0x13 .running j c ∧ (pubD c.desc).n ≤ c.progress := by decide

theorem met_PublishStatsAndSensors_15 :
    let s : State := live.withJob (jobWith [goingOf pubDesc])
    let id : Nat := 7
    let i : Nat := 0
    let j : Job := jobWith [goingOf pubDesc]
    let c : Cmd := goingOf pubDesc
    s.goes id i 0x13 .running j c ∧ (c.progress < (pubD c.desc).n ∨ s.framesWait id i = true) := by decide

theorem met_PublishStatsAndSensors_16 :
    let s : State := (live.withJob (jobWith [cmdOf statDesc])).regsSet [(Reg.ING_STR_CTRL 3, 0x82000000), (Reg.ING_STR_FRAME 3, 11)]
    let id : Nat := 7
    let i : Nat := 0
    let j : Job := jobWith [cmdOf statDesc]
    let c : Cmd := cmdOf statDesc
    s.goes id i 0x14 .started j c ∧ s.streamOwned (le c.desc 16 1 % 128) j.stall = true ∧ s.statsAt j c.desc = .gone := by decide

theorem met_PublishStatsAndSensors_17 :
    let s : State := (live.withJob (jobWith [cmdOf statDesc])).regsSet [(Reg.ING_STR_CTRL 3, 0x82000000)]
    let id : Nat := 7
    let i : Nat := 0
    let j : Job := jobWith [cmdOf statDesc]
    let c : Cmd := cmdOf statDesc
    s.goes id i 0x14 .started j c ∧ s.streamOwned (le c.desc 16 1 % 128) j.stall = true ∧ s.statsAt j c.desc = .wait := by decide

theorem met_PublishStatsAndSensors_18 :
    let s : State := live.withJob (jobWith [cmdOf statDesc])
    let id : Nat := 7
    let i : Nat := 0
    let j : Job := jobWith [cmdOf statDesc]
    let c : Cmd := cmdOf statDesc
    let n : Nat := le c.desc 16 1 % 128
    s.goes id i 0x14 .started j c ∧ s.streamOwned n j.stall = false := by decide

theorem met_PublishStatsAndSensors_19 :
    let s : State := (live.withJob (jobWith [goingOf statDesc])).regsSet [(Reg.ING_STR_CTRL 3, 0x82000000), (Reg.ING_STR_FRAME 3, 11)]
    let id : Nat := 7
    let i : Nat := 0
    let j : Job := jobWith [goingOf statDesc]
    let c : Cmd := goingOf statDesc
    s.goes id i 0x14 .running j c ∧ s.streamOwned (le c.desc 16 1 % 128) j.stall = true ∧ s.statsAt j c.desc = .gone := by decide

theorem met_PublishStatsAndSensors_20 :
    let s : State := (live.withJob (jobWith [goingOf statDesc])).regsSet [(Reg.ING_STR_CTRL 3, 0x82000000)]
    let id : Nat := 7
    let i : Nat := 0
    let j : Job := jobWith [goingOf statDesc]
    let c : Cmd := goingOf statDesc
    s.goes id i 0x14 .running j c ∧ s.streamOwned (le c.desc 16 1 % 128) j.stall = true ∧ s.statsAt j c.desc = .wait := by decide

theorem met_PublishStatsAndSensors_21 :
    let s : State := live.withJob (jobWith [goingOf statDesc])
    let id : Nat := 7
    let i : Nat := 0
    let j : Job := jobWith [goingOf statDesc]
    let c : Cmd := goingOf statDesc
    let n : Nat := le c.desc 16 1 % 128
    s.goes id i 0x14 .running j c ∧ s.streamOwned n j.stall = false := by decide

theorem met_PublishStatsAndSensors_22 :
    let s : State := ((live.withJob (jobWith [cmdOf sensDesc])).regsSet [(Reg.ING_STR_CTRL 3, 0x82000000)]).updStream 3 (fun z => { z with queue := List.replicate 16 setting9 })
    let id : Nat := 7
    let i : Nat := 0
    let j : Job := jobWith [cmdOf sensDesc]
    let c : Cmd := cmdOf sensDesc
    let x : SensD := sensD c.desc
    let n : Nat := x.stream
    s.goes id i 0x15 .started j c ∧ (s.streams.length = 128 ∧ n < 128 ∧ s.streamOwned n j.stall = true) ∧ 16 ≤ (s.stream n).queue.length := by decide +kernel

theorem met_PublishStatsAndSensors_23 :
    let s : State := (live.withJob (jobWith [cmdOf sensDesc])).regsSet [(Reg.ING_STR_CTRL 3, 0x82000000), (Reg.ING_STR_FRAME 3, 20)]
    let id : Nat := 7
    let i : Nat := 0
    let j : Job := jobWith [cmdOf sensDesc]
    let c : Cmd := cmdOf sensDesc
    let x : SensD := sensD c.desc
    let n : Nat := x.stream
    let aim : Nat := (if x.rel then ((s.firedFrame j n).elim 0 (·.1) + x.target) % 2 ^ 32 else x.target)
    let late : Bool := decide (ahead (aim + 2 ^ 32 - s.strLatency n + 1) (s.frameCount n) ≤ 0)
    s.goes id i 0x15 .started j c ∧ (s.streams.length = 128 ∧ n < 128 ∧ s.streamOwned n j.stall = true) ∧ (s.stream n).queue.length < 16 ∧ (late = true ∧ x.late = false) := by decide +kernel

theorem met_PublishStatsAndSensors_24 :
    let s : State := live.withJob (jobWith [cmdOf sensDesc])
    let id : Nat := 7
    let i : Nat := 0
    let j : Job := jobWith [cmdOf sensDesc]
    let c : Cmd := cmdOf sensDesc
    let x : SensD := sensD c.desc
    let n : Nat := x.stream
    s.goes id i 0x15 .started j c ∧ s.streamOwned n j.stall = false := by decide

theorem met_PublishStatsAndSensors_25 :
    let s : State := ((live.withJob (jobWith [goingOf sensDesc])).regsSet [(Reg.ING_STR_CTRL 3, 0x82000000)]).updStream 3 (fun z => { z with queue := List.replicate 16 setting9 })
    let id : Nat := 7
    let i : Nat := 0
    let j : Job := jobWith [goingOf sensDesc]
    let c : Cmd := goingOf sensDesc
    let x : SensD := sensD c.desc
    let n : Nat := x.stream
    s.goes id i 0x15 .running j c ∧ (s.streams.length = 128 ∧ n < 128 ∧ s.streamOwned n j.stall = true) ∧ 16 ≤ (s.stream n).queue.length := by decide +kernel

theorem met_PublishStatsAndSensors_26 :
    let s : State := (live.withJob (jobWith [goingOf sensDesc])).regsSet [(Reg.ING_STR_CTRL 3, 0x82000000), (Reg.ING_STR_FRAME 3, 20)]
    let id : Nat := 7
    let i : Nat := 0
    let j : Job := jobWith [goingOf sensDesc]
    let c : Cmd := goingOf sensDesc
    let x : SensD := sensD c.desc
    let n : Nat := x.stream
    let aim : Nat := (if x.rel then ((s.firedFrame j n).elim 0 (·.1) + x.target) % 2 ^ 32 else x.target)
    let late : Bool := decide (ahead (aim + 2 ^ 32 - s.strLatency n + 1) (s.frameCount n) ≤ 0)
    s.goes id i 0x15 .running j c ∧ (s.streams.length = 128 ∧ n < 128 ∧ s.streamOwned n j.stall = true) ∧ (s.stream n).queue.length < 16 ∧ (late = true ∧ x.late = false) := by decide +kernel

theorem met_PublishStatsAndSensors_27 :
    let s : State := live.withJob (jobWith [goingOf sensDesc])
    let id : Nat := 7
    let i : Nat := 0
    let j : Job := jobWith [goingOf sensDesc]
    let c : Cmd := goingOf sensDesc
    let x : SensD := sensD c.desc
    let n : Nat := x.stream
    s.goes id i 0x15 .running j c ∧ s.streamOwned n j.stall = false := by decide

theorem met_StallsAreAdmitted_1 :
    let s : State := live.regsSet [(Reg.SCH_STALL_CORES 2, 16), (Reg.SCH_STALL_CARVE 2, 4)]
    let t : Tag := tag0
    let n : StallId := 2
    let v : Word := 0x40000005#32
    let c : Nat := Reg.SCH_STALL_CTRL n.val
    let a : Nat × State := (s.storeReg t.stall.val c (v ||| 0x80000000#32)).admitStall n.val
    s.grants t 0 c (v ||| 0x80000000#32) ∧ (n.val ≠ 0 ∧ s.bit c 31 = false ∧ v.getLsbD 29 = false) := by decide

theorem met_StallsAreAdmitted_1b :
    let s : State := live
    let t : Tag := tag0
    let n : StallId := 15
    let v : Word := 0#32
    let c : Nat := Reg.SCH_STALL_CTRL n.val
    let a : Nat × State := (s.storeReg t.stall.val c (v ||| 0x80000000#32)).admitStall n.val
    s.grants t 0 c (v ||| 0x80000000#32) ∧ (n.val ≠ 0 ∧ s.bit c 31 = false ∧ v.getLsbD 29 = false) := by decide

theorem met_StallsAreAdmitted_2 :
    let s : State := live
    let t : Tag := tag0
    let v : Word := 5#32
    s.grants t 0 (Reg.SCH_STALL_CTRL 0) (v ||| 0x80000000#32) := by decide

theorem met_StallsAreAdmitted_3 :
    let s : State := (live.updSched fun c => { c with carves := [(3, 4, false, 0), (15, 5, true, 1)] }).regsSet [(Reg.SCH_STALL_CTRL 15, 0x80000005)]
    let t : Tag := tag0
    let n : StallId := 15
    let v : Word := 0x40000005#32
    let c : Nat := Reg.SCH_STALL_CTRL n.val
    s.grants t 0 c (v &&& ~~~0x80000000#32) ∧ (n.val ≠ 0 ∧ s.bit c 31 = true ∧ v.getLsbD 29 = false) := by decide

theorem met_StallsAreAdmitted_4 :
    let s : State := (live.updSched fun c => { c with releasing := [3], oldCarves := [(3, 4, false, 0)] }).wr (Reg.BT_CARVE 4 0) 0x83000000#32
    let n : StallId := 3
    (n.val ∈ s.sch.releasing ∧ s.placedWork n.val = false) := by decide

theorem met_StallsAreAdmitted_5 :
    let s : State := ((heldBy [cmdNew waitDesc, { cmdNew resetDesc with stage := .running, began := true }]).updGraph 5 (fun g => { g with pend := some (3, []) })).wr (Reg.SCH_GRAPH_CTRL 5) 0x80200001#32
    let t : Tag := tag0
    let n : StallId := 2
    let v : Word := 0x80000001#32
    s.grants t 0 (Reg.SCH_STALL_CTRL n.val) (v ||| 0x20000000#32) ∧ n.val ≠ 0 := by decide

theorem met_StallsAreAdmitted_6 :
    let s : State := live
    let t : Tag := tag0
    let n : StallId := 15
    let v : Word := 0#32
    let c : Nat := Reg.SCH_STALL_CTRL n.val
    s.grants t 0 c (v ||| 0x80000000#32) ∧ (n.val ≠ 0 ∧ s.bit c 31 = false ∧ v.getLsbD 29 = false) ∧ (bits v.toNat 9 0 = 0 ∨ 1000 < bits v.toNat 9 0 ∨ 237500 < s.allow n.val) := by decide

theorem met_StallsAreAdmitted_7 :
    let s : State := live
    let n : StallId := 3
    (n.val ∉ s.sch.releasing ∨ s.placedWork n.val = true) := by decide

theorem met_StallsAreAdmitted_8 :
    let s : State := (live.updSched fun c => { c with releasing := [3], oldCarves := [(3, 4, false, 0)] }).wr (Reg.BT_CARVE 4 0) 0x83000000#32
    let n : StallId := 3
    let e : Nat × Nat × Bool × Nat := (3, 4, false, 0)
    (n.val ∈ s.sch.releasing ∧ s.placedWork n.val = false) ∧ (e ∈ s.sch.oldCarves ∧ e.1 = n.val) := by decide

theorem met_StallsAreAdmitted_9 :
    let s : State := ((heldBy [cmdNew waitDesc, { cmdNew resetDesc with stage := .running, began := true }]).updGraph 5 (fun g => { g with pend := some (3, []) })).wr (Reg.SCH_GRAPH_CTRL 5) 0x80200001#32
    let t : Tag := tag0
    let n : StallId := 2
    let v : Word := 0x80000001#32
    let g : GraphId := 5
    s.grants t 0 (Reg.SCH_STALL_CTRL n.val) (v ||| 0x20000000#32) ∧ n.val ≠ 0 ∧ s.graphStall g.val = n.val := by decide

theorem met_StallsAreAdmitted_10 :
    let s : State := ((heldBy [cmdNew waitDesc, { cmdNew resetDesc with stage := .running, began := true }]).updGraph 5 (fun g => { g with pend := some (3, []) })).wr (Reg.SCH_GRAPH_CTRL 5) 0x80200001#32
    let t : Tag := tag0
    let n : StallId := 2
    let v : Word := 0x80000001#32
    s.grants t 0 (Reg.SCH_STALL_CTRL n.val) (v ||| 0x20000000#32) ∧ n.val ≠ 0 ∧ s.cmd.after = [] := by decide

theorem met_StallsAreAdmitted_11 :
    let s : State := (live.wr (Reg.ING_STR_CTRL 3) 0x82000000#32).updStream 3 (fun x => { x with queue := [setting9] })
    let t : Tag := tag0
    let n : StallId := 2
    let v : Word := 0x80000001#32
    let k : StreamId := 3
    s.grants t 0 (Reg.SCH_STALL_CTRL n.val) (v ||| 0x20000000#32) ∧ n.val ≠ 0 ∧ s.fld (Reg.ING_STR_CTRL k.val) 27 24 = n.val := by decide

theorem met_GraphsLoadAndFire_1 :
    let s : State := graphFile
    let t : Tag := tag0
    let m : BitVec 16 := 5
    let n : GraphId := 5
    let v : Word := 0x00200001#32
    let r : Nat := Reg.SCH_GRAPH_CTRL n.val
    let l : Nat × List Node × Option (List Task) × State := (((s.storeReg t.stall.val r (v ||| 0x80000000#32)).setBit r 31 false).updSched fun c => { c with tasks := c.tasks.filter fun z => z.graph != n.val }).loadGraph n.val
    s.grants t m.toNat r (v ||| 0x80000000#32) ∧ (s.bit r 31 = false ∧ s.graphs.length = 64) ∧ l.1 = 0 := by decide +kernel

theorem met_GraphsLoadAndFire_2 :
    let s : State := ((live.updGraph 63 (fun g => { g with pend := some (3, []) })).wr (Reg.SCH_GRAPH_CTRL 63) 0xC0000001#32).updBar (fun b => { b with owner := some 5 })
    let t : Tag := tag0
    let m : BitVec 16 := 5
    let n : GraphId := 63
    let v : Word := 0x00200007#32
    let r : Nat := Reg.SCH_GRAPH_CTRL n.val
    s.grants t m.toNat r (v &&& ~~~0x80000000#32) ∧ (s.bit r 31 = true ∧ s.graphs.length = 64) := by decide

theorem met_GraphsLoadAndFire_3 :
    let s : State := (live.wr Reg.FW_STATUS 127#32).updGraph 63 (fun g => { g with heldFire := some (0, [(1, 2, 3)]) })
    let n : GraphId := 63
    let due : Nat := 0
    let frames : List (Nat × Nat × Nat) := [(1, 2, 3)]
    let g : Graph := s.graph n.val
    g.heldFire = some (due, frames) ∧ (s.schedUp = true ∧ due ≤ s.refNs) ∧ (g.pend = none ∧ g.insts.length < s.instLimit n.val) := by decide

theorem met_GraphsLoadAndFire_4 :
    let s : State := (live.wr Reg.FW_STATUS 127#32).updGraph 63 (fun g => { g with pend := some (9, [(1, 2, 3)]) })
    let n : GraphId := 63
    let at_ : Nat := 9
    let frames : List (Nat × Nat × Nat) := [(1, 2, 3)]
    let g : Graph := s.graph n.val
    g.pend = some (at_, frames) ∧ (s.schedUp = true ∧ g.insts.length < s.instLimit n.val) := by decide

theorem met_GraphsLoadAndFire_5 :
    let s : State := graphUp
    let n : GraphId := 5
    let inst : Nat := 3
    let node : Nat := 0
    let g : Nat := 4
    let i : Inst := { id := 3, fired := 7, frames := [] }
    let x : Node := graphNode
    let j : Job := nodeJob0
    let s1 : State := s.makeNodeJob n.val i node x
    (s.inst? n.val inst = some i ∧ (s.instNodes n.val i)[node]? = some x) ∧ (s.schedUp = true ∧ s.stallEnabled (s.instStall n.val i) = true) ∧ (i.missed = false ∧ node ∉ i.missedNodes ∧ node ∉ i.placed) ∧ (x.deps.all fun d => (s.nodeJob n.val inst d).any Job.passed) = true ∧ (s1.nodeJob n.val inst node = some j ∧ s1.job? j.id = some j ∧ j.phase = .accepted ∧ j.ended = false) ∧ (s1.instHome n.val i node = some g ∧ s1.openCore g = true) ∧ (s1.candidates j.stall j.coreMask (j.cmds.map (·.desc)) ≠ [] ∧ s1.firstBad g j = none) := by decide

theorem met_GraphsLoadAndFire_6 :
    let s : State := graphUp.withJob { nodeJob0 with phase := .placed, cmds := [{ cmdNew waitDesc with stage := .done, status := 0x22 }] }
    let n : GraphId := 5
    let inst : Nat := 3
    let k : Nat := 0
    let i : Inst := { id := 3, fired := 7, frames := [] }
    let s1 : State := s.settleInst n.val i
    let o : Nat := (decideStatus (i.missed || !i.missedNodes.isEmpty) (s1.instCmds n.val i)).1
    s.inst? n.val inst = some i ∧ (s.schedUp = true ∧ s1.instEnded n.val i = true) := by decide

theorem met_GraphsLoadAndFire_6b :
    let s : State := graphUp.withJob { nodeJob0 with phase := .placed, cmds := [{ cmdNew waitDesc with stage := .done, status := 0 }] }
    let n : GraphId := 5
    let inst : Nat := 3
    let k : Nat := 0
    let i : Inst := { id := 3, fired := 7, frames := [] }
    let s1 : State := s.settleInst n.val i
    let o : Nat := (decideStatus (i.missed || !i.missedNodes.isEmpty) (s1.instCmds n.val i)).1
    s.inst? n.val inst = some i ∧ (s.schedUp = true ∧ s1.instEnded n.val i = true) := by decide

theorem met_GraphsLoadAndFire_7 :
    let s : State := { graphUp with refNs := 5000007 }
    let n : GraphId := 5
    let inst : Nat := 3
    let k : Nat := 0
    let i : Inst := { id := 3, fired := 7, frames := [] }
    let x : Node := graphNode
    (s.inst? n.val inst = some i ∧ (s.instNodes n.val i)[k]? = some x) ∧ s.deadlineStall (s.instStall n.val i) = true ∧ (i.fired + x.dlUs * 1000 ≤ s.refNs ∧ k ∉ i.missedNodes ∧ i.missed = false ∧ (s.nodeJob n.val inst k).any Job.ended = false) := by decide

theorem met_GraphsLoadAndFire_8 :
    let s : State := { graphUp with refNs := 5000007 }
    let n : GraphId := 5
    let inst : Nat := 3
    let i : Inst := { id := 3, fired := 7, frames := [] }
    s.inst? n.val inst = some i ∧ s.deadlineStall (s.instStall n.val i) = true ∧ (i.fired + s.instDl n.val i * 1000 ≤ s.refNs ∧ i.missed = false ∧ s.instEnded n.val i = false) := by decide

theorem met_GraphsLoadAndFire_9 :
    let s : State := live.updBar (fun b => { b with owner := some 5 })
    let t : Tag := tag0
    let m : BitVec 16 := 5
    let n : GraphId := 63
    let v : Word := 0x00200001#32
    let r : Nat := Reg.SCH_GRAPH_CTRL n.val
    let l : Nat × List Node × Option (List Task) × State := (((s.storeReg t.stall.val r (v ||| 0x80000000#32)).setBit r 31 false).updSched fun c => { c with tasks := c.tasks.filter fun z => z.graph != n.val }).loadGraph n.val
    s.grants t m.toNat r (v ||| 0x80000000#32) ∧ (s.bit r 31 = false ∧ s.graphs.length = 64) ∧ l.1 ≠ 0 := by decide

theorem met_GraphsLoadAndFire_9b :
    let s : State := live.updBar (fun b => { b with owner := some 5 })
    let t : Tag := tag0
    let m : BitVec 16 := 5
    let n : GraphId := 0
    let v : Word := 0x00000001#32
    let r : Nat := Reg.SCH_GRAPH_CTRL n.val
    let l : Nat × List Node × Option (List Task) × State := (((s.storeReg t.stall.val r (v ||| 0x80000000#32)).setBit r 31 false).updSched fun c => { c with tasks := c.tasks.filter fun z => z.graph != n.val }).loadGraph n.val
    s.grants t m.toNat r (v ||| 0x80000000#32) ∧ (s.bit r 31 = false ∧ s.graphs.length = 64) ∧ l.1 ≠ 0 := by decide

theorem met_GraphsLoadAndFire_10 :
    let s : State := live.updBar (fun b => { b with owner := some 5 })
    let t : Tag := tag0
    let m : BitVec 16 := 5
    let n : GraphId := 63
    let v : Word := 0x00200001#32
    let r : Nat := Reg.SCH_GRAPH_CTRL n.val
    s.grants t m.toNat r (v ||| 0x80000000#32) ∧ (s.bit r 31 = false ∧ s.graphs.length = 64) ∧ s.stallEnabled (bits v.toNat 23 20) = false := by decide

theorem met_GraphsLoadAndFire_11 :
    let s : State := (live.wr Reg.FW_STATUS 127#32).updGraph 63 (fun g => { g with heldFire := some (0, [(1, 2, 3)]), insts := [{ id := 4, fired := 0, frames := [] }] })
    let n : GraphId := 63
    let due : Nat := 0
    let frames : List (Nat × Nat × Nat) := [(1, 2, 3)]
    let g : Graph := s.graph n.val
    g.heldFire = some (due, frames) ∧ (s.schedUp = true ∧ due ≤ s.refNs) ∧ (g.pend = none ∧ s.instLimit n.val ≤ g.insts.length) := by decide

theorem met_GraphsLoadAndFire_12 :
    let s : State := (live.wr Reg.FW_STATUS 127#32).updGraph 63 (fun g => { g with heldFire := some (0, [(1, 2, 3)]), pend := some (0, []), insts := [{ id := 4, fired := 0, frames := [] }] })
    let n : GraphId := 63
    let due : Nat := 0
    let frames : List (Nat × Nat × Nat) := [(1, 2, 3)]
    let g : Graph := s.graph n.val
    g.heldFire = some (due, frames) ∧ (s.schedUp = true ∧ due ≤ s.refNs) ∧ g.pend.isSome = true := by decide

theorem met_GraphsLoadAndFire_12b :
    let s : State := (live.wr Reg.FW_STATUS 127#32).updGraph 63 (fun g => { g with heldFire := some (0, [(1, 2, 3)]), pend := some (0, []) })
    let n : GraphId := 63
    let due : Nat := 0
    let frames : List (Nat × Nat × Nat) := [(1, 2, 3)]
    let g : Graph := s.graph n.val
    g.heldFire = some (due, frames) ∧ (s.schedUp = true ∧ due ≤ s.refNs) ∧ g.pend.isSome = true := by decide

theorem met_GraphsLoadAndFire_13 :
    let s : State := graphUp.withJob { nodeJob0 with phase := .placed, cmds := [{ cmdNew waitDesc with stage := .done, status := 0 }] }
    let n : GraphId := 5
    let inst : Nat := 3
    let k : Nat := 0
    let i : Inst := { id := 3, fired := 7, frames := [] }
    let s1 : State := s.settleInst n.val i
    s.inst? n.val inst = some i ∧ (s.schedUp = true ∧ s1.instEnded n.val i = true) ∧ s.instFailed n.val i = false := by decide

theorem met_PreemptionSpillsAndSlices_1 :
    let s : State := twoJobs
    let g : CoreId := 4
    let id : Nat := 7
    let j : Job := { placedJob [cmdNew poolDesc] with core := 4 }
    let v : Job := lowJob
    s.job? id = some j ∧ (s.schedUp = true ∧ s.sch.preempt.length = 32 ∧ s.sch.preempt.getD g.val none = none) ∧ (j.phase = .placed ∧ j.core = g.val ∧ j.preempted = false ∧ s.eligible j = true) ∧ s.victimOn g.val (s.rank j) (fun _ => true) = some v := by decide

theorem met_PreemptionSpillsAndSlices_2 :
    let s : State := overlapJobs none
    let g : CoreId := 4
    let id : Nat := 7
    let j : Job := moveJob
    let v : Nat := 9
    let l : List (Nat × Nat) := [(boltAddr 4 0x100, 8)]
    let rest : List (Nat × List (Nat × Nat)) := []
    s.job? id = some j ∧ (s.schedUp = true ∧ s.sch.preempt.length = 32 ∧ s.sch.preempt.getD g.val none = none) ∧ (j.phase = .placed ∧ j.core = g.val ∧ j.preempted = false ∧ s.eligible j = true) ∧ (s.victimOn g.val (s.rank j) (fun _ => true) = none ∧ s.spillDue j = (v, l) :: rest) := by decide

theorem met_PreemptionSpillsAndSlices_3 :
    let s : State := { twoJobs.setPreempt 4 (some { victim := 9, winner := none, since := 0 }) with refNs := 1000 }
    let g : CoreId := 4
    let p : Preempt := { victim := 9, winner := none, since := 0 }
    let v : Job := lowJob
    s.sch.preempt.getD g.val none = some p ∧ s.job? p.victim = some v ∧ (p.spilling = false ∧ (s.core g.val).pass = none ∧ v.cmds.all (s.atBoundary v) = true) ∧ v.cmds.any (fun c => c.stage = .running && opcodeOf c.desc == 2) = false ∧ (p.winner = none ∧ p.waits = false) := by decide

theorem met_PreemptionSpillsAndSlices_4 :
    let s : State := spillUp (some { victim := 9, winner := some 7, since := 0, spilling := true })
    let g : CoreId := 4
    let p : Preempt := { victim := 9, winner := some 7, since := 0, spilling := true }
    let w : Nat := 7
    let j : Job := moveJob
    let v : Job := stoppedJob
    let s1 : State := s.setPreempt g.val none
    let l : List (Nat × Nat × Nat) := (((s1.spillDue j).find? fun x => x.1 == v.id).elim [] (·.2)).map fun x => (x.1, x.2, s1.spillPlace v.stall g.val x.1)
    let r : Option (Nat × Nat) × State := spillAll (s1.tagOf v.stall (unitSrc g.val 5)) l s1
    s.sch.preempt.getD g.val none = some p ∧ (p.spilling = true ∧ p.winner = some w) ∧ (s.job? w = some j ∧ s.job? p.victim = some v) ∧ r.1 = none := by decide

theorem met_PreemptionSpillsAndSlices_5 :
    let s : State := placeWith { stoppedJob with stall := 2 }
    let g : CoreId := 4
    let id : Nat := 9
    let v : Job := { stoppedJob with stall := 2 }
    let s0 : State := if s.rank v = 4 then s.grantSlice g.val else s
    let l : List (Nat × Nat × Nat) := v.spilled.map fun x => (x.2.2, x.2.1, x.1)
    let r : Option (Nat × Nat) × State := spillAll (s0.tagOf v.stall (unitSrc g.val 5)) l s0
    s.job? id = some v ∧ (s.schedUp = true ∧ v.preempted = true ∧ v.phase = .placed ∧ v.core = g.val) ∧ (s0.jobsOn g.val).any (fun k => s0.rank k < s0.rank v && (s0.eligible k || k.holdsUnits)) = false ∧ (s0.rank v != 4 || (s0.sch.slice.getD g.val none).any fun x => x.1 == v.stall) = true ∧ (s.sch.preempt.getD g.val none = none ∧ (s.core g.val).testing = false) ∧ (s0.sound g.val = true ∧ s0.clusterUp (g.val / 8) = true ∧ unitsFit (s0.unitsUsed g.val) (s0.resumeNeed v) = true) ∧ v.decryptSeats.any (s0.seated g.val 3).contains = false ∧ r.1 = none := by decide

theorem met_PreemptionSpillsAndSlices_5b :
    let s : State := placeWith stoppedJob
    let g : CoreId := 4
    let id : Nat := 9
    let v : Job := stoppedJob
    let s0 : State := if s.rank v = 4 then s.grantSlice g.val else s
    let l : List (Nat × Nat × Nat) := v.spilled.map fun x => (x.2.2, x.2.1, x.1)
    let r : Option (Nat × Nat) × State := spillAll (s0.tagOf v.stall (unitSrc g.val 5)) l s0
    s.job? id = some v ∧ (s.schedUp = true ∧ v.preempted = true ∧ v.phase = .placed ∧ v.core = g.val) ∧ (s0.jobsOn g.val).any (fun k => s0.rank k < s0.rank v && (s0.eligible k || k.holdsUnits)) = false ∧ (s0.rank v != 4 || (s0.sch.slice.getD g.val none).any fun x => x.1 == v.stall) = true ∧ (s.sch.preempt.getD g.val none = none ∧ (s.core g.val).testing = false) ∧ (s0.sound g.val = true ∧ s0.clusterUp (g.val / 8) = true ∧ unitsFit (s0.unitsUsed g.val) (s0.resumeNeed v) = true) ∧ v.decryptSeats.any (s0.seated g.val 3).contains = false ∧ r.1 = none := by decide

theorem met_PreemptionSpillsAndSlices_6 :
    let s : State := (placeWith { lowJob with cmds := [] }).updSched (fun c => { c with slice := c.slice.set 4 (some (6, 9500)) })
    let g : CoreId := 4
    let steps : Nat := 9500
    let n : Nat := 6
    let k : Nat := 9500
    let s1 : State := (s.updSched fun c => { c with slice := c.slice.set g.val none }).grantSlice g.val
    s.sch.slice.getD g.val none = some (n, k) ∧ (s.schedUp = true ∧ k ≤ steps) := by decide

theorem met_PreemptionSpillsAndSlices_7 :
    let s : State := sliceJobs
    let g : CoreId := 4
    let steps : Nat := 9500
    let n : Nat := 6
    let k : Nat := 9500
    let m : Nat × Nat := (3, 9500)
    let v : Job := lowJob
    let w : Job := midJob
    let s1 : State := (s.updSched fun c => { c with slice := c.slice.set g.val none }).grantSlice g.val
    s.sch.slice.getD g.val none = some (n, k) ∧ (s.schedUp = true ∧ k ≤ steps) ∧ (s1.sch.slice.getD g.val none = some m ∧ m.1 ≠ n ∧ s1.sch.preempt.getD g.val none = none) ∧ s1.victimOn g.val 3 (fun z => z.stall != m.1) = some v ∧ (s1.jobsOn g.val).find? (fun z => z.stall == m.1 && s1.eligible z) = some w := by decide

theorem met_PreemptionSpillsAndSlices_8 :
    let s : State := { twoJobs.setPreempt 4 (some { victim := 9, winner := none, since := 0, waits := true }) with refNs := 1000 }
    let g : CoreId := 4
    let p : Preempt := { victim := 9, winner := none, since := 0, waits := true }
    let v : Job := lowJob
    let d : Nat := (s.refNs - p.since) * 950 / 1000
    s.sch.preempt.getD g.val none = some p ∧ s.job? p.victim = some v ∧ (p.spilling = false ∧ (s.core g.val).pass = none ∧ v.cmds.all (s.atBoundary v) = true) ∧ v.cmds.any (fun c => c.stage = .running && opcodeOf c.desc == 2) = false ∧ (p.winner = none ∧ p.waits = true) := by decide

theorem met_PreemptionSpillsAndSlices_9 :
    let s : State := { twoJobs.setPreempt 4 (some { victim := 9, winner := some 7, since := 0, waits := true }) with refNs := 1000 }
    let g : CoreId := 4
    let p : Preempt := { victim := 9, winner := some 7, since := 0, waits := true }
    let v : Job := lowJob
    s.sch.preempt.getD g.val none = some p ∧ s.job? p.victim = some v ∧ (p.spilling = false ∧ (s.core g.val).pass = none ∧ v.cmds.all (s.atBoundary v) = true) ∧ p.winner.isSome = true := by decide

theorem met_PreemptionSpillsAndSlices_10 :
    let s : State := { (pausedConv.setPreempt 4 (some { victim := 9, winner := none, since := 0 })).wr (Reg.WF_STATUS 4) 0x80000000#32 with refNs := 1000 }
    let g : CoreId := 4
    let p : Preempt := { victim := 9, winner := none, since := 0 }
    let v : Job := convJob9
    s.sch.preempt.getD g.val none = some p ∧ s.job? p.victim = some v ∧ (p.spilling = false ∧ (s.core g.val).pass = none ∧ v.cmds.all (s.atBoundary v) = true) ∧ v.cmds.any (fun c => c.stage = .running && opcodeOf c.desc == 2) = true := by decide

theorem met_PreemptionSpillsAndSlices_11 :
    let s : State := overlapJobs (some { victim := 9, winner := some 7, since := 0, spilling := true })
    let g : CoreId := 4
    let p : Preempt := { victim := 9, winner := some 7, since := 0, spilling := true }
    let w : Nat := 7
    let st : Nat := St.FIREWALL
    let a : Nat := 0x1100100
    let j : Job := moveJob
    let v : Job := stoppedJob
    let s1 : State := s.setPreempt g.val none
    let l : List (Nat × Nat × Nat) := (((s1.spillDue j).find? fun x => x.1 == v.id).elim [] (·.2)).map fun x => (x.1, x.2, s1.spillPlace v.stall g.val x.1)
    let r : Option (Nat × Nat) × State := spillAll (s1.tagOf v.stall (unitSrc g.val 5)) l s1
    s.sch.preempt.getD g.val none = some p ∧ (p.spilling = true ∧ p.winner = some w) ∧ (s.job? w = some j ∧ s.job? p.victim = some v) ∧ r.1 = some (st, a) := by decide

theorem met_PreemptionSpillsAndSlices_12 :
    let s : State := spillUp (some { victim := 9, winner := some 7, since := 0, spilling := true })
    let g : CoreId := 4
    let p : Preempt := { victim := 9, winner := some 7, since := 0, spilling := true }
    let w : Nat := 7
    let src : Nat := boltAddr 4 0x100
    let n : Nat := 8
    let j : Job := moveJob
    let v : Job := stoppedJob
    let s1 : State := s.setPreempt g.val none
    let place : Nat := s1.spillPlace v.stall g.val src
    let tag : Tag := s1.tagOf v.stall (unitSrc g.val 5)
    s.sch.preempt.getD g.val none = some p ∧ (p.spilling = true ∧ p.winner = some w) ∧ (s.job? w = some j ∧ s.job? p.victim = some v) ∧ s1.spillDue j = [(v.id, [(src, n)])] ∧ (s1.canRead true tag src n = true ∧ s1.canWrite tag place n = true) ∧ (place % 64 = src % 64 ∧ place + n ≤ 0x1000000000 ∧ 0x1000000000 ≤ src ∧ src + n ≤ 0x2000000000) := by decide

theorem met_PreemptionSpillsAndSlices_13 :
    let s : State := placeWith { stoppedJob with stall := 2, spilled := [(boltAddr 4 0x100, 8, 0x2100)] }
    let g : CoreId := 4
    let id : Nat := 9
    let v : Job := { stoppedJob with stall := 2, spilled := [(boltAddr 4 0x100, 8, 0x2100)] }
    let s0 : State := if s.rank v = 4 then s.grantSlice g.val else s
    let l : List (Nat × Nat × Nat) := v.spilled.map fun x => (x.2.2, x.2.1, x.1)
    let r : Option (Nat × Nat) × State := spillAll (s0.tagOf v.stall (unitSrc g.val 5)) l s0
    s.job? id = some v ∧ (s.schedUp = true ∧ v.preempted = true ∧ v.phase = .placed ∧ v.core = g.val) ∧ (s0.jobsOn g.val).any (fun k => s0.rank k < s0.rank v && (s0.eligible k || k.holdsUnits)) = false ∧ (s0.rank v != 4 || (s0.sch.slice.getD g.val none).any fun x => x.1 == v.stall) = true ∧ (s.sch.preempt.getD g.val none = none ∧ (s.core g.val).testing = false) ∧ (s0.sound g.val = true ∧ s0.clusterUp (g.val / 8) = true ∧ unitsFit (s0.unitsUsed g.val) (s0.resumeNeed v) = true) ∧ v.decryptSeats.any (s0.seated g.val 3).contains = false ∧ r.1.isSome = true := by decide

theorem met_PreemptionSpillsAndSlices_14 :
    let s : State := placeWith { stoppedJob with stall := 2 }
    let g : CoreId := 4
    let id : Nat := 9
    let v : Job := { stoppedJob with stall := 2 }
    let s0 : State := if s.rank v = 4 then s.grantSlice g.val else s
    s.job? id = some v ∧ (s.schedUp = true ∧ v.preempted = true ∧ v.phase = .placed ∧ v.core = g.val) ∧ (s0.jobsOn g.val).any (fun k => s0.rank k < s0.rank v && (s0.eligible k || k.holdsUnits)) = false ∧ (s0.rank v != 4 || (s0.sch.slice.getD g.val none).any fun x => x.1 == v.stall) = true ∧ (s.sch.preempt.getD g.val none = none ∧ (s.core g.val).testing = false) ∧ (s0.sound g.val = true ∧ s0.clusterUp (g.val / 8) = true ∧ unitsFit (s0.unitsUsed g.val) (s0.resumeNeed v) = true) ∧ v.decryptSeats.any (s0.seated g.val 3).contains = false ∧ v.spilled = [] := by decide

theorem met_PreemptionSpillsAndSlices_14b :
    let s : State := placeWith stoppedJob
    let g : CoreId := 4
    let id : Nat := 9
    let v : Job := stoppedJob
    let s0 : State := if s.rank v = 4 then s.grantSlice g.val else s
    s.job? id = some v ∧ (s.schedUp = true ∧ v.preempted = true ∧ v.phase = .placed ∧ v.core = g.val) ∧ (s0.jobsOn g.val).any (fun k => s0.rank k < s0.rank v && (s0.eligible k || k.holdsUnits)) = false ∧ (s0.rank v != 4 || (s0.sch.slice.getD g.val none).any fun x => x.1 == v.stall) = true ∧ (s.sch.preempt.getD g.val none = none ∧ (s.core g.val).testing = false) ∧ (s0.sound g.val = true ∧ s0.clusterUp (g.val / 8) = true ∧ unitsFit (s0.unitsUsed g.val) (s0.resumeNeed v) = true) ∧ v.decryptSeats.any (s0.seated g.val 3).contains = false ∧ v.spilled = [] := by decide

theorem met_PreemptionSpillsAndSlices_15 :
    let s : State := backUp
    let g : CoreId := 4
    let id : Nat := 9
    let src : Nat := boltAddr 4 0x100
    let n : Nat := 8
    let place : Nat := 0x100100
    let v : Job := spiltJob
    let s0 : State := if s.rank v = 4 then s.grantSlice g.val else s
    let tag : Tag := s0.tagOf v.stall (unitSrc g.val 5)
    s.job? id = some v ∧ (s.schedUp = true ∧ v.preempted = true ∧ v.phase = .placed ∧ v.core = g.val) ∧ (s0.jobsOn g.val).any (fun k => s0.rank k < s0.rank v && (s0.eligible k || k.holdsUnits)) = false ∧ (s0.rank v != 4 || (s0.sch.slice.getD g.val none).any fun x => x.1 == v.stall) = true ∧ (s.sch.preempt.getD g.val none = none ∧ (s.core g.val).testing = false) ∧ (s0.sound g.val = true ∧ s0.clusterUp (g.val / 8) = true ∧ unitsFit (s0.unitsUsed g.val) (s0.resumeNeed v) = true) ∧ v.decryptSeats.any (s0.seated g.val 3).contains = false ∧ v.spilled = [(src, n, place)] ∧ (s0.canRead true tag place n = true ∧ s0.canWrite tag src n = true) ∧ (place % 64 = src % 64 ∧ place + n ≤ 0x1000000000 ∧ boltAddr g.val 0 ≤ src ∧ src + n ≤ boltAddr g.val 0 + 0x400000) := by decide

theorem met_PreemptionSpillsAndSlices_16 :
    let s : State := (placeWith { lowJob with cmds := [] }).updSched (fun c => { c with slice := c.slice.set 4 (some (6, 9500)) })
    let g : CoreId := 4
    let steps : Nat := 9500
    let n : Nat := 6
    let k : Nat := 9500
    let s1 : State := (s.updSched fun c => { c with slice := c.slice.set g.val none }).grantSlice g.val
    s.sch.slice.getD g.val none = some (n, k) ∧ (s.schedUp = true ∧ k ≤ steps) ∧ ((s1.sch.slice.getD g.val none).all fun x => x.1 == n) = true := by decide

theorem met_PreemptionSpillsAndSlices_17 :
    let s : State := (placeWith { lowJob with cmds := [] }).updSched (fun c => { c with slice := c.slice.set 4 (some (6, 9500)) })
    let g : CoreId := 4
    let steps : Nat := 9
    let n : Nat := 6
    let k : Nat := 9500
    s.sch.slice.getD g.val none = some (n, k) ∧ steps < k := by decide

set_option maxRecDepth 100000 in
theorem met_FramesArrive_1 :
    let s : State := camReady
    let t : Tag := tag0
    let n : StreamId := 3
    let v : Word := 0x00000200#32
    let r : Nat := Reg.ING_STR_CTRL n.val
    let c : Nat × List Byte × List Byte × State := ((s.storeReg t.stall.val r (v ||| 0x80000000#32)).setBit r 31 false).checkStream n.val
    s.grants t 0 r (v ||| 0x80000000#32) ∧ (s.strOn n.val = false ∧ s.streams.length = 128) ∧ c.1 = 0 := by decide +kernel

theorem met_FramesArrive_2 :
    let s : State := camera
    let t : Tag := tag0
    let n : StreamId := 3
    let v : Word := 0x02300000#32
    let r : Nat := Reg.ING_STR_CTRL n.val
    s.grants t 0 r (v &&& ~~~0x80000000#32) ∧ (s.strOn n.val = true ∧ s.streams.length = 128) := by decide +kernel

theorem met_FramesArrive_2b :
    let s : State := midFrame
    let t : Tag := tag0
    let n : StreamId := 3
    let v : Word := 0#32
    let r : Nat := Reg.ING_STR_CTRL n.val
    s.grants t 0 r (v &&& ~~~0x80000000#32) ∧ (s.strOn n.val = true ∧ s.streams.length = 128) := by decide +kernel

theorem met_FramesArrive_3 :
    let s : State := camera
    let p : Fin 12 := 2
    (s.phase = .live ∧ s.bit (Reg.ING_CSI_CTRL p.val) 31 = true) := by decide

theorem met_FramesArrive_4 :
    let s : State := camera
    let p : Fin 12 := 2
    let vc : Fin 16 := 15
    (s.phase = .live ∧ s.bit (Reg.ING_CSI_CTRL p.val) 31 = true) := by decide

theorem met_FramesArrive_5 :
    let s : State := camera
    let p : Fin 12 := 2
    let vc : Fin 16 := 0
    let n : Nat := 3
    let k : Nat := 4
    (s.phase = .live ∧ s.bit (Reg.ING_CSI_CTRL p.val) 31 = true) ∧ (s.csiStreams p.val vc.val = [(n, 0)] ∧ s.streams.length = 128) ∧ k ≠ n ∧ ((s.stream n).cur = none ∧ (s.stream n).lastStart = none ∧ s.isp.copy = none ∧ s.isp.run = none) := by decide +kernel

theorem met_FramesArrive_6 :
    let s : State := midFrame
    let p : Fin 12 := 2
    let vc : Fin 16 := 0
    let dt : BitVec 6 := 0x2A#6
    let codes : List Nat := [1, 2, 3, 4, 5, 6, 7, 8]
    let n : Nat := 3
    let e : Nat := 0
    let k : Nat := 4
    let f : InFrame := openFrame
    (s.phase = .live ∧ s.bit (Reg.ING_CSI_CTRL p.val) 31 = true) ∧ (s.csiStreams p.val vc.val = [(n, e)] ∧ s.streams.length = 128) ∧ k ≠ n ∧ ((s.stream n).cur = some f ∧ dt ≠ 0x12#6 ∧ s.strDt n = dt.toNat ∧ s.strStagger n ≠ 1) ∧ f.rows.getD e 0 < s.strLines n := by decide +kernel

theorem met_FramesArrive_7 :
    let s : State := camera
    let p : Fin 12 := 2
    let vc : Fin 16 := 0
    let n : Nat := 3
    (s.phase = .live ∧ s.bit (Reg.ING_CSI_CTRL p.val) 31 = true) ∧ (s.csiStreams p.val vc.val = [(n, 0)] ∧ s.streams.length = 128) ∧ ((s.stream n).cur = none ∧ (s.stream n).ignoring = false ∧ (s.stream n).noStart = false) ∧ s.strDt n ≠ 0x12 := by decide +kernel

theorem met_FramesArrive_8 :
    let s : State := midFrame
    let p : Fin 12 := 2
    let vc : Fin 16 := 0
    let n : Nat := 3
    let e : Nat := 0
    let k : Nat := 4
    let f : InFrame := openFrame
    (s.phase = .live ∧ s.bit (Reg.ING_CSI_CTRL p.val) 31 = true) ∧ (s.csiStreams p.val vc.val = [(n, e)] ∧ s.streams.length = 128) ∧ k ≠ n ∧ ((s.stream n).cur = some f ∧ s.strStagger n ≠ 2) := by decide +kernel

theorem met_FramesArrive_9 :
    let s : State := camera
    let p : Fin 12 := 11
    let lane : Fin 4 := 3
    let lost : Bool := true
    (s.phase = .live ∧ s.bit (Reg.ING_CSI_CTRL p.val) 31 = true) := by decide

theorem met_FramesArrive_9b :
    let s : State := camera
    let p : Fin 12 := 2
    let lane : Fin 4 := 3
    let lost : Bool := true
    (s.phase = .live ∧ s.bit (Reg.ING_CSI_CTRL p.val) 31 = true) := by decide

theorem met_FramesArrive_10 :
    let s : State := { midFrame with refNs := 100000 }
    let n : StreamId := 3
    let f : InFrame := openFrame
    (s.stream n.val).cur = some f ∧ f.last + s.strPeriod n.val ≤ s.refNs := by decide

theorem met_FramesArrive_11 :
    let s : State := live
    let t : Tag := tag0
    let n : StreamId := 127
    let v : Word := 0#32
    let r : Nat := Reg.ING_STR_CTRL n.val
    let c : Nat × List Byte × List Byte × State := ((s.storeReg t.stall.val r (v ||| 0x80000000#32)).setBit r 31 false).checkStream n.val
    s.grants t 0 r (v ||| 0x80000000#32) ∧ (s.strOn n.val = false ∧ s.streams.length = 128) ∧ c.1 ≠ 0 := by decide +kernel

theorem met_FramesArrive_11b :
    let s : State := live.wr (Reg.ING_STR_PERIOD 0) 100#32
    let t : Tag := tag0
    let n : StreamId := 0
    let v : Word := 0x82300000#32
    let r : Nat := Reg.ING_STR_CTRL n.val
    let c : Nat × List Byte × List Byte × State := ((s.storeReg t.stall.val r (v ||| 0x80000000#32)).setBit r 31 false).checkStream n.val
    s.grants t 0 r (v ||| 0x80000000#32) ∧ (s.strOn n.val = false ∧ s.streams.length = 128) ∧ c.1 ≠ 0 := by decide +kernel

theorem met_FramesArrive_12 :
    let s : State := live
    let t : Tag := tag0
    let n : StreamId := 127
    let v : Word := 0#32
    let r : Nat := Reg.ING_STR_CTRL n.val
    s.grants t 0 r (v ||| 0x80000000#32) ∧ (s.strOn n.val = false ∧ s.streams.length = 128) ∧ (s.rd (Reg.ING_STR_PERIOD n.val)).toNat < 100 := by decide +kernel

theorem met_FramesArrive_13 :
    let s : State := camera
    let t : Tag := tag0
    let n : StreamId := 3
    let v : Word := 0x02300000#32
    let r : Nat := Reg.ING_STR_CTRL n.val
    s.grants t 0 r (v &&& ~~~0x80000000#32) ∧ (s.strOn n.val = true ∧ s.streams.length = 128) ∧ (s.stream n.val).cur = none := by decide +kernel

theorem met_FramesArrive_14 :
    let s : State := live
    let p : Fin 12 := 2
    (s.phase ≠ .live ∨ s.bit (Reg.ING_CSI_CTRL p.val) 31 = false) := by decide

theorem met_FramesArrive_15 :
    let s : State := camera
    let p : Fin 12 := 2
    let vc : Fin 16 := 15
    let e : Fin 2 := 1
    (s.phase = .live ∧ s.bit (Reg.ING_CSI_CTRL p.val) 31 = true) ∧ s.csiStreams p.val vc.val = [] := by decide

theorem met_FramesArrive_15b :
    let s : State := camera
    let p : Fin 12 := 2
    let vc : Fin 16 := 15
    let e : Fin 2 := 0
    (s.phase = .live ∧ s.bit (Reg.ING_CSI_CTRL p.val) 31 = true) ∧ s.csiStreams p.val vc.val = [] := by decide

theorem met_FramesArrive_16 :
    let s : State := (midFrame.updCur 3 fun f => { f with rows := [2, 0, 0, 0], got := 2 })
    let p : Fin 12 := 2
    let vc : Fin 16 := 0
    let dt : BitVec 6 := 0x2A#6
    let codes : List Nat := [1, 2, 3, 4, 5, 6, 7, 8]
    let n : Nat := 3
    let e : Nat := 0
    let k : Nat := 4
    let f : InFrame := { openFrame with rows := [2, 0, 0, 0], got := 2 }
    (s.phase = .live ∧ s.bit (Reg.ING_CSI_CTRL p.val) 31 = true) ∧ (s.csiStreams p.val vc.val = [(n, e)] ∧ s.streams.length = 128) ∧ k ≠ n ∧ ((s.stream n).cur = some f ∧ dt ≠ 0x12#6 ∧ s.strDt n = dt.toNat ∧ s.strStagger n ≠ 1) ∧ s.strLines n ≤ f.rows.getD e 0 := by decide +kernel

theorem met_FramesArrive_17 :
    let s : State := camera
    let p : Fin 12 := 2
    let vc : Fin 16 := 0
    let n : Nat := 3
    (s.phase = .live ∧ s.bit (Reg.ING_CSI_CTRL p.val) 31 = true) ∧ (s.csiStreams p.val vc.val = [(n, 0)] ∧ s.streams.length = 128) ∧ ((s.stream n).cur = none ∧ (s.stream n).ignoring = false ∧ (s.stream n).noStart = false) ∧ s.strStagger n ≠ 2 := by decide +kernel

theorem met_FramesArrive_18 :
    let s : State := { midFrame with refNs := 99999 }
    let n : StreamId := 3
    let f : InFrame := openFrame
    (s.stream n.val).cur = some f ∧ s.refNs < f.last + s.strPeriod n.val := by decide

theorem met_FramesAreProcessed_1 :
    let s : State := (camera.updStream 3 fun x => { x with raws := [openFrame] }).updIsp (fun i => { i with order := [3] })
    let n : Nat := 3
    let rest : List Nat := []
    let f : InFrame := openFrame
    let more : List InFrame := []
    (s.phase = .live ∧ s.isp.run = none ∧ s.isp.order = n :: rest) ∧ (s.stream n).raws = f :: more ∧ s.isp.copy.any (fun c => c.1 == n && c.2.frame % 2 == f.frame % 2) = false := by decide

theorem met_FramesAreProcessed_2 :
    let s : State := live.updIsp (fun i => { i with run := some (3, openFrame, false) })
    let n : Nat := 3
    let f : InFrame := openFrame
    s.isp.run = some (n, f, false) := by decide

theorem met_FramesAreProcessed_3 :
    let s : State := live.updIsp (fun i => { i with run := some (3, openFrame, false) })
    let n : Nat := 3
    let f : InFrame := openFrame
    let s1 : State := s.updIsp fun i => { i with run := none }
    let s2 : State := (runOn (readRaw n f) s1).2
    (s.isp.run = some (n, f, false) ∧ n < 128) ∧ ((okOf (readRaw n f) s1).isSome = true ∧ (okOf (readStatic (s2.ispTag n) f.tune) s2).isSome = true) := by decide

theorem met_FramesAreProcessed_4 :
    let s : State := (camera.wr Reg.ISP_INLINE 0x80000003#32).updStream 3 (fun x => { x with inl := some openFrame })
    let f : InFrame := openFrame
    let d : Bool := true
    let n : Nat := s.fld Reg.ISP_INLINE 6 0
    (s.stream n).inl = some f ∧ (okOf (readStatic (s.ispTag n) f.tune) s).isSome = true := by decide

theorem met_FramesAreProcessed_5 :
    let s : State := (camera.updStream 3 fun x => { x with done := [openFrame] }).updIsp (fun i => { i with hand := [3] })
    let n : StreamId := 3
    let f : InFrame := openFrame
    let more : List InFrame := []
    (s.stream n.val).done = f :: more ∧ (s.phase = .live ∧ s.isp.copy = none) ∧ (s.isp.hand.find? fun k => !(s.stream k).done.isEmpty && !s.heldStream k) = some n.val := by decide

theorem met_FramesAreProcessed_6 :
    let s : State := camera.updIsp (fun i => { i with copy := some (3, openFrame) })
    let n : StreamId := 3
    let f : InFrame := openFrame
    let s1 : State := s.updIsp fun i => { i with copy := none }
    let l : List (Nat × Nat × Nat) := s1.handBufs n.val f
    s.isp.copy = some (n.val, f) ∧ (okOf (eachDo (handOver (s1.ingTag n.val)) l) s1 = some () ∧ f.bad = false) := by decide

theorem met_FramesAreProcessed_7 :
    let s : State := camera.updStream 3 (fun x => { x with queue := [dueSet] })
    let n : StreamId := 3
    let y : Setting := dueSet
    let w : Nat × Nat × Nat := (1, 1, 7)
    let rest : List (Nat × Nat × Nat) := [(2, 1, 8)]
    (s.phase = .live ∧ s.streams.length = 128) ∧ ((s.stream n.val).settings.find? Setting.due = some y ∧ y.writes = w :: rest) ∧ ((List.range 128).any fun k => s.strCtrl k == s.strCtrl n.val && (s.stream k).settings.any Setting.busy) = false ∧ s.issuesFirst n.val = true := by decide +kernel

theorem met_FramesAreProcessed_8 :
    let s : State := camera.updStream 3 (fun x => { x with queue := [{ setting9 with phase := .onBus 0 }] })
    let n : StreamId := 3
    let y : Setting := { setting9 with phase := .onBus 0 }
    let k : Nat := 0
    s.streams.length = 128 ∧ ((s.stream n.val).settings.find? Setting.busy = some y ∧ y.phase = .onBus k) ∧ k + 1 < y.writes.length := by decide +kernel

theorem met_FramesAreProcessed_9 :
    let s : State := camera.updStream 3 (fun x => { x with queue := [{ setting9 with phase := .onBus 1 }] })
    let n : StreamId := 3
    let y : Setting := { setting9 with phase := .onBus 1 }
    let k : Nat := 1
    let w : Nat × Nat × Nat := y.writes.getD k (0, 1, 0)
    s.streams.length = 128 ∧ ((s.stream n.val).settings.find? Setting.busy = some y ∧ y.phase = .onBus k) ∧ y.writes.length ≤ k + 1 := by decide +kernel

theorem met_FramesAreProcessed_10 :
    let s : State := camera.updStream 3 (fun x => { x with queue := [{ setting9 with phase := .onBus 1 }] })
    let n : StreamId := 3
    let y : Setting := { setting9 with phase := .onBus 1 }
    let k : Nat := 1
    s.streams.length = 128 ∧ ((s.stream n.val).settings.find? Setting.busy = some y ∧ y.phase = .onBus k) ∧ y.writes.length ≤ k + 1 := by decide +kernel

theorem met_FramesAreProcessed_11 :
    let s : State := camera.updStream 3 (fun x => { x with queue := [{ setting9 with phase := .onBus 0 }] })
    let n : StreamId := 3
    let y : Setting := { setting9 with phase := .onBus 0 }
    let k : Nat := 0
    let w : Nat × Nat × Nat := y.writes.getD k (0, 1, 0)
    s.streams.length = 128 ∧ ((s.stream n.val).settings.find? Setting.busy = some y ∧ y.phase = .onBus k) ∧ k + 1 < y.writes.length := by decide +kernel

theorem met_FramesAreProcessed_12 :
    let s : State := camera.updIsp (fun i => { i with copy := some (3, { openFrame with bad := true }) })
    let n : StreamId := 3
    let f : InFrame := { openFrame with bad := true }
    let s1 : State := s.updIsp fun i => { i with copy := none }
    let l : List (Nat × Nat × Nat) := s1.handBufs n.val f
    s.isp.copy = some (n.val, f) ∧ (okOf (eachDo (handOver (s1.ingTag n.val)) l) s1 = none ∨ f.bad = true) := by decide

theorem met_FramesAreProcessed_13 :
    let s : State := camDone
    let n : StreamId := 3
    let f : InFrame := openFrame
    let a : Nat := 0x1000002000
    let b : Nat := 0x1000003000
    let len : Nat := 128
    let tag : Tag := s.ingTag n.val
    let m : Nat := roundUp len 64 + 32
    (s.isp.copy = some (n.val, f) ∧ f.bad = false) ∧ s.handBufs n.val f = [(a, b, len)] ∧ (s.canRead false tag a len = true ∧ s.canRead false tag (selvageAt a len) 32 = true) ∧ (s.canWrite tag b len = true ∧ s.canWrite tag (selvageAt b len) 32 = true) ∧ ((a + m ≤ b ∨ b + m ≤ a) ∧ a + m ≤ 0x1020000000 ∧ b + m ≤ 0x1020000000) := by decide

theorem met_FramesAreProcessed_14 :
    let s : State := (camera.updStream 3 fun x => { x with table := List.replicate 12 1 }).updIsp (fun i => { i with run := some (3, openFrame, false) })
    let n : Nat := 3
    let f : InFrame := openFrame
    let s1 : State := s.updIsp fun i => { i with run := none }
    (s.isp.run = some (n, f, false) ∧ n < 128) ∧ okOf (readRaw n f) s1 = none := by decide

theorem met_EthernetPorts_1 :
    let s : State := ((portUp0 1).updTim fun t => { t with on := true }).updQueue 1 7 (fun _ => [txFrame (some 0)])
    let p : Fin 2 := 1
    let q : Fin 8 := 7
    let x : TxFrame := txFrame (some 0)
    let rest : List TxFrame := []
    s.txQueue p.val q.val = x :: rest ∧ (x.launch.isSome = true ∧ x.due = false ∧ s.phase = .live ∧ s.actionDue (x.launch.getD 0) (s.launchAdvance p.val) = true) ∧ s.portUp p.val = true := by decide

theorem met_EthernetPorts_2 :
    let s : State := (portUp0 1).updQueue 1 7 (fun _ => [{ txFrame (some 1000) with due := true }])
    let p : PortId := 1
    let q : Nat := 7
    let qs : List Nat := []
    let x : TxFrame := { txFrame (some 1000) with due := true }
    let rest : List TxFrame := []
    (p.val < 2 ∧ s.portUp p.val = true ∧ s.macsecOn p.val = false) ∧ (s.dueQueues p.val = q :: qs ∧ s.txQueue p.val q = x :: rest) ∧ (x.late = false ∧ s.actionPast (x.launch.getD 0) (s.launchAdvance p.val) ≤ (s.rd (Reg.ETH_LATE_NS p.val)).toNat * nsUnit) := by decide

theorem met_EthernetPorts_3 :
    let s : State := (portUp0 1).updEth 1 (fun e => { e with ctrl := [.reply [1, 2]] })
    let p : PortId := 1
    let f : List Byte := [1, 2]
    (s.portUp p.val = true ∧ s.macsecOn p.val = false) ∧ (p.val < 2 ∧ s.dueQueues p.val = []) ∧ (s.ethPort p.val).ctrl.find? (s.ctlAble p.val) = some (.reply f) := by decide

theorem met_EthernetPorts_4 :
    let s : State := (portUp0 2).updEth 2 (fun e => { e with ctrl := [.reply [], .fault 5 ⟨false, 9⟩ 7 [1]] })
    let mac : Nat := 5
    let dst : HostAddr := ⟨false, 9⟩
    let port : Nat := 7
    let udp : List Byte := [1]
    s.portUp 2 = true ∧ (s.ethPort 2).ctrl.find? CtlFrame.isFault = some (.fault mac dst port udp) := by decide

theorem met_EthernetPorts_5 :
    let s : State := portUp0 2
    let p : PortId := 2
    let up : Bool := false
    let c : Nat := Reg.ETH_PORT_CTRL p.val
    (s.phase = .live ∧ s.bit c 31 = true) ∧ (s.bit c 30 = true ∧ up = false) := by decide

theorem met_EthernetPorts_6 :
    let s : State := portUp0 0
    let p : PortId := 0
    let frame : List Byte := [1]
    let f : List Byte := frame.take (frame.length - 4)
    s.portUp p.val = true ∧ (frame.length < 64 ∨ s.fld (Reg.ETH_PORT_CTRL p.val) 13 0 < frame.length ∨ le frame (frame.length - 4) 4 ≠ fcsOf f) := by decide

theorem met_EthernetPorts_7 :
    let s : State := portUp0 0
    let p : PortId := 0
    let f : List Byte := pauseFrame
    let crc : List Byte := leBytes 4 (fcsOf pauseFrame)
    (s.portUp p.val = true ∧ s.macsecOn p.val = false) ∧ (60 ≤ f.length ∧ f.length + 4 ≤ s.fld (Reg.ETH_PORT_CTRL p.val) 13 0 ∧ crc.length = 4 ∧ le crc 0 4 = fcsOf f) ∧ s.rd64 (Reg.ETH_RX_FRAMES p.val) + 1 < 2 ^ 64 ∧ (s.addressed p.val (destMac f) = false ∨ etherType f = 0x8808) := by decide +kernel

theorem met_EthernetPorts_8 :
    let s : State := (portUp0 2).updEth 2 (fun e => { e with rx := [[1], [2]] })
    let t : Tag := tag0
    let p : PortId := 2
    let v : Word := 0#32
    s.grants t 0 (Reg.ETH_MGMT_RX_STATUS p.val) (v ||| 0x40000000#32) := by decide

theorem met_EthernetPorts_9 :
    let s : State := portUp0 2
    let t : Tag := tag0
    let p : PortId := 2
    let v : Word := 508#32
    let c : Nat := Reg.ETH_MGMT_TX_CTRL p.val
    let n : Nat := bits v.toNat 9 0
    let buf : List Byte := leBytes 512 (s.rdN (Reg.ETH_MGMT_TX_DATA p.val 0) 128)
    s.grants t 0 c (v ||| 0x80000000#32) ∧ s.eth.length = 3 ∧ (s.bit c 31 = false ∧ 60 ≤ n ∧ n ≤ 508) := by decide

theorem met_EthernetPorts_10 :
    let s : State := (live.updTim fun t => { t with on := true }).updQueue 1 7 (fun _ => [txFrame (some 0)])
    let p : Fin 2 := 1
    let q : Fin 8 := 7
    let x : TxFrame := txFrame (some 0)
    let rest : List TxFrame := []
    s.txQueue p.val q.val = x :: rest ∧ (x.launch.isSome = true ∧ x.due = false ∧ s.phase = .live ∧ s.actionDue (x.launch.getD 0) (s.launchAdvance p.val) = true) ∧ s.portUp p.val = false := by decide

theorem met_EthernetPorts_11 :
    let s : State := (portUp0 1).updQueue 1 7 (fun _ => [{ txFrame (some 1000) with due := true }])
    let p : PortId := 1
    let q : Nat := 7
    let qs : List Nat := []
    let x : TxFrame := { txFrame (some 1000) with due := true }
    let rest : List TxFrame := []
    (p.val < 2 ∧ s.portUp p.val = true ∧ s.macsecOn p.val = false) ∧ (s.dueQueues p.val = q :: qs ∧ s.txQueue p.val q = x :: rest) ∧ (x.late = false ∧ s.actionPast (x.launch.getD 0) (s.launchAdvance p.val) ≤ (s.rd (Reg.ETH_LATE_NS p.val)).toNat * nsUnit) ∧ etherType x.bytes ≠ 0x88F7 := by decide

theorem met_EthernetPorts_12 :
    let s : State := (portUp0 1).updEth 1 (fun e => { e with ctrl := [.reply [1, 2]] })
    let p : PortId := 1
    let f : List Byte := [1, 2]
    (s.portUp p.val = true ∧ s.macsecOn p.val = false) ∧ (p.val < 2 ∧ s.dueQueues p.val = []) ∧ (s.ethPort p.val).ctrl.find? (s.ctlAble p.val) = some (.reply f) ∧ etherType f ≠ 0x88F7 := by decide

theorem met_EthernetPorts_13 :
    let s : State := (portUp0 0).setBit (Reg.ETH_PORT_CTRL 0) 30 false
    let p : PortId := 0
    let up : Bool := true
    let c : Nat := Reg.ETH_PORT_CTRL p.val
    (s.phase = .live ∧ s.bit c 31 = true) ∧ (s.bit c 30 = false ∧ up = true) := by decide

theorem met_EthernetPorts_14 :
    let s : State := portUp0 0
    let p : PortId := 0
    let up : Bool := true
    let c : Nat := Reg.ETH_PORT_CTRL p.val
    (s.phase = .live ∧ s.bit c 31 = true) ∧ s.bit c 30 = up := by decide

theorem met_EthernetPorts_15 :
    let s : State := portUp0 0
    let p : PortId := 0
    let f : List Byte := eapFrame
    let crc : List Byte := leBytes 4 (fcsOf eapFrame)
    (s.portUp p.val = true ∧ s.macsecOn p.val = false) ∧ (60 ≤ f.length ∧ f.length + 4 ≤ s.fld (Reg.ETH_PORT_CTRL p.val) 13 0 ∧ crc.length = 4 ∧ le crc 0 4 = fcsOf f) ∧ s.rd64 (Reg.ETH_RX_FRAMES p.val) + 1 < 2 ^ 64 ∧ (s.addressed p.val (destMac f) = true ∧ etherType f = 0x888E ∧ f.length ≤ 512) ∧ ((s.ethPort p.val).rx.length < 16 ∧ s.eth.length = 3) := by decide +kernel

theorem met_EthernetPorts_16 :
    let s : State := (portUp0 0).wr (Reg.ETH_IPV4 0) 5
    let p : PortId := 0
    let f : List Byte := arpFrame
    let crc : List Byte := leBytes 4 (fcsOf arpFrame)
    (s.portUp p.val = true ∧ s.macsecOn p.val = false) ∧ (60 ≤ f.length ∧ f.length + 4 ≤ s.fld (Reg.ETH_PORT_CTRL p.val) 13 0 ∧ crc.length = 4 ∧ le crc 0 4 = fcsOf f) ∧ s.rd64 (Reg.ETH_RX_FRAMES p.val) + 1 < 2 ^ 64 ∧ (s.addressed p.val (destMac f) = true ∧ s.isArp p.val f = true ∧ s.eth.length = 3) := by decide +kernel

theorem met_EthernetPorts_17 :
    let s : State := portUp0 2
    let t : Tag := tag0
    let p : PortId := 0
    let v : Word := 59#32
    let c : Nat := Reg.ETH_MGMT_TX_CTRL p.val
    let n : Nat := bits v.toNat 9 0
    s.grants t 0 c (v ||| 0x80000000#32) ∧ s.eth.length = 3 ∧ (s.bit c 31 = false ∧ (n < 60 ∨ 508 < n)) := by decide

theorem met_EthernetPorts_18 :
    let s : State := (portUp0 2).wr (Reg.ETH_MGMT_TX_CTRL 2) 0x80000040#32
    let t : Tag := tag0
    let p : PortId := 2
    let v : Word := 508#32
    let c : Nat := Reg.ETH_MGMT_TX_CTRL p.val
    s.grants t 0 c (v ||| 0x80000000#32) ∧ s.eth.length = 3 ∧ s.bit c 31 = true := by decide

theorem met_BilvanLinks_1 :
    let s : State := live
    let t : Tag := tag0
    let p : PortId := 2
    let v : Word := 0#32
    let c : Nat := Reg.BIL_PORT_CTRL p.val
    s.grants t 0 c (v ||| 0x80000000#32) ∧ s.bil.length = 3 ∧ s.bit c 31 = false := by decide

theorem met_BilvanLinks_2 :
    let s : State := linkUp
    let t : Tag := tag0
    let p : PortId := 1
    let v : Word := 0#32
    let c : Nat := Reg.BIL_PORT_CTRL p.val
    s.grants t 0 c (v &&& ~~~0x80000000#32) ∧ (s.bit c 31 = true ∧ s.bit c 30 = true ∧ s.bil.length = 3) := by decide

theorem met_BilvanLinks_3 :
    let s : State := live.updBil 1 (fun b => { b with training := true })
    let p : PortId := 1
    let r : TrainResult := { trained with dev := 3 }
    let e : Nat := s.trainErr p.val r
    (s.bilPort p.val).training = true ∧ e ≠ 0 ∧ (s.bilPort p.val).lastErr ≠ e := by decide

theorem met_BilvanLinks_4 :
    let s : State := live.updBil 1 (fun b => { b with training := true })
    let p : PortId := 1
    let r : TrainResult := trained
    let c : Nat := Reg.BIL_PORT_CTRL p.val
    let n : Nat := laneCount r.locked
    let hi : Nat := s.fld Reg.BIL_VERSION 15 8
    (s.bilPort p.val).training = true ∧ s.trainErr p.val r = 0 := by decide

theorem met_BilvanLinks_5 :
    let s : State := linkUp.updBil 1 (fun b => { b with retryAt := some 0 })
    let p : PortId := 1
    let d : Nat := 0
    (s.bilPort p.val).retryAt = some d ∧ (d ≤ s.refNs ∧ s.bit (Reg.BIL_PORT_CTRL p.val) 31 = true) := by decide

theorem met_BilvanLinks_6 :
    let s : State := linkUp
    let p : PortId := 1
    s.bilUp p.val = true := by decide

theorem met_BilvanLinks_7 :
    let s : State := linkUp
    let p : PortId := 1
    let seq : BitVec 12 := 2047
    let m : BilMsg := .level true
    let e : Nat := (s.bilPort p.val).expect
    let gap : Nat := (seq.toNat + 4096 - e) % 4096
    (s.bilUp p.val = true ∧ seq.toNat ≠ e) ∧ gap < 2048 := by decide

theorem met_BilvanLinks_8 :
    let s : State := linkUp
    let p : PortId := 1
    let seq : BitVec 12 := 0
    let st : StallId := 2
    let sig : BitVec 8 := 33
    let v : BitVec 64 := 9
    (s.bilUp p.val = true ∧ seq.toNat = (s.bilPort p.val).expect ∧ s.bil.length = 3) ∧ sig.toNat / 16 = st.val := by decide

theorem met_BilvanLinks_9 :
    let s : State := { linkUp.updBil 1 (fun b => { b with sent := [sentPacket 7] }) with refNs := 2000 }
    let p : PortId := 1
    let b : BilPort := s.bilPort p.val
    (s.bilUp p.val = true ∧ b.sent ≠ [] ∧ b.heard + 2000 ≤ s.refNs) ∧ b.sent.all (fun x => x.sends < 8) = true := by decide

theorem met_BilvanLinks_10 :
    let s : State := { linkUp with refNs := 16000 }
    let p : PortId := 1
    (s.bilUp p.val = true ∧ s.bit (Reg.BIL_PORT_CTRL p.val) 31 = true ∧ s.bil.length = 3) ∧ (s.bilPort p.val).heard + 16000 ≤ s.refNs := by decide

theorem met_BilvanLinks_11 :
    let s : State := { linkUp.updBil 1 (fun b => { b with sent := [sentPacket 8] }) with refNs := 2000 }
    let p : PortId := 1
    (s.bilUp p.val = true ∧ s.bit (Reg.BIL_PORT_CTRL p.val) 31 = true ∧ s.bil.length = 3) ∧ ((s.bilPort p.val).sent.any (fun x => 8 ≤ x.sends) = true ∧ (s.bilPort p.val).heard + 2000 ≤ s.refNs) := by decide

theorem met_BilvanLinks_12 :
    let s : State := linkUp.updBil 1 (fun b => { b with peer := [7#128, 8#128] })
    let t : Tag := tag0
    let p : PortId := 1
    let off : Nat := Reg.BIL_PEER_FAULT p.val
    (s.phase = .live ∧ s.regDeny t 0 off none = none) := by decide

theorem met_BilvanLinks_13 :
    let s : State := linkUp
    let t : Tag := tag0
    let p : PortId := 1
    let v : Word := 0#32
    let c : Nat := Reg.BIL_PORT_CTRL p.val
    s.grants t 0 c (v ||| 0x80000000#32) ∧ s.bil.length = 3 ∧ s.bit c 31 = true := by decide

theorem met_BilvanLinks_14 :
    let s : State := linkUp
    let t : Tag := tag0
    let p : PortId := 1
    let v : Word := 0#32
    let c : Nat := Reg.BIL_PORT_CTRL p.val
    s.grants t 0 c (v &&& ~~~0x80000000#32) ∧ (s.bit c 31 = true ∧ s.bit c 30 = true ∧ s.bil.length = 3) ∧ ((s.bilPort p.val).queue = [] ∧ (s.bilPort p.val).sent = []) := by decide

theorem met_BilvanLinks_15 :
    let s : State := live.updBil 1 (fun b => { b with training := true, lastErr := 1 })
    let p : PortId := 1
    let r : TrainResult := { trained with signal := 1 }
    let e : Nat := s.trainErr p.val r
    (s.bilPort p.val).training = true ∧ e ≠ 0 ∧ (s.bilPort p.val).lastErr = e := by decide

theorem met_BilvanLinks_16 :
    let s : State := live.updBil 1 (fun b => { b with training := true })
    let p : PortId := 1
    let r : TrainResult := trained
    let c : Nat := Reg.BIL_PORT_CTRL p.val
    let n : Nat := laneCount r.locked
    let hi : Nat := s.fld Reg.BIL_VERSION 15 8
    (s.bilPort p.val).training = true ∧ s.trainErr p.val r = 0 ∧ (n = 4 ∧ hi ≤ r.maxVer.toNat) := by decide

theorem met_BilvanLinks_17 :
    let s : State := linkUp.updBil 1 (fun b => { b with retryAt := some 1 })
    let p : PortId := 1
    let d : Nat := 1
    (s.bilPort p.val).retryAt = some d ∧ s.refNs < d := by decide

theorem met_BilvanLinks_18 :
    let s : State := live
    let p : PortId := 1
    let k : BilPacket := .bad
    s.bilUp p.val = false := by decide

theorem met_BilvanLinks_19 :
    let s : State := linkUp
    let p : PortId := 1
    let seq : BitVec 12 := 2048
    let m : BilMsg := .level true
    let e : Nat := (s.bilPort p.val).expect
    let gap : Nat := (seq.toNat + 4096 - e) % 4096
    (s.bilUp p.val = true ∧ seq.toNat ≠ e) ∧ 2048 ≤ gap := by decide

theorem met_BilvanLinks_20 :
    let s : State := linkUp
    let p : PortId := 1
    let seq : BitVec 12 := 0
    let st : StallId := 2
    let sig : BitVec 8 := 48
    let v : BitVec 64 := 9
    (s.bilUp p.val = true ∧ seq.toNat = (s.bilPort p.val).expect ∧ s.bil.length = 3) ∧ sig.toNat / 16 ≠ st.val := by decide

end
end

section
/-!
SUPPORT. The ledger's arithmetic: sums of words and of integers, and what changing one cell does to them.
-/
namespace Sys2Proof.Machine

/-! ### Sums -/

theorem sumWords_eq_sum (l : List Word) : sumWords l = l.sum := List.sum_eq_foldl.symm

theorem sumInt_eq_sum (l : List Int) : sumInt l = l.sum := List.sum_eq_foldl.symm

/-- Taking sums modulo 2^32 may be done before or after adding up. -/
theorem word_sumInt (l : List Int) : word (sumInt l) = sumWords (l.map word) := by
  rw [sumInt_eq_sum, sumWords_eq_sum]
  induction l with
  | nil => rfl
  | cons a l ih =>
    rw [List.map_cons, List.sum_cons, List.sum_cons, ← ih]
    exact BitVec.ofInt_add a l.sum

theorem foldl_eq_self {α β : Type} {f : β → α → β} {b : β} {l : List α} (h : ∀ x ∈ l, f b x = b) : l.foldl f b = b := by
  induction l with
  | nil => rfl
  | cons x l ih =>
    obtain ⟨hx, hl⟩ := List.forall_mem_cons.mp h
    rw [List.foldl_cons, hx, ih hl]

theorem sumWords_eq_zero {l : List Word} (h : ∀ x ∈ l, x = 0) : sumWords l = 0 :=
  foldl_eq_self fun x hx => by rw [h x hx]; rfl

theorem sumInt_eq_zero {l : List Int} (h : ∀ x ∈ l, x = 0) : sumInt l = 0 :=
  foldl_eq_self fun x hx => by rw [h x hx]; rfl

theorem sumInt_map_add {α : Type} (f g : α → Int) (l : List α) :
    sumInt (l.map fun x => f x + g x) = sumInt (l.map f) + sumInt (l.map g) := by
  simp only [sumInt_eq_sum]
  induction l with
  | nil => rfl
  | cons x l ih =>
    simp only [List.map_cons, List.sum_cons, ih]
    omega

theorem word_zero_add (a : Word) : 0 + a = a := BitVec.zero_add a

theorem word_sub_self (a : Word) : a - a = 0 := BitVec.sub_self a

theorem word_sub_add_sub (a s x y : Word) : a - (s + (x - y)) = a - s + (y - x) := by bv_omega

theorem word_sub_ne_zero {a b : Word} (h : a ≠ b) : a - b ≠ 0 := by bv_omega

/-! ### Reading a list past its end -/

theorem getD_of_length_le {α : Type} (d : α) {l : List α} {n : Nat} (h : l.length ≤ n) : l.getD n d = d := by
  rw [List.getD_eq_getElem?_getD, List.getElem?_eq_none h, Option.getD_none]

theorem getD_map_of_default {α β : Type} (φ : α → β) (d : α) {e : β} (h : φ d = e) (l : List α) (n : Nat) :
    (l.map φ).getD n e = φ (l.getD n d) := by
  rw [List.getD_eq_getElem?_getD, List.getD_eq_getElem?_getD, List.getElem?_map, ← h]
  cases l[n]? <;> rfl

/-! ### Changing one element of a list -/

section
variable {α : Type} (d : α) (f : α → α)

theorem getD_putAt (n m : Nat) (l : List α) :
    (putAt d f n l).getD m d = if m = n then f (l.getD n d) else l.getD m d := by
  induction n generalizing m l with
  | zero => cases l <;> cases m <;> simp [putAt]
  | succ n ih =>
    simp only [List.getD_eq_getElem?_getD] at ih ⊢
    cases l <;> cases m <;> simp [putAt, ih]

theorem putAt_putAt (g : α → α) (n : Nat) (l : List α) : putAt d g n (putAt d f n l) = putAt d (g ∘ f) n l := by
  induction n generalizing l with
  | zero => cases l <;> simp [putAt]
  | succ n ih => cases l <;> simp [putAt, ih]

theorem putAt_eq_self {n : Nat} {l : List α} (hn : n < l.length) (hf : f (l.getD n d) = l.getD n d) :
    putAt d f n l = l := by
  induction n generalizing l with
  | zero => cases l <;> simp_all [putAt]
  | succ n ih => cases l <;> simp_all [putAt]

/-- A sum over a list of which one element changes moves by that element's change; elements past the end count 0. -/
theorem sumWords_map_putAt (φ : α → Word) (h0 : φ d = 0) (n : Nat) (l : List α) :
    sumWords ((putAt d f n l).map φ) = sumWords (l.map φ) + (φ (f (l.getD n d)) - φ (l.getD n d)) := by
  simp only [sumWords_eq_sum]
  induction n generalizing l with
  | zero =>
    cases l with
    | nil => simp [putAt, h0]
    | cons a l =>
      simp only [putAt, List.map_cons, List.sum_cons, List.getD_cons_zero]
      bv_omega
  | succ n ih =>
    cases l with
    | nil => simpa [putAt, h0] using ih []
    | cons a l => simp only [putAt, List.map_cons, List.sum_cons, List.getD_cons_succ, ih, BitVec.add_assoc]

end

theorem sumWords_putAt (f : Word → Word) (n : Nat) (l : List Word) :
    sumWords (putAt 0 f n l) = sumWords l + (f (l.getD n 0) - l.getD n 0) := by
  simpa using sumWords_map_putAt 0 f id rfl n l

/-! ### Inverting a bit -/

theorem flipBit_ne (n : Fin 32) (w : Word) : flipBit n.val w ≠ w := by
  intro h
  have hbit : (flipBit n.val w).getLsbD n.val = w.getLsbD n.val := by rw [h]
  simp only [flipBit, BitVec.getLsbD_xor, BitVec.getLsbD_ofNat, n.isLt, Nat.testBit_two_pow_self] at hbit
  simp at hbit

end Sys2Proof.Machine
end

section
/-!
SUPPORT. The syndromes of a tile (R101): which rows and columns RS and CS hold, what a changed cell does to each syndrome,
and the classification (R102) read from them.
-/
namespace Sys2Proof.Machine

/-! ### RS and CS -/

theorem foldl_max_length_le {α : Type} (l : List (List α)) (n b : Nat) :
    l.foldl (fun m r => max m r.length) n ≤ b ↔ n ≤ b ∧ ∀ r ∈ l, r.length ≤ b := by
  induction l generalizing n with
  | nil => simp
  | cons r l ih => 
    rw [List.foldl_cons, ih, Nat.max_le, List.forall_mem_cons, and_assoc]

/-- No row outside the tile has a syndrome. -/
theorem Tile.rowSyn_of_rows_le (t : Tile) {i : Nat} (h : t.rows ≤ i) : t.rowSyn i = 0 := by
  obtain ⟨hacc, hchk⟩ := Nat.max_le.mp h
  rw [Tile.rowSyn, getD_of_length_le 0 hchk, getD_of_length_le [] hacc]
  rfl

/-- No column outside the tile has a syndrome. -/
theorem Tile.colSyn_of_cols_le (t : Tile) {j : Nat} (h : t.cols ≤ j) : t.colSyn j = 0 := by
  obtain ⟨hchk, hacc⟩ := (foldl_max_length_le t.acc t.chkRow.length j).mp h
  have hzero : sumWords (t.acc.map fun r => r.getD j 0) = 0 :=
    sumWords_eq_zero (List.forall_mem_map.mpr fun r hr => getD_of_length_le 0 (hacc r hr))
  rw [Tile.colSyn, hzero, getD_of_length_le 0 hchk]
  rfl

theorem Tile.mem_badRows (t : Tile) (i : Nat) : i ∈ t.badRows ↔ t.rowSyn i ≠ 0 := by
  have hin : t.rowSyn i ≠ 0 → i < t.rows := fun h => Nat.not_le.mp fun hle => h (t.rowSyn_of_rows_le hle)
  simpa [Tile.badRows] using hin

theorem Tile.mem_badCols (t : Tile) (j : Nat) : j ∈ t.badCols ↔ t.colSyn j ≠ 0 := by
  have hin : t.colSyn j ≠ 0 → j < t.cols := fun h => Nat.not_le.mp fun hle => h (t.colSyn_of_cols_le hle)
  simpa [Tile.badCols] using hin

theorem Tile.badRows_eq_nil (t : Tile) : t.badRows = [] ↔ ∀ i, t.rowSyn i = 0 := by
  simp [List.eq_nil_iff_forall_not_mem, t.mem_badRows]

theorem Tile.badCols_eq_nil (t : Tile) : t.badCols = [] ↔ ∀ j, t.colSyn j = 0 := by
  simp [List.eq_nil_iff_forall_not_mem, t.mem_badCols]

theorem eq_singleton_of_nodup {l : List Nat} (hl : l.Nodup) {a : Nat} (h : ∀ x, x ∈ l ↔ x = a) : l = [a] :=
  List.perm_singleton.mp ((List.perm_ext_iff_of_nodup hl (List.pairwise_singleton _ a)).mpr fun x => (h x).trans List.mem_singleton.symm)

theorem Tile.badRows_eq_singleton (t : Tile) {i : Nat} (h : ∀ a, t.rowSyn a ≠ 0 ↔ a = i) : t.badRows = [i] :=
  eq_singleton_of_nodup (List.Pairwise.filter _ List.nodup_range) fun a => (t.mem_badRows a).trans (h a)

theorem Tile.badCols_eq_singleton (t : Tile) {j : Nat} (h : ∀ b, t.colSyn b ≠ 0 ↔ b = j) : t.badCols = [j] :=
  eq_singleton_of_nodup (List.Pairwise.filter _ List.nodup_range) fun b => (t.mem_badCols b).trans (h b)

/-! ### The classification (R102) -/

theorem Tile.classify_eq_clean (t : Tile) :
    t.classify = .clean ↔ t.badRows = [] ∧ t.badCols = [] ∧ t.synF = 0 ∧ t.synG = 0 := by
  unfold Tile.classify
  split
  · next hfg =>
    split
    · next hr hc => simp [hr, hc, hfg]
    · next hr hc => split <;> simp [hr]
    · next hnil _ => exact ⟨nofun, fun h => (hnil h.1 h.2.1).elim⟩
  · next hfg => exact ⟨nofun, fun h => (hfg h.2.2).elim⟩

theorem Tile.classify_eq_single (t : Tile) (i j : Nat) (d : Word) :
    t.classify = .single i j d ↔
      t.badRows = [i] ∧ t.badCols = [j] ∧ t.rowSyn i = t.colSyn j ∧ d = t.rowSyn i ∧ t.synF = 0 ∧ t.synG = 0 := by
  unfold Tile.classify
  split
  · next hfg =>
    split
    · next hr hc => simp [hr]
    · next a b hr hc =>
      rw [hr, hc]
      split
      · next he =>
        constructor
        · rintro ⟨⟩
          exact ⟨rfl, rfl, he, rfl, hfg⟩
        · rintro ⟨⟨⟩, ⟨⟩, -, rfl, -⟩
          rfl
      · next hne =>
        refine ⟨nofun, ?_⟩
        rintro ⟨⟨⟩, ⟨⟩, he, -⟩
        exact (hne he).elim
    · next _ hone => exact ⟨nofun, fun h => (hone i j h.1 h.2.1).elim⟩
  · next hfg => exact ⟨nofun, fun h => (hfg h.2.2.2.2).elim⟩

theorem Tile.classify_eq_mismatch (t : Tile) :
    t.classify = .mismatch ↔ t.classify ≠ .clean ∧ ∀ i j d, t.classify ≠ .single i j d := by
  cases t.classify <;> simp

/-- Clean, cell by cell: every syndrome of the tile is 0. -/
theorem Tile.clean_iff (t : Tile) :
    t.classify = .clean ↔ (∀ i, t.rowSyn i = 0) ∧ (∀ j, t.colSyn j = 0) ∧ t.synF = 0 ∧ t.synG = 0 := by
  rw [t.classify_eq_clean, t.badRows_eq_nil, t.badCols_eq_nil]

theorem Tile.mismatch_of_synF (t : Tile) (h : t.synF ≠ 0) : t.classify = .mismatch :=
  if_neg fun hfg => h hfg.1

theorem Tile.mismatch_of_synG (t : Tile) (h : t.synG ≠ 0) : t.classify = .mismatch :=
  if_neg fun hfg => h hfg.2

/-- Two columns in CS make a drain a mismatch whatever else it shows. -/
theorem Tile.mismatch_of_two_badCols (t : Tile) {j k : Nat} (hjk : j ≠ k) (hj : t.colSyn j ≠ 0) (hk : t.colSyn k ≠ 0) :
    t.classify = .mismatch := by
  rw [← t.mem_badCols] at hj hk
  refine t.classify_eq_mismatch.mpr ⟨fun h => ?_, fun a b d h => ?_⟩
  · obtain ⟨-, hcols, -⟩ := t.classify_eq_clean.mp h
    simp [hcols] at hj
  · obtain ⟨-, hcols, -⟩ := (t.classify_eq_single a b d).mp h
    simp only [hcols, List.mem_singleton] at hj hk
    exact hjk (hj.trans hk.symm)

/-! ### One accumulator changed -/

section
variable (t : Tile) (i j : Nat) (f : Word → Word)

@[simp] theorem Tile.setCell_synF : (t.setCell i j f).synF = t.synF := rfl

@[simp] theorem Tile.setCell_synG : (t.setCell i j f).synG = t.synG := rfl

theorem Tile.cell_setCell (a b : Nat) :
    (t.setCell i j f).cell a b = if a = i ∧ b = j then f (t.cell i j) else t.cell a b := by
  by_cases ha : a = i
  · subst ha
    simp only [Tile.cell, Tile.setCell, getD_putAt, if_true, true_and]
  · simp only [Tile.cell, Tile.setCell, getD_putAt, ha, if_false, false_and]

theorem Tile.rowSyn_setCell (a : Nat) :
    (t.setCell i j f).rowSyn a = if a = i then t.rowSyn i + (t.cell i j - f (t.cell i j)) else t.rowSyn a := by
  by_cases ha : a = i
  · subst ha
    simp only [Tile.rowSyn, Tile.setCell, Tile.cell, getD_putAt, if_true, sumWords_putAt, word_sub_add_sub]
  · simp only [Tile.rowSyn, Tile.setCell, getD_putAt, ha, if_false]

theorem Tile.colSyn_setCell (b : Nat) :
    (t.setCell i j f).colSyn b = if b = j then t.colSyn j + (t.cell i j - f (t.cell i j)) else t.colSyn b := by
  have hsum := sumWords_map_putAt [] (putAt 0 f j) (fun r => r.getD b 0) rfl i t.acc
  simp only [Tile.colSyn, Tile.setCell, hsum, getD_putAt]
  by_cases hb : b = j
  · subst hb
    simp only [if_true, word_sub_add_sub, Tile.cell]
  · simp only [hb, if_false, BitVec.sub_self, BitVec.add_zero]

theorem Tile.setCell_setCell (g : Word → Word) : (t.setCell i j f).setCell i j g = t.setCell i j (g ∘ f) := by
  have hrow : putAt 0 g j ∘ putAt 0 f j = putAt 0 (g ∘ f) j := funext (putAt_putAt 0 f g j)
  simp only [Tile.setCell, putAt_putAt, hrow]

end

theorem Tile.setCell_eq_self (t : Tile) {i j : Nat} {f : Word → Word} (hi : i < t.acc.length)
    (hj : j < (t.acc.getD i []).length) (hf : f (t.cell i j) = t.cell i j) : t.setCell i j f = t := by
  rw [Tile.setCell, putAt_eq_self [] (putAt 0 f j) hi (putAt_eq_self 0 f hj hf)]

end Sys2Proof.Machine
end

section
/-!
SUPPORT. The checksum cells of a pass (R96 to R100): after the base and after every K step they hold the exact row sums,
column sums and total of the accumulators, so that modulo 2^32 every syndrome is 0.
-/
namespace Sys2Proof.Machine

/-! ### Adding a multiple of a vector, and an outer product -/

/-- Each element of e with a times the element of x beside it added. -/
def addScaled (a : Int) (e x : List Int) : List Int := List.zipWith (fun u v => u + a * v) e x

/-- Each row of m with its weft element of w times the warp vector x added (R63). -/
def addOuter (m : List (List Int)) (w x : List Int) : List (List Int) := List.zipWith (fun row v => addScaled v row x) m w

/-- The sum of a column; a row without that column counts 0. -/
def colSum (m : List (List Int)) (j : Nat) : Int := sumInt (m.map fun r => r.getD j 0)

theorem length_addScaled {a : Int} {e x : List Int} (h : e.length = x.length) : (addScaled a e x).length = x.length := by
  simp [addScaled, h]

theorem zipWith_add_mul (a : Int) (e x : List Int) : List.zipWith (fun u v => u + v * a) e x = addScaled a e x := by
  simp only [addScaled, Int.mul_comm a]

theorem sumInt_addScaled (a : Int) {e x : List Int} (h : e.length = x.length) :
    sumInt (addScaled a e x) = sumInt e + a * sumInt x := by
  simp only [sumInt_eq_sum, addScaled]
  induction e generalizing x with
  | nil => cases x <;> simp_all
  | cons u e ih =>
    cases x with
    | nil => simp at h
    | cons v x =>
      simp only [List.zipWith_cons_cons, List.sum_cons, ih (Nat.succ.inj h), Int.mul_add]
      omega

theorem getD_addScaled (a : Int) {e x : List Int} (h : e.length = x.length) (j : Nat) :
    (addScaled a e x).getD j 0 = e.getD j 0 + a * x.getD j 0 := by
  simp only [addScaled, List.getD_eq_getElem?_getD, List.getElem?_zipWith]
  by_cases hj : j < x.length
  · simp [hj, h]
  · simp [hj, h]

/-- What is additive along the rows of an outer product is added along its column of results. -/
theorem map_addOuter {φ : List Int → Int} {m : List (List Int)} {w x : List Int}
    (hφ : ∀ a e, e.length = x.length → φ (addScaled a e x) = φ e + a * φ x) (hm : ∀ r ∈ m, r.length = x.length) :
    (addOuter m w x).map φ = addScaled (φ x) (m.map φ) w := by
  unfold addOuter
  induction m generalizing w with
  | nil => rfl
  | cons r m ih =>
    obtain ⟨hr, hm⟩ := List.forall_mem_cons.mp hm
    cases w with
    | nil => rfl
    | cons v w =>
      simp only [List.zipWith_cons_cons, List.map_cons, addScaled, List.cons.injEq]
      exact ⟨(hφ v r hr).trans (by rw [Int.mul_comm]), ih hm⟩

theorem mem_addOuter {m : List (List Int)} {w x r : List Int} (hm : ∀ r ∈ m, r.length = x.length)
    (hr : r ∈ addOuter m w x) : r.length = x.length := by
  obtain ⟨n, hn, rfl⟩ := List.getElem_of_mem hr
  simp only [addOuter, List.getElem_zipWith]
  exact length_addScaled (hm _ (List.getElem_mem _))

theorem map_sumInt_addOuter {m : List (List Int)} (w : List Int) {x : List Int} (hm : ∀ r ∈ m, r.length = x.length) :
    (addOuter m w x).map sumInt = addScaled (sumInt x) (m.map sumInt) w :=
  map_addOuter (fun a _ h => sumInt_addScaled a h) hm

theorem colSum_addOuter {m : List (List Int)} {w x : List Int} (hw : m.length = w.length)
    (hm : ∀ r ∈ m, r.length = x.length) (j : Nat) :
    colSum (addOuter m w x) j = colSum m j + sumInt w * x.getD j 0 := by
  rw [colSum, map_addOuter (φ := fun r => r.getD j 0) (fun a _ h => getD_addScaled a h j) hm,
    sumInt_addScaled _ (by simpa using hw), Int.mul_comm]
  rfl

theorem colSum_of_le {m : List (List Int)} {j : Nat} (h : ∀ r ∈ m, r.length ≤ j) : colSum m j = 0 := by
  exact sumInt_eq_zero (List.forall_mem_map.mpr fun r hr => getD_of_length_le 0 (h r hr))

/-- The column sums add up to what the row sums add up to. -/
theorem sumInt_colSums {m : List (List Int)} {cols : Nat} (h : ∀ r ∈ m, r.length = cols) :
    sumInt ((List.range cols).map (colSum m)) = sumInt (m.map sumInt) := by
  induction m with
  | nil => exact sumInt_eq_zero (List.forall_mem_map.mpr fun _ _ => rfl)
  | cons r m ih =>
    obtain ⟨hr, hm⟩ := List.forall_mem_cons.mp h
    have hrow : (List.range cols).map (fun j => r.getD j 0) = r := by
      refine List.ext_getElem (by simp [hr]) fun j _ hj => ?_
      simp [hj]
    have hcons : colSum (r :: m) = fun j => r.getD j 0 + colSum m j := by
      funext j
      simp [colSum, sumInt_eq_sum]
    rw [hcons, sumInt_map_add, hrow, ih hm]
    simp only [sumInt_eq_sum, List.map_cons, List.sum_cons]

/-! ### The sums close -/

/-- The checksum cells hold the exact sums of the accumulators of a tile of so many rows and columns (R100). -/
structure Cells.Closed (rows cols : Nat) (c : Cells) : Prop where
  height : c.exact.length = rows
  width : ∀ r ∈ c.exact, r.length = cols
  chkCol : c.chkCol = c.exact.map sumInt
  chkRow : c.chkRow = (List.range cols).map (colSum c.exact)
  corner : c.corner = sumInt c.chkCol

theorem baseCells_closed {rows cols : Nat} {cin : Option (List (List Int))}
    (h : ∀ l ∈ cin, l.length = rows ∧ ∀ r ∈ l, r.length = cols) : (baseCells rows cols cin).Closed rows cols := by
  cases cin with
  | none => exact ⟨by simp [baseCells], fun r hr => by simp [List.eq_of_mem_replicate hr], rfl, rfl, rfl⟩
  | some l =>
    obtain ⟨hrows, hcols⟩ := h l rfl
    exact ⟨hrows, hcols, rfl, rfl, rfl⟩

/-- What a K step does to the exact cells: it presents nothing, or adds the outer product of the weft values w presented
and the warp, and to each checksum the matching sum (R97 to R99). -/
theorem Cells.step_cases (sg : Bool) (b : Nat) (c : Cells) (k : KStep) :
    c.step sg b k = c ∨ ∃ w ovf cost, w.length = k.weft.length ∧ c.step sg b k =
      { exact := addOuter c.exact w k.warp, ovf, chkCol := addScaled (sumInt k.warp) c.chkCol w,
        chkRow := addScaled (sumInt w) c.chkRow k.warp, corner := c.corner + sumInt w * sumInt k.warp, cost } := by
  unfold Cells.step
  simp only [zipWith_add_mul]
  split
  · exact .inl rfl
  · exact .inr ⟨_, _, _, List.length_map _, rfl⟩

theorem Cells.Closed.step {rows cols : Nat} {c : Cells} (hc : c.Closed rows cols) (sg : Bool) (b : Nat) {k : KStep}
    (hweft : k.weft.length = rows) (hwarp : k.warp.length = cols) : (c.step sg b k).Closed rows cols := by
  obtain h | ⟨w, ovf, cost, hlen, h⟩ := c.step_cases sg b k
  · rwa [h]
  obtain ⟨height, width, chkCol, chkRow, corner⟩ := hc
  subst hwarp
  have hw : c.exact.length = w.length := by omega
  rw [h]
  constructor
  case height => simpa [addOuter, ← hw] using height
  case width => exact fun r hr => mem_addOuter width hr
  case chkCol => simp only [chkCol, map_sumInt_addOuter w width]
  case chkRow =>
    refine List.ext_getElem (by simp [addScaled, chkRow]) fun j hj _ => ?_
    have hj : j < k.warp.length := by simpa [addScaled, chkRow] using hj
    simp [addScaled, chkRow, colSum_addOuter hw width, hj]
  case corner =>
    rw [sumInt_addScaled _ (by simpa [chkCol] using hw), ← corner, Int.mul_comm (sumInt w)]

theorem runCells_closed (sg : Bool) (b : Nat) {rows cols : Nat} {cin : Option (List (List Int))} {ks : List KStep}
    (hcin : ∀ l ∈ cin, l.length = rows ∧ ∀ r ∈ l, r.length = cols)
    (hks : ∀ k ∈ ks, k.weft.length = rows ∧ k.warp.length = cols) :
    (runCells sg b rows cols cin ks).Closed rows cols :=
  List.foldlRecOn ks (Cells.step sg b) (baseCells_closed hcin) fun _ hc k hk =>
    hc.step sg b (hks k hk).1 (hks k hk).2

theorem Cells.Closed.chkRow_getD {rows cols : Nat} {c : Cells} (hc : c.Closed rows cols) (j : Nat) :
    c.chkRow.getD j 0 = colSum c.exact j := by
  rw [hc.chkRow]
  by_cases hj : j < cols
  · simp [hj]
  · rw [getD_of_length_le 0 (by simpa using hj), colSum_of_le fun r hr => by rw [hc.width r hr]; omega]

/-- Where the exact sums close, the drain's do modulo 2^32, whatever wrapping took place (R100, R101). -/
theorem Cells.Closed.clean {rows cols : Nat} {c : Cells} (hc : c.Closed rows cols) : c.tile.classify = .clean := by
  have hrow (i : Nat) : c.tile.rowSyn i = 0 := by
    have hchk : c.tile.chkCol.getD i 0 = word (sumInt (c.exact.getD i [])) := by
      simp only [Cells.tile, hc.chkCol, List.map_map]
      exact getD_map_of_default (word ∘ sumInt) [] rfl _ i
    have hacc : c.tile.acc.getD i [] = (c.exact.getD i []).map word :=
      getD_map_of_default (List.map word) [] rfl _ i
    rw [Tile.rowSyn, hchk, hacc, word_sumInt, word_sub_self]
  have hcol (j : Nat) : c.tile.colSyn j = 0 := by
    have hchk : c.tile.chkRow.getD j 0 = word (colSum c.exact j) := by
      rw [← hc.chkRow_getD j]
      exact getD_map_of_default word 0 rfl _ j
    have hacc : (c.tile.acc.map fun r => r.getD j 0) = (c.exact.map fun r => r.getD j 0).map word := by
      simp only [Cells.tile, List.map_map]
      exact List.map_congr_left fun r _ => getD_map_of_default word 0 rfl r j
    rw [Tile.colSyn, hchk, hacc, colSum, word_sumInt, word_sub_self]
  have hf : c.tile.synF = 0 := by
    simp only [Tile.synF, Cells.tile, hc.corner, word_sumInt, word_sub_self]
  have hg : c.tile.synG = 0 := by
    have hsum : sumInt c.chkRow = c.corner := by rw [hc.chkRow, sumInt_colSums hc.width, hc.corner, hc.chkCol]
    simp only [Tile.synG, Cells.tile, ← hsum, word_sumInt, word_sub_self]
  exact c.tile.clean_iff.mpr ⟨hrow, hcol, hf, hg⟩

end Sys2Proof.Machine
end

section
/-!
The ledger (R96 to R103): a pass without a fault drains CLEAN, and what one flipped bit or two wrong cells of a row do.
-/
namespace Sys2Proof.Machine

/-- One accumulator of a clean tile changed: RS and CS hold its row and column, each with the change taken back. -/
theorem Tile.setCell_single {t : Tile} (h : t.classify = .clean) (i j : Nat) {f : Word → Word}
    (hf : f (t.cell i j) ≠ t.cell i j) :
    (t.setCell i j f).classify = .single i j (t.cell i j - f (t.cell i j)) := by
  obtain ⟨hrow, hcol, hF, hG⟩ := t.clean_iff.mp h
  have hd : t.cell i j - f (t.cell i j) ≠ 0 := word_sub_ne_zero hf.symm
  have hrowSyn (a : Nat) : (t.setCell i j f).rowSyn a = if a = i then t.cell i j - f (t.cell i j) else 0 := by
    rw [t.rowSyn_setCell, hrow, hrow, word_zero_add]
  have hcolSyn (b : Nat) : (t.setCell i j f).colSyn b = if b = j then t.cell i j - f (t.cell i j) else 0 := by
    rw [t.colSyn_setCell, hcol, hcol, word_zero_add]
  refine (Tile.classify_eq_single _ i j _).mpr ⟨?_, ?_, ?_, ?_, by simp [hF], by simp [hG]⟩
  · exact Tile.badRows_eq_singleton _ fun a => by rw [hrowSyn, ne_eq, ite_eq_right_iff, Classical.not_imp, and_iff_left hd]
  · exact Tile.badCols_eq_singleton _ fun b => by rw [hcolSyn, ne_eq, ite_eq_right_iff, Classical.not_imp, and_iff_left hd]
  · simp [hrowSyn, hcolSyn]
  · simp [hrowSyn]

/-- The correction of R103 undoes the change. -/
theorem Tile.setCell_corrected {t : Tile} {i j : Nat} (f : Word → Word) (hi : i < t.acc.length)
    (hj : j < (t.acc.getD i []).length) :
    (t.setCell i j f).setCell i j (· + (t.cell i j - f (t.cell i j))) = t := by
  rw [t.setCell_setCell]
  exact t.setCell_eq_self hi hj (by simp only [Function.comp_apply]; bv_omega)

theorem Tile.flip_data {p i j : Nat} (t : Tile) (n : Fin 32) (hi : i < 512) (hj : j < p) :
    t.flip p ⟨.data i j, n⟩ = t.setCell i j (flipBit n.val) := by
  simp [Tile.flip, hi, hj]

/-- A wrong word in the checksum column leaves f other than 0. -/
theorem Tile.flip_chkCol_mismatch {t : Tile} (h : t.classify = .clean) (p : Nat) {i : Nat} (n : Fin 32) (hi : i < 512) :
    (t.flip p ⟨.chkCol i, n⟩).classify = .mismatch := by
  obtain ⟨-, -, hF, -⟩ := t.clean_iff.mp h
  refine Tile.mismatch_of_synF _ ?_
  have hsyn : (t.flip p ⟨.chkCol i, n⟩).synF = t.synF + (t.chkCol.getD i 0 - flipBit n.val (t.chkCol.getD i 0)) := by
    simp only [Tile.flip, hi, if_true, Tile.synF, sumWords_putAt, word_sub_add_sub]
  rw [hsyn, hF, word_zero_add]
  exact word_sub_ne_zero (flipBit_ne n _).symm

/-- A wrong word in the checksum row leaves g other than 0. -/
theorem Tile.flip_chkRow_mismatch {t : Tile} (h : t.classify = .clean) {p j : Nat} (n : Fin 32) (hj : j < p) :
    (t.flip p ⟨.chkRow j, n⟩).classify = .mismatch := by
  obtain ⟨-, -, -, hG⟩ := t.clean_iff.mp h
  refine Tile.mismatch_of_synG _ ?_
  have hsyn : (t.flip p ⟨.chkRow j, n⟩).synG = t.synG + (t.chkRow.getD j 0 - flipBit n.val (t.chkRow.getD j 0)) := by
    simp only [Tile.flip, hj, if_true, Tile.synG, sumWords_putAt, word_sub_add_sub]
  rw [hsyn, hG, word_zero_add]
  exact word_sub_ne_zero (flipBit_ne n _).symm

theorem Tile.flip_corner_mismatch {t : Tile} (h : t.classify = .clean) (p : Nat) (n : Fin 32) :
    (t.flip p ⟨.corner, n⟩).classify = .mismatch := by
  obtain ⟨-, -, hF, -⟩ := t.clean_iff.mp h
  refine Tile.mismatch_of_synF _ ?_
  have hcorner : t.corner = sumWords t.chkCol := Decidable.not_not.mp fun hne => word_sub_ne_zero hne hF
  exact word_sub_ne_zero (hcorner ▸ flipBit_ne n t.corner)

/-- Two wrong words in one row leave both their columns in CS. -/
theorem Tile.two_cells_mismatch {t : Tile} (h : t.classify = .clean) {i j k : Nat} {v w : Word} (hjk : j ≠ k)
    (hv : v ≠ t.cell i j) (hw : w ≠ t.cell i k) :
    ((t.setCell i j fun _ => v).setCell i k fun _ => w).classify = .mismatch := by
  obtain ⟨-, hcol, -, -⟩ := t.clean_iff.mp h
  refine Tile.mismatch_of_two_badCols _ hjk ?_ ?_
  · rw [Tile.colSyn_setCell, if_neg hjk, Tile.colSyn_setCell, if_pos rfl, hcol, word_zero_add]
    exact word_sub_ne_zero hv.symm
  · rw [Tile.colSyn_setCell, if_pos rfl, Tile.colSyn_setCell, if_neg hjk.symm, hcol, word_zero_add, Tile.cell_setCell,
      if_neg fun e => hjk e.2.symm]
    exact word_sub_ne_zero hw.symm

/-- Settles O42: the checksum cells hold the exact sums after every K step, and each fault shows in the syndromes it moves. -/
theorem checksumsLocateAFault : Obligations.ChecksumsLocateAFault := by
  unfold Obligations.ChecksumsLocateAFault
  refine ⟨?_, ?_, ?_, ?_, ?_⟩
  · exact fun sg b rows cols cin ks hcin hks => (runCells_closed sg b hcin hks).clean
  · intro t p i j n u d hclean hi hj hacc hrow
    have hu : u = t.setCell i j (flipBit n.val) := t.flip_data n hi hj
    rw [hu]
    exact ⟨Tile.setCell_single hclean i j (flipBit_ne n _), Tile.setCell_corrected _ hacc hrow⟩
  · exact fun t => ⟨t.classify_eq_clean, t.classify_eq_single, t.classify_eq_mismatch⟩
  · exact fun t p i n hclean =>
      ⟨Tile.flip_chkCol_mismatch hclean p n, Tile.flip_chkRow_mismatch hclean n, Tile.flip_corner_mismatch hclean p n⟩
  · exact fun t i j k v w hclean _ _ hjk hv hw => Tile.two_cells_mismatch hclean hjk hv hw

end Sys2Proof.Machine
end

section
/-!
SUPPORT. Frames of the operations that the Tally's commands share: forwarding to the partners, FAULT_N, pending bits, the end
of the journal; and which register words and memory a chain of them leaves.
-/
namespace Sys2Proof.Machine

/-! ### What is sent to the partners (R534) -/

/-- Sending on a Bilvan port changes the port and what was sent, and nothing else. -/
theorem State.pumpBil_eq (p fuel : Nat) (s : State) : ∃ b o, State.pumpBil p fuel s = { s with bil := b, out := o } := by
  induction fuel generalizing s with
  | zero => exact ⟨_, _, rfl⟩
  | succ fuel ih =>
    simp only [State.pumpBil]
    split
    · exact ⟨_, _, rfl⟩
    · split
      · exact ⟨_, _, rfl⟩
      · exact ih _

theorem State.bilSend_eq (s : State) (p : Nat) (m : BilMsg) (owner : Option (Nat × Nat)) :
    ∃ b o, s.bilSend p m owner = { s with bil := b, out := o } := State.pumpBil_eq ..

/-- Forwarding changes the ports and what was sent, and nothing else. -/
theorem State.forwardFault_eq (s : State) (m : BilMsg) : ∃ b o, s.forwardFault m = { s with bil := b, out := o } := by
  refine List.foldlRecOn (motive := fun t => ∃ b o, t = { s with bil := b, out := o }) _ _ ?_ ?_
  · exact ⟨_, _, rfl⟩
  · rintro _ ⟨b, o, rfl⟩ p -
    split
    · exact State.bilSend_eq _ p m none
    · exact ⟨_, _, rfl⟩

/-- A change of FAULT_N starts its minimum low time and is forwarded (R452). -/
theorem State.noteFall_eq (s : State) (was : Bool) :
    ∃ low b o, s.noteFall was = { s with tal := { s.tal with lowUntil := low }, bil := b, out := o } := by
  simp only [State.noteFall]
  split
  · exact ⟨_, _, _, rfl⟩
  · obtain ⟨b, o, h⟩ := State.forwardFault_eq
      (if s.faultLow = true then s.updTal fun t => { t with lowUntil := some (s.refNs + 1000000) } else s) (.level s.faultLow)
    rw [h]
    split
    · exact ⟨_, _, _, rfl⟩
    · exact ⟨_, _, _, rfl⟩

/-! ### The journal goes out of use (R290) -/

theorem State.answer_eq (s : State) (n seq kind : Nat) (body : List Byte) :
    ∃ b e, s.answer n seq kind body = { s with bar := b, eth := e } := by
  unfold State.answer
  split
  · exact ⟨_, _, rfl⟩
  · simp only [State.sendBarrow]
    split
    · exact ⟨_, _, rfl⟩
    · exact ⟨_, _, rfl⟩

/-- Refusing a ring's doorbells changes sessions, ports and the ring. -/
theorem State.refuseDoors_eq (s : State) (n : Nat) :
    ∃ b e r, s.refuseDoors n = { s with bar := b, eth := e, cmd := { s.cmd with rings := r } } := by
  have hdoors : ∃ b e, (s.ring n).doors.foldl (fun s d => s.answer d.session d.seq 5 (nackBody 3 0 n)) s = { s with bar := b, eth := e } := by
    refine List.foldlRecOn (motive := fun t => ∃ b e, t = { s with bar := b, eth := e }) _ _ ?_ ?_
    · exact ⟨_, _, rfl⟩
    · rintro _ ⟨b, e, rfl⟩ d -
      exact State.answer_eq ..
  obtain ⟨b, e, h⟩ := hdoors
  exact ⟨b, e, _, by rw [State.refuseDoors, h]; rfl⟩

theorem State.journalDown_of_lost {s : State} (h : s.cmd.journalLost = true) (a : Nat) : s.journalDown a = s := by
  simp [State.journalDown, h]

/-- The journal has gone out of use (R290): its bit has fallen, the message waits, and besides only sessions, ports and rings differ. -/
def State.LosesJournal (s : State) (a : Nat) (t : State) : Prop :=
  ∃ b e r, t = { (s.setBit Reg.CMD_STATUS 31 false).report 0x100 Kind.JOURNAL_DOWN 0 a with
    bar := b, eth := e, cmd := { s.cmd with journalLost := true, rings := r } }

theorem State.journalDown_eq {s : State} (h : s.cmd.journalLost = false) (a : Nat) : s.LosesJournal a (s.journalDown a) := by
  simp only [State.journalDown, h, Bool.false_eq_true, if_false]
  refine List.foldlRecOn (motive := s.LosesJournal a) _ _ ?_ ?_
  · exact ⟨_, _, _, rfl⟩
  · rintro _ ⟨b, e, r, rfl⟩ n -
    obtain ⟨b', e', r', hdoors⟩ := State.refuseDoors_eq { (s.setBit Reg.CMD_STATUS 31 false).report 0x100 Kind.JOURNAL_DOWN 0 a with
        bar := b, eth := e, cmd := { s.cmd with journalLost := true, rings := r } } n
    rw [hdoors]
    exact ⟨_, _, _, rfl⟩

/-! ### Wide registers -/

theorem State.rd_wrN_of_lt {off o : Nat} (h : o < off) (s : State) (n v : Nat) : (s.wrN off n v).rd o = s.rd o := by
  induction n generalizing s off v with
  | zero => rfl
  | succ n ih => rw [State.wrN, ih (by omega), s.rd_wr_ne (by omega)]

theorem State.rdN_congr {s t : State} {off n : Nat} (h : ∀ o, off ≤ o → o < off + 4 * n → t.rd o = s.rd o) :
    t.rdN off n = s.rdN off n := by
  induction n generalizing off with
  | zero => rfl
  | succ n ih =>
    rw [State.rdN, State.rdN, h off (by omega) (by omega), ih fun o ho hn => h o (by omega) (by omega)]

/-- A register of n words reads back what was written, modulo its width. -/
theorem State.rdN_wrN (s : State) (off n v : Nat) : (s.wrN off n v).rdN off n = v % 2 ^ (32 * n) := by
  induction n generalizing s off v with
  | zero => simp [State.rdN, Nat.mod_one]
  | succ n ih =>
    have hlow : ((s.wrN off (n + 1) v).rd off).toNat = v % 2 ^ 32 := by
      rw [State.wrN, State.rd_wrN_of_lt (by omega), State.rd_wr_self, BitVec.toNat_ofNat]
    rw [State.rdN, hlow, State.wrN, ih, Nat.mul_succ, Nat.add_comm (32 * n), Nat.pow_add, Nat.mod_mul]

/-! ### Memory and registers apart -/

@[simp] theorem State.putWords_rd (s : State) (a : Nat) (l : List Byte) (o : Nat) : (s.putWords a l).rd o = s.rd o := by
  rw [State.putWords, State.poke_eq l s a]
  rfl

end Sys2Proof.Machine
end

section
/-!
TAL_FIRST (R449): what the closing of a coalescing window writes below the history's registers, and the re-arming write.
-/
namespace Sys2Proof.Machine

/-! ### The registers that a record's entry leaves -/

/-- The on-die history lies at TAL_HIST_WR and above (R450). -/
theorem State.pushDie_rd (s : State) (r : BitVec 128) {o : Nat} (h : o < Reg.TAL_HIST_WR) : (s.pushDie r).rd o = s.rd o := by
  have hcount : ((s.wrN (Reg.TAL_HIST ((s.rd Reg.TAL_HIST_WR).toNat % 64)) 4 r.toNat).inc Reg.TAL_HIST_WR 1).rd o = s.rd o := by
    rw [State.rd_inc, if_neg (by omega), State.rd_wrN_of_lt (by simp only [Reg.TAL_HIST, Reg.TAL_HIST_WR] at h ⊢; omega)]
  simp only [State.pushDie]
  split
  · rw [State.rd_sat_ne _ (by simp only [Reg.TAL_HIST_OVERFLOW, Reg.TAL_HIST_WR] at h ⊢; omega), hcount]
  · exact hcount

@[simp] theorem State.pushHram_rd (s : State) (r : BitVec 128) (o : Nat) : (s.pushHram r).rd o = s.rd o := by
  simp only [State.pushHram]
  split
  · rfl
  · simp

@[simp] theorem State.forwardFault_rd (s : State) (m : BilMsg) (o : Nat) : (s.forwardFault m).rd o = s.rd o := by
  obtain ⟨b, out, h⟩ := s.forwardFault_eq m
  rw [h]
  rfl

/-- Below TAL_HIST_WR a record that leaves its window writes TAL_FIRST and its VALID alone. -/
theorem State.enterRecord_rd (s : State) (m : Msg) (time : Nat) {o : Nat} (h : o < Reg.TAL_HIST_WR) :
    (s.enterRecord m time).rd o = (s.loadFirst m.cls (m.record time)).rd o := by
  have hframe : ∀ t : State, (if m.cls < 2 then t.forwardFault (.record (m.record time)) else t).rd o = t.rd o := fun t => by
    split
    · exact t.forwardFault_rd _ o
    · rfl
  simp only [State.enterRecord, hframe]
  split
  · rw [State.updTal_rd, State.pushHram_rd, State.pushDie_rd _ _ h]
  · rw [State.pushHram_rd, State.pushDie_rd _ _ h]

/-! ### TAL_FIRST and VALID -/

/-- A record of class C, or one that comes while VALID is 1, is not taken. -/
theorem State.loadFirst_of_held (s : State) {cls : Nat} (r : BitVec 128) (h : 2 ≤ cls ∨ s.bit Reg.TAL_FIRST_CTRL 31 = true) :
    s.loadFirst cls r = s := by
  unfold State.loadFirst
  refine if_neg ?_
  rcases h with h | h
  · simp [Nat.not_lt.mpr h]
  · simp [h]

/-- A record of class A or B that comes while VALID is 0 is taken. -/
theorem State.loadFirst_of_armed (s : State) {cls : Nat} (r : BitVec 128) (hcls : cls < 2) (h : s.bit Reg.TAL_FIRST_CTRL 31 = false) :
    s.loadFirst cls r = (s.wrN Reg.TAL_FIRST 4 r.toNat).setBit Reg.TAL_FIRST_CTRL 31 true := by
  simp [State.loadFirst, hcls, h]

/-- The words of TAL_FIRST lie below TAL_FIRST_CTRL, and that below the history's registers. -/
theorem talFirst_lt {o : Nat} (h : o < Reg.TAL_FIRST + 4 * 4) : o < Reg.TAL_FIRST_CTRL ∧ o < Reg.TAL_HIST_WR := by
  simp only [Reg.TAL_FIRST, Reg.TAL_FIRST_CTRL, Reg.TAL_HIST_WR] at h ⊢
  omega

theorem talFirstCtrl_lt : Reg.TAL_FIRST_CTRL < Reg.TAL_HIST_WR := by decide

theorem State.loadFirst_rdN (s : State) {cls : Nat} (r : BitVec 128) (hcls : cls < 2) (h : s.bit Reg.TAL_FIRST_CTRL 31 = false) :
    (s.loadFirst cls r).rdN Reg.TAL_FIRST 4 = r.toNat := by
  have hctrl : ∀ o, Reg.TAL_FIRST ≤ o → o < Reg.TAL_FIRST + 4 * 4 →
      (s.loadFirst cls r).rd o = (s.wrN Reg.TAL_FIRST 4 r.toNat).rd o := fun o _ ho => by
    rw [s.loadFirst_of_armed r hcls h, State.rd_setBit_ne _ (Nat.ne_of_lt (talFirst_lt ho).1)]
  rw [State.rdN_congr hctrl, State.rdN_wrN]
  exact Nat.mod_eq_of_lt r.isLt

theorem State.loadFirst_bit (s : State) {cls : Nat} (r : BitVec 128) (hcls : cls < 2) (h : s.bit Reg.TAL_FIRST_CTRL 31 = false) :
    (s.loadFirst cls r).bit Reg.TAL_FIRST_CTRL 31 = true := by
  rw [s.loadFirst_of_armed r hcls h, State.bit_setBit _ _ _ _ (by decide), if_pos rfl]

theorem State.enterRecord_rdN_first (s : State) (m : Msg) (time : Nat) :
    (s.enterRecord m time).rdN Reg.TAL_FIRST 4 = (s.loadFirst m.cls (m.record time)).rdN Reg.TAL_FIRST 4 :=
  State.rdN_congr fun _ _ ho => s.enterRecord_rd m time (talFirst_lt ho).2

/-! ### The two commands -/

/-- The oldest window is due: it leaves, and its record is entered (R446). -/
theorem exec_coalesceWindowClose_due {s : State} {w : Win} {l : List Win} (hw : s.tal.windows = w :: l) (hdue : w.due ≤ s.refNs) :
    exec .coalesceWindowClose s = .next ((s.updTal fun x => { x with windows := l }).enterRecord w.msg w.time) := by
  change execCoalesceWindowClose s = _
  simp only [execCoalesceWindowClose, hw, hdue, if_true]

/-- How a word without locked or sticky bits is written, whether or not a lock governs its register: the bits that take the value and the bits that a 1 clears. -/
def looseMasks (off : Nat) : Option (Word × Word) :=
  match regAt off with
  | some (r, _, w) =>
    if r.mask w [.rwl] = 0#32 ∧ stickyBits off = 0#32 then some (r.mask w [.rw, .rwl] &&& ~~~fixedBits off, r.mask w [.w1c]) else none
  | none => none

/-- What storing leaves where no field of the word can be locked. -/
theorem State.storeReg_loose (s : State) (stall off : Nat) (v m c : Word) (h : looseMasks off = some (m, c)) :
    ∃ l, s.storeReg stall off v = { s.wr off (((s.rd off &&& ~~~m) ||| (v &&& m)) &&& ~~~(v &&& c)) with latch := l } := by
  unfold looseMasks at h
  split at h
  · rename_i r b w hreg
    split at h
    · rename_i hfree
      obtain ⟨hrwl, hsticky⟩ := hfree
      obtain ⟨rfl, rfl⟩ := Prod.mk.inj (Option.some.inj h)
      have hlocked : s.lockedBits r off w = 0#32 := by
        unfold State.lockedBits
        split
        · simp [hrwl]
        · rfl
      refine ⟨s.latch.filter fun e => e.1 != b, ?_⟩
      simp only [State.storeReg, hreg, hlocked, State.codedValue, hsticky, BitVec.and_zero, BitVec.or_zero, BitVec.not_zero, BitVec.and_allOnes, if_true]
      rfl
    · cases h
  · cases h

/-- No field of TAL_FIRST_CTRL takes a written value; a 1 clears VALID. -/
theorem looseMasks_talFirstCtrl : looseMasks Reg.TAL_FIRST_CTRL = some (0#32, 0x80000000#32) := by decide

/-- A granted write of TAL_FIRST_CTRL clears VALID and has no effect beside the register's own. -/
theorem exec_talFirstRearm_granted {s : State} {t : Tag} {v : Word} (h : s.grants t 0 Reg.TAL_FIRST_CTRL (v ||| 0x80000000#32)) :
    ∃ l, exec (.talFirstRearm t v) s = .next { s.wr Reg.TAL_FIRST_CTRL (s.rd Reg.TAL_FIRST_CTRL &&& ~~~0x80000000#32) with latch := l } := by
  obtain ⟨l, hstore⟩ := s.storeReg_loose t.stall.val Reg.TAL_FIRST_CTRL (v ||| 0x80000000#32) _ _ looseMasks_talFirstCtrl
  refine ⟨l, ?_⟩
  have hword : ((s.rd Reg.TAL_FIRST_CTRL &&& ~~~0#32) ||| ((v ||| 0x80000000#32) &&& 0#32)) &&& ~~~((v ||| 0x80000000#32) &&& 0x80000000#32)
      = s.rd Reg.TAL_FIRST_CTRL &&& ~~~0x80000000#32 := by
    have hone : (v ||| 0x80000000#32) &&& 0x80000000#32 = 0x80000000#32 := by
      ext i
      simp only [BitVec.getElem_and, BitVec.getElem_or]
      cases (0x80000000#32)[i] <;> simp
    rw [hone, BitVec.and_zero, BitVec.or_zero, BitVec.not_zero, BitVec.and_allOnes]
  change Host.Outcome.next (s.writeRow t 0 Reg.TAL_FIRST_CTRL (v ||| 0x80000000#32)) = _
  rw [s.writeRow_granted t 0 _ _ h, hstore, hword]
  rfl

/-- Settles O19: below the history's registers a closing window writes what TAL_FIRST takes, and the re-arming write clears VALID. -/
theorem firstRecordHeld : Obligations.FirstRecordHeld := by
  unfold Obligations.FirstRecordHeld
  refine ⟨?_, ?_, ?_⟩
  · intro s w l hw hdue hcls harmed
    refine ⟨_, exec_coalesceWindowClose_due hw hdue, ?_, ?_⟩
    · rw [State.enterRecord_rdN_first]
      exact State.loadFirst_rdN _ _ hcls harmed
    · rw [State.bit, State.enterRecord_rd _ _ _ talFirstCtrl_lt]
      exact State.loadFirst_bit _ _ hcls harmed
  · intro s w l hw hdue hheld
    have hload := State.loadFirst_of_held (s.updTal fun x => { x with windows := l }) (w.msg.record w.time) hheld
    refine ⟨_, exec_coalesceWindowClose_due hw hdue, ?_, ?_⟩
    · rw [State.enterRecord_rdN_first, hload]
      rfl
    · rw [State.enterRecord_rd _ _ _ talFirstCtrl_lt, hload]
      rfl
  · intro s t v hgrant
    obtain ⟨l, hexec⟩ := exec_talFirstRearm_granted hgrant
    have hother : ∀ o, o ≠ Reg.TAL_FIRST_CTRL →
        (s.wr Reg.TAL_FIRST_CTRL (s.rd Reg.TAL_FIRST_CTRL &&& ~~~0x80000000#32)).rd o = s.rd o := fun o ho => s.rd_wr_ne ho _
    refine ⟨_, hexec, ?_, ?_, ?_, fun _ => rfl⟩
    · change ((s.wr Reg.TAL_FIRST_CTRL _).rd Reg.TAL_FIRST_CTRL).getLsbD 31 = false
      rw [State.rd_wr_self]
      simp
    · exact State.rdN_congr fun o _ ho => hother o (Nat.ne_of_lt (talFirst_lt ho).1)
    · exact fun o ho => hother o (List.ne_of_not_mem_cons ho)

end Sys2Proof.Machine
end

section
/-!
ARRIVAL (R440, R444 to R448, R452): what the Tally has done with a message before it coalesces it, the two ways in which a
message meets the open windows, and the root of a window (R447).
-/
namespace Sys2Proof.Machine

/-! ### Between two windows: what an operation of the Tally leaves -/

/-- From s to t the counter, reference time and the open windows stand, and no register word but those listed changes, and no byte of memory. -/
structure State.LeavesWindows (s : State) (offs : List Nat) (t : State) : Prop where
  only : s.onlyRegs offs t
  windows : t.tal.windows = s.tal.windows
  tim : t.tim = s.tim
  ref : t.refNs = s.refNs

namespace State.LeavesWindows

variable {s t u : State} {offs offs' : List Nat}

theorem trans (a : s.LeavesWindows offs t) (b : t.LeavesWindows offs u) : s.LeavesWindows offs u where
  only := ⟨fun o ho => (b.only.1 o ho).trans (a.only.1 o ho), fun x => (b.only.2 x).trans (a.only.2 x)⟩
  windows := b.windows.trans a.windows
  tim := b.tim.trans a.tim
  ref := b.ref.trans a.ref

theorem mono (a : s.LeavesWindows offs t) (h : offs ⊆ offs') : s.LeavesWindows offs' t :=
  { a with only := ⟨fun o ho => a.only.1 o fun hmem => ho (h hmem), a.only.2⟩ }

/-- What has the registers and memory of s itself. -/
theorem of_same (hr : ∀ o, t.rd o = s.rd o) (hm : ∀ a, t.byte a = s.byte a) (hw : t.tal.windows = s.tal.windows)
    (ht : t.tim = s.tim) (hn : t.refNs = s.refNs) : s.LeavesWindows offs t :=
  ⟨⟨fun o _ => hr o, hm⟩, hw, ht, hn⟩

theorem refl (s : State) : s.LeavesWindows offs s := of_same (fun _ => rfl) (fun _ => rfl) rfl rfl rfl

theorem ite {c : Prop} [Decidable c] (a : s.LeavesWindows offs t) (b : s.LeavesWindows offs u) :
    s.LeavesWindows offs (if c then t else u) := by
  split <;> assumption

/-- A change of the Tally beside its windows. -/
theorem updTal (s : State) (f : Tally → Tally) (h : (f s.tal).windows = s.tal.windows) : s.LeavesWindows offs (s.updTal f) :=
  of_same (fun _ => rfl) (fun _ => rfl) h rfl rfl

theorem setBit (s : State) (off n : Nat) (b : Bool) (h : off ∈ offs) : s.LeavesWindows offs (s.setBit off n b) :=
  ⟨⟨fun _ ho => s.rd_setBit_ne (ne_of_mem_of_not_mem h ho).symm n b, fun _ => rfl⟩, rfl, rfl, rfl⟩

theorem noteFall (s : State) (was : Bool) : s.LeavesWindows offs (s.noteFall was) := by
  obtain ⟨low, b, o, h⟩ := s.noteFall_eq was
  rw [h]
  exact of_same (fun _ => rfl) (fun _ => rfl) rfl rfl rfl

theorem ns (a : s.LeavesWindows offs t) : t.ns = s.ns := by
  rw [State.ns, State.ns, a.tim]

theorem fld (a : s.LeavesWindows offs t) {o : Nat} (h : o ∉ offs) (hi lo : Nat) : t.fld o hi lo = s.fld o hi lo := by
  rw [State.fld, State.fld, a.only.1 o h]

theorem bit (a : s.LeavesWindows offs t) {o : Nat} (h : o ∉ offs) (n : Nat) : t.bit o n = s.bit o n := by
  rw [State.bit, State.bit, a.only.1 o h]

end State.LeavesWindows

theorem State.noteFall_waiting (s : State) (was : Bool) : (s.noteFall was).tal.waiting = s.tal.waiting := by
  obtain ⟨low, b, o, h⟩ := s.noteFall_eq was
  rw [h]

theorem State.noteFall_cmd (s : State) (was : Bool) : (s.noteFall was).cmd = s.cmd := by
  obtain ⟨low, b, o, h⟩ := s.noteFall_eq was
  rw [h]

/-! ### Pending bits (R445) -/

theorem State.setPending_of_classC (s : State) {m : Msg} (h : 2 ≤ m.cls) : s.setPending m = s := if_pos h

/-- A message of class A or B sets its bit and joins the bit's set of stalls. -/
theorem State.setPending_eq (s : State) {m : Msg} (h : m.cls < 2) :
    ∃ l, s.setPending m = (s.setBit (Reg.TAL_PENDING (m.kind / 32)) (m.kind % 32) true).updTal fun t => { t with silence := l } :=
  ⟨_, if_neg (Nat.not_le.mpr h)⟩

theorem State.setPending_leavesWindows (s : State) (m : Msg) : s.LeavesWindows [Reg.TAL_PENDING (m.kind / 32)] (s.setPending m) := by
  by_cases h : m.cls < 2
  · obtain ⟨l, hset⟩ := s.setPending_eq h
    rw [hset]
    exact (State.LeavesWindows.setBit s _ _ _ List.mem_cons_self).trans (.updTal _ _ rfl)
  · rw [s.setPending_of_classC (Nat.not_lt.mp h)]
    exact .refl s

theorem State.setPending_waiting (s : State) (m : Msg) : (s.setPending m).tal.waiting = s.tal.waiting := by
  unfold State.setPending
  split <;> rfl

theorem State.setPending_cmd (s : State) (m : Msg) : (s.setPending m).cmd = s.cmd := by
  unfold State.setPending
  split <;> rfl

theorem State.setPending_isPending (s : State) {m : Msg} (h : m.cls < 2) : (s.setPending m).isPending m.kind = true := by
  obtain ⟨l, hset⟩ := s.setPending_eq h
  rw [hset, State.isPending, State.updTal_bit, State.bit_setBit _ _ _ _ (Nat.mod_lt _ (by decide)), if_pos rfl]

/-! ### The journal's bit (R290) -/

theorem State.journalDown_leavesWindows (s : State) (a : Nat) : s.LeavesWindows [Reg.CMD_STATUS] (s.journalDown a) := by
  by_cases h : s.cmd.journalLost = true
  · rw [State.journalDown_of_lost h]
    exact .refl s
  · obtain ⟨b, e, r, hdown⟩ := State.journalDown_eq (Bool.not_eq_true _ ▸ h) a
    rw [hdown]
    exact (State.LeavesWindows.setBit s Reg.CMD_STATUS 31 false List.mem_cons_self).trans
      (.of_same (fun _ => rfl) (fun _ => rfl) rfl rfl rfl)

/-- The journal is out of use after its failure, for the first time or again. -/
theorem State.journalDown_lost (s : State) (a : Nat) : (s.journalDown a).cmd.journalLost = true := by
  by_cases h : s.cmd.journalLost = true
  · rw [State.journalDown_of_lost h, h]
  · obtain ⟨b, e, r, hdown⟩ := State.journalDown_eq (Bool.not_eq_true _ ▸ h) a
    rw [hdown]

theorem State.journalDown_journalOk {s : State} (h : s.cmd.journalLost = false) (a : Nat) : (s.journalDown a).journalOk = false := by
  obtain ⟨b, e, r, hdown⟩ := State.journalDown_eq h a
  rw [hdown]
  change (s.setBit Reg.CMD_STATUS 31 false).bit Reg.CMD_STATUS 31 = false
  rw [State.bit_setBit _ _ _ _ (by decide), if_pos rfl]

/-! ### The message is taken -/

/-- The Tally has taken a message from its source, set its pending bit, moved FAULT_N, and stopped the HyperRAM history where the message says that the HyperRAM fails it (R440, R445, R451, R452). -/
def State.noteMessage (s : State) (m : Msg) : State :=
  let t := ((s.updTal fun t => { t with waiting := t.waiting.erase m }).setPending m).noteFall s.faultLow
  if m.kind = Kind.HRAM_NO_RESPONSE ∨ (m.kind = Kind.HRAM_UE ∧ inHistory m.addr) then t.updTal fun t => { t with histStopped := true } else t

/-- The message is an uncorrectable error in the journal's area (R290). -/
abbrev Msg.hitsJournal (m : Msg) : Prop := m.kind = Kind.HRAM_UE ∧ inJournal m.addr

/-- The Tally has done with a message what comes before coalescing. -/
def State.takeMessage (s : State) (m : Msg) : State :=
  if m.hitsJournal then (s.noteMessage m).journalDown m.addr else s.noteMessage m

/-- The source's oldest message is taken, coalesced, and its kind's reaction applied where it is the first in its window, or SILENCE. -/
theorem exec_faultMessageArrive_eq {s : State} {src : BitVec 12} {m : Msg}
    (h : (s.tal.waiting.find? fun m => m.source == src.toNat) = some m) :
    exec (.faultMessageArrive src) s =
      .next (if ((s.takeMessage m).coalesce m).1 = true ∨ (s.takeMessage m).fld (Reg.TAL_REACT m.kind) 1 0 = 1
        then ((s.takeMessage m).coalesce m).2.react m else ((s.takeMessage m).coalesce m).2) := by
  change execFaultMessageArrive src s = _
  rw [execFaultMessageArrive, h]
  rfl

theorem State.noteMessage_leavesWindows_of_classC (s : State) {m : Msg} (h : 2 ≤ m.cls) {offs : List Nat} : s.LeavesWindows offs (s.noteMessage m) := by
  have hfall := State.LeavesWindows.trans (offs := offs)
    (.updTal s (fun t => { t with waiting := t.waiting.erase m }) rfl) (.noteFall _ s.faultLow)
  unfold State.noteMessage
  rw [State.setPending_of_classC _ h]
  exact .ite (hfall.trans (.updTal _ _ rfl)) hfall

theorem State.noteMessage_leavesWindows (s : State) (m : Msg) : s.LeavesWindows [Reg.TAL_PENDING (m.kind / 32)] (s.noteMessage m) := by
  have hfall := ((State.LeavesWindows.updTal s (fun t => { t with waiting := t.waiting.erase m }) rfl).trans
    (State.setPending_leavesWindows _ m)).trans (.noteFall _ s.faultLow)
  exact .ite (hfall.trans (.updTal _ _ rfl)) hfall

theorem State.noteMessage_waiting (s : State) (m : Msg) : (s.noteMessage m).tal.waiting = s.tal.waiting.erase m := by
  have hfall := (State.noteFall_waiting ((s.updTal fun t => { t with waiting := t.waiting.erase m }).setPending m) s.faultLow).trans
    (State.setPending_waiting _ m)
  unfold State.noteMessage
  split <;> exact hfall

theorem State.noteMessage_cmd (s : State) (m : Msg) : (s.noteMessage m).cmd = s.cmd := by
  have hfall := (State.noteFall_cmd ((s.updTal fun t => { t with waiting := t.waiting.erase m }).setPending m) s.faultLow).trans
    (State.setPending_cmd _ m)
  unfold State.noteMessage
  split <;> exact hfall

theorem State.noteMessage_isPending (s : State) {m : Msg} (h : m.cls < 2) : (s.noteMessage m).isPending m.kind = true := by
  have hfall := ((State.LeavesWindows.noteFall (offs := []) ((s.updTal fun t => { t with waiting := t.waiting.erase m }).setPending m)
    s.faultLow).bit List.not_mem_nil _).trans (State.setPending_isPending _ h)
  unfold State.noteMessage
  split <;> exact hfall

/-- A message that spares the journal is only noted. -/
theorem State.takeMessage_of_spares (s : State) {m : Msg} (h : m.kind ≠ Kind.HRAM_UE ∨ inJournal m.addr = false) :
    s.takeMessage m = s.noteMessage m := by
  refine if_neg fun ⟨hkind, hjournal⟩ => ?_
  rcases h with h | h
  · exact h hkind
  · simp [h] at hjournal

theorem State.takeMessage_of_hits (s : State) {m : Msg} (h : m.hitsJournal) :
    s.takeMessage m = (s.noteMessage m).journalDown m.addr := if_pos h

/-- Taking a message touches the windows in no case, and of the registers its pending word and the journal's bit at most. -/
theorem State.takeMessage_leavesWindows (s : State) (m : Msg) :
    s.LeavesWindows [Reg.TAL_PENDING (m.kind / 32), Reg.CMD_STATUS] (s.takeMessage m) := by
  have hnote := (s.noteMessage_leavesWindows m).mono (offs' := [Reg.TAL_PENDING (m.kind / 32), Reg.CMD_STATUS]) (by simp)
  exact .ite (hnote.trans ((State.journalDown_leavesWindows _ m.addr).mono (by simp))) hnote

theorem talReact_ne_talPending (k : Nat) : Reg.TAL_REACT k ≠ Reg.TAL_PENDING (k / 32) := by
  simp only [Reg.TAL_REACT, Reg.TAL_PENDING]
  omega

/-- Taking a message leaves its kind's reaction: only HRAM_UE, whose words are none of the journal's, puts the journal out of use. -/
theorem State.takeMessage_react (s : State) (m : Msg) :
    (s.takeMessage m).fld (Reg.TAL_REACT m.kind) 1 0 = s.fld (Reg.TAL_REACT m.kind) 1 0 := by
  have hnote : (s.noteMessage m).fld (Reg.TAL_REACT m.kind) 1 0 = s.fld (Reg.TAL_REACT m.kind) 1 0 :=
    (s.noteMessage_leavesWindows m).fld (by simpa using talReact_ne_talPending m.kind) 1 0
  by_cases h : m.hitsJournal
  · have hword : Reg.TAL_REACT m.kind ∉ [Reg.CMD_STATUS] := by rw [h.1]; decide
    rw [s.takeMessage_of_hits h, (State.journalDown_leavesWindows _ m.addr).fld hword, hnote]
  · rw [State.takeMessage, if_neg h, hnote]

/-! ### Coalescing (R446, R447) -/

/-- The window that a message opens in state s. -/
def State.opened (s : State) (m : Msg) : Win := { msg := m, time := s.ns, due := s.refNs + 10000, kinds := [m.kind] }

theorem State.coalesce_of_nil {s : State} (h : s.tal.windows = []) (m : Msg) :
    s.coalesce m = (true, s.updTal fun t => { t with windows := [s.opened m] }) := by
  simp [State.coalesce, State.updTal, State.opened, h]

theorem State.coalesce_of_matches {s : State} {w : Win} {m : Msg} (h : s.tal.windows = [w]) (hm : w.matches m = true) :
    (s.coalesce m).2 = s.updTal fun t => { t with windows := [w.merge m] } := by
  simp [State.coalesce, State.updTal, h, hm, updAt]

/-- Reaction NONE (R444). -/
theorem State.react_of_none {s : State} {m : Msg} (h : s.fld (Reg.TAL_REACT m.kind) 1 0 = 0) : s.react m = s := by
  simp only [State.react, h]

/-- A message whose kind's reaction is NONE is taken and coalesced, and nothing more, where coalescing leaves the reactions. -/
theorem exec_faultMessageArrive_none {s t : State} {src : BitVec 12} {m : Msg}
    (hfind : (s.tal.waiting.find? fun m => m.source == src.toNat) = some m) (hreact : s.fld (Reg.TAL_REACT m.kind) 1 0 = 0)
    (hcoal : ((s.takeMessage m).coalesce m).2 = t)
    (ht : t.fld (Reg.TAL_REACT m.kind) 1 0 = (s.takeMessage m).fld (Reg.TAL_REACT m.kind) 1 0) :
    exec (.faultMessageArrive src) s = .next t := by
  rw [exec_faultMessageArrive_eq hfind, hcoal, State.react_of_none (ht.trans ((s.takeMessage_react m).trans hreact)), ite_self]

/-- With no window open the message opens one. -/
theorem exec_faultMessageArrive_opens {s : State} {src : BitVec 12} {m : Msg}
    (hfind : (s.tal.waiting.find? fun m => m.source == src.toNat) = some m) (hreact : s.fld (Reg.TAL_REACT m.kind) 1 0 = 0)
    (hwin : s.tal.windows = []) :
    exec (.faultMessageArrive src) s = .next ((s.takeMessage m).updTal fun t => { t with windows := [s.opened m] }) := by
  have htake := s.takeMessage_leavesWindows m
  have hopen : (s.takeMessage m).opened m = s.opened m := by rw [State.opened, State.opened, htake.ns, htake.ref]
  exact exec_faultMessageArrive_none hfind hreact (by rw [State.coalesce_of_nil (htake.windows.trans hwin), hopen]) rfl

/-- A message that matches the only open window joins it. -/
theorem exec_faultMessageArrive_joins {s : State} {src : BitVec 12} {m : Msg} {w : Win}
    (hfind : (s.tal.waiting.find? fun m => m.source == src.toNat) = some m) (hreact : s.fld (Reg.TAL_REACT m.kind) 1 0 = 0)
    (hwin : s.tal.windows = [w]) (hm : w.matches m = true) :
    exec (.faultMessageArrive src) s = .next ((s.takeMessage m).updTal fun t => { t with windows := [w.merge m] }) :=
  exec_faultMessageArrive_none hfind hreact (State.coalesce_of_matches ((s.takeMessage_leavesWindows m).windows.trans hwin) hm) rfl

/-! ### The root (R447) -/

theorem Win.matches_iff (w : Win) (m : Msg) :
    w.matches m = true ↔ w.msg.addr = m.addr ∧ (w.msg.kind = m.kind ∨ w.msg.source = 0x180 ∨ m.source = 0x180) := by
  simp [Win.matches, or_assoc]

theorem Win.merge_addr (w : Win) (m : Msg) : (w.merge m).msg.addr = w.msg.addr := by
  simp only [Win.merge]
  split <;> rfl

/-- The fabric's own report gives way to the root that another source names. -/
theorem Win.merge_root_replaced {w : Win} {m : Msg} (hw : w.msg.source = 0x180) (hm : m.source ≠ 0x180) :
    (w.merge m).msg.source = m.source ∧ (w.merge m).msg.kind = m.kind := by
  simp [Win.merge, hw, hm]

/-- A root from another source stands, and the fabric replaces none. -/
theorem Win.merge_root_stands {w : Win} {m : Msg} (h : w.msg.source ≠ 0x180 ∨ m.source = 0x180) :
    (w.merge m).msg.source = w.msg.source ∧ (w.merge m).msg.kind = w.msg.kind := by
  rcases h with h | h
  · simp [Win.merge, h]
  · simp [Win.merge, h]

/-! ### The obligation -/

/-- Settles O21: taking a message leaves the windows, so that it opens or joins one with the reactions as they stood; the root follows from the merge. -/
theorem messagesArrive : Obligations.MessagesArrive := by
  unfold Obligations.MessagesArrive
  refine ⟨?_, ?_, ?_, ?_, ?_, ?_, ?_⟩
  · intro s src m hfind _ hspare hcls hreact hwin
    have htake := s.takeMessage_of_spares hspare
    refine ⟨_, exec_faultMessageArrive_opens hfind hreact hwin, ?_, rfl, ?_, ?_⟩
    · rw [htake]
      exact s.noteMessage_isPending hcls
    · rw [htake]
      exact s.noteMessage_waiting m
    · rw [htake]
      exact (s.noteMessage_leavesWindows m).only
  · intro s src m hfind hspare hcls hreact hwin
    refine ⟨_, exec_faultMessageArrive_opens hfind hreact hwin, rfl, ?_⟩
    rw [s.takeMessage_of_spares hspare]
    exact (s.noteMessage_leavesWindows_of_classC (Nat.le_of_eq hcls.symm)).only
  · intro s src m w hfind hspare hcls hreact hwin haddr hkind hsrc
    have hmatch := (w.matches_iff m).mpr ⟨haddr, .inl hkind⟩
    refine ⟨_, exec_faultMessageArrive_joins hfind hreact hwin hmatch, ?_, ?_⟩
    · have hroot : (w.merge m).msg.source = m.source :=
        (Win.merge_root_stands ((Decidable.em (w.msg.source = 0x180)).symm.imp_right hsrc.symm.trans)).1.trans hsrc
      exact congrArg (fun x => [(min (w.msg.count + m.count) (2 ^ 14 - 1), x, w.time, w.due)]) hroot
    · rw [s.takeMessage_of_spares hspare]
      exact (s.noteMessage_leavesWindows_of_classC (Nat.le_of_eq hcls.symm)).only
  · intro s src m w hfind hreact hwin haddr hw hm
    have hmatch := (w.matches_iff m).mpr ⟨haddr, .inr (.inl hw)⟩
    obtain ⟨hsrc, hkind⟩ := Win.merge_root_replaced hw hm
    refine ⟨_, exec_faultMessageArrive_joins hfind hreact hwin hmatch, ?_⟩
    simp only [State.updTal, List.map_cons, List.map_nil, hsrc, hkind, w.merge_addr m, haddr]
    rfl
  · intro s src m w hfind hreact hwin haddr hroot
    have hmatch := (w.matches_iff m).mpr ⟨haddr, hroot.elim (fun h => .inr (.inr h)) fun h => .inl h.2⟩
    obtain ⟨hsrc, hkind⟩ := Win.merge_root_stands (hroot.elim .inr fun h => .inl h.1)
    refine ⟨_, exec_faultMessageArrive_joins hfind hreact hwin hmatch, ?_⟩
    simp only [State.updTal, List.map_cons, List.map_nil, hsrc, hkind, w.merge_addr m]
    rfl
  · intro s m w hwin hmatch
    exact ⟨by rw [State.coalesce_of_matches hwin hmatch]; rfl, Win.merge_root_replaced, Win.merge_root_stands⟩
  · rintro s src m hfind ⟨hkind, hjournal, hcls⟩ hlost hreact hwin
    have htake := s.takeMessage_of_hits ⟨hkind, hjournal⟩
    have hword : Reg.TAL_PENDING (m.kind / 32) ∉ [Reg.CMD_STATUS] := by rw [hkind]; decide
    have hnote : (s.noteMessage m).cmd.journalLost = false := by rw [s.noteMessage_cmd m, hlost]
    refine ⟨_, exec_faultMessageArrive_opens hfind hreact hwin, ?_, rfl, ?_, ?_, ?_⟩
    · rw [htake]
      exact ((State.journalDown_leavesWindows _ m.addr).bit hword _).trans (s.noteMessage_isPending hcls)
    · rw [htake]
      exact State.journalDown_journalOk hnote m.addr
    · rw [htake]
      exact State.journalDown_lost _ m.addr
    · exact (s.takeMessage_leavesWindows m).only.2

end Sys2Proof.Machine
end

section
/-!
THE WATT CAP (R502, R503, R509, R510): the two clamps of the watt-derived limit are one, and a period of the cap loop changes the
power core's own state, the caps, and the messages that wait.
-/
namespace Sys2Proof.Machine

/-! ### A number held between two bounds -/

theorem le_clampNat {lo hi : Nat} (h : lo ≤ hi) (n : Nat) : lo ≤ clampNat n lo hi := Nat.le_min.mpr ⟨Nat.le_max_right n lo, h⟩

theorem clampNat_le_hi (n lo hi : Nat) : clampNat n lo hi ≤ hi := Nat.min_le_right _ _

theorem clampNat_le_of_le {n lo m : Nat} (hn : n ≤ m) (hlo : lo ≤ m) (hi : Nat) : clampNat n lo hi ≤ m :=
  Nat.le_trans (Nat.min_le_left _ _) (Nat.max_le.mpr ⟨hn, hlo⟩)

theorem clampNat_of_mem {n lo hi : Nat} (hlo : lo ≤ n) (hhi : n ≤ hi) : clampNat n lo hi = n := by
  rw [clampNat, Nat.max_eq_left hlo, Nat.min_eq_left hhi]

/-- Clamping to two ranges that meet is clamping to what they share. -/
theorem clampNat_clampNat {lo hi lo' hi' : Nat} (h : lo ≤ hi') (h' : lo' ≤ hi) (hr : lo' ≤ hi') (n : Nat) :
    clampNat (clampNat n lo hi) lo' hi' = clampNat n (max lo lo') (min hi hi') := by
  simp only [clampNat]
  omega

/-! ### The next limit (R502, R509, R510) -/

variable {c p watts : Nat}

theorem nextLimit_of_trip (high : Bool) (c p watts : Nat) : nextLimit true high c p watts = 95 := rfl

theorem nextLimit_of_high (c p watts : Nat) : nextLimit false true c p watts = max 95 (c * 9 / 10) := rfl

/-- With neither condition the limit follows the mean within a tenth and within 95 to 1,500 at once. -/
theorem nextLimit_of_cool (hlo : 95 ≤ c) (hhi : c ≤ 1500) (p watts : Nat) :
    nextLimit false false c p watts =
      clampNat (c * (watts * 10) / max p 1) (max (c * 9 / 10) 95) (min (c * 11 / 10) 1500) :=
  clampNat_clampNat (by omega) (by omega) (by decide) _

theorem nextLimit_bounds (trip high : Bool) (hlo : 95 ≤ c) (hhi : c ≤ 1500) (p watts : Nat) :
    95 ≤ nextLimit trip high c p watts ∧ nextLimit trip high c p watts ≤ 1500 := by
  match trip, high with
  | true, high => rw [nextLimit_of_trip]; decide
  | false, true => rw [nextLimit_of_high]; omega
  | false, false =>
    rw [nextLimit_of_cool hlo hhi]
    exact ⟨Nat.le_trans (Nat.le_max_right _ _) (le_clampNat (by omega) _), Nat.le_trans (clampNat_le_hi _ _ _) (Nat.min_le_right _ _)⟩

theorem nextLimit_le_of_high (trip : Bool) (hlo : 95 ≤ c) (p watts : Nat) : nextLimit trip true c p watts ≤ c := by
  cases trip with
  | true => exact hlo
  | false => rw [nextLimit_of_high]; omega

theorem nextLimit_moves_at_most_tenth (hlo : 95 ≤ c) (hhi : c ≤ 1500) (p watts : Nat) :
    c * 9 / 10 ≤ nextLimit false false c p watts ∧ nextLimit false false c p watts ≤ c * 11 / 10 := by
  rw [nextLimit_of_cool hlo hhi]
  exact ⟨Nat.le_trans (Nat.le_max_left _ _) (le_clampNat (by omega) _), Nat.le_trans (clampNat_le_hi _ _ _) (Nat.min_le_left _ _)⟩

/-- Where the mean equals the cap the quotient is the limit itself. -/
theorem nextLimit_stays (hlo : 95 ≤ c) (hhi : c ≤ 1500) (hp : 0 < watts * 10) : nextLimit false false c (watts * 10) watts = c := by
  have hquot : c * (watts * 10) / max (watts * 10) 1 = c := by rw [Nat.max_eq_left hp, Nat.mul_div_cancel _ hp]
  rw [nextLimit_of_cool hlo hhi, hquot]
  exact clampNat_of_mem (by omega) (by omega)

/-- A mean at or above the cap makes the quotient no greater than the limit. -/
theorem nextLimit_le_of_cap_le_mean (trip high : Bool) (hlo : 95 ≤ c) (hhi : c ≤ 1500) (h : watts * 10 ≤ p) :
    nextLimit trip high c p watts ≤ c := by
  match trip, high with
  | true, _ => exact hlo
  | false, true => exact nextLimit_le_of_high false hlo p watts
  | false, false =>
    have hquot : c * (watts * 10) / max p 1 ≤ c :=
      Nat.div_le_of_le_mul (Nat.mul_comm (max p 1) c ▸ Nat.mul_le_mul_left c (Nat.le_trans h (Nat.le_max_left p 1)))
    rw [nextLimit_of_cool hlo hhi]
    exact clampNat_le_of_le hquot (by omega) _

/-! ### What a period of the cap loop leaves -/

/-- The power core's write of the caps changes registers only. -/
theorem State.writeCaps_eq (s : State) (c : Nat) : ∃ r, s.writeCaps c = { s with regs := r } := by
  unfold State.writeCaps
  refine List.foldlRecOn (motive := fun t : State => ∃ r, t = { s with regs := r }) _ _ ⟨s.regs, rfl⟩ ?_
  rintro _ ⟨r, rfl⟩ k -
  split
  · exact ⟨_, rfl⟩
  · exact ⟨r, rfl⟩

@[simp] theorem State.writeCaps_pwr (s : State) (c : Nat) : (s.writeCaps c).pwr = s.pwr := by
  obtain ⟨r, h⟩ := s.writeCaps_eq c
  rw [h]

@[simp] theorem State.writeCaps_tal (s : State) (c : Nat) : (s.writeCaps c).tal = s.tal := by
  obtain ⟨r, h⟩ := s.writeCaps_eq c
  rw [h]

/-- What a detection does to the Tally depends on the Tally alone. -/
theorem State.report_tal_congr {s t : State} (h : t.tal = s.tal) (src kind stall addr : Nat) :
    (t.report src kind stall addr).tal = (s.report src kind stall addr).tal := by
  simp only [State.report, h]

/-- The power core's own state after its update: neither the caps nor a detection touch it. -/
theorem State.capPeriod_pwr (s : State) (f : Power → Power) (c : Nat) (b : Bool) (src kind stall addr : Nat) :
    (if b = true then ((s.updPwr f).writeCaps c).report src kind stall addr else (s.updPwr f).writeCaps c).pwr = f s.pwr := by
  split <;> exact (s.updPwr f).writeCaps_pwr c

/-- A detection under a condition, reported at a state of the same Tally. -/
theorem State.reportIf_tal {s t : State} (h : t.tal = s.tal) (b : Bool) (src kind stall addr : Nat) :
    (if b = true then t.report src kind stall addr else t).tal = if b = true then (s.report src kind stall addr).tal else s.tal := by
  split
  · exact State.report_tal_congr h src kind stall addr
  · exact h

/-! ### The obligation -/

/-- Settles O25: the limit's clauses by its three branches; a period writes the counts into the power core's state, and neither the caps nor the report touch them. -/
theorem wattLimitBounds : Obligations.WattLimitBounds := by
  unfold Obligations.WattLimitBounds
  refine ⟨?_, ?_⟩
  · intro trip high c p watts hlo hhi
    obtain ⟨hge, hle⟩ := nextLimit_bounds trip high hlo hhi p watts
    refine ⟨hge, hle, ?_, ?_, ?_, ?_, nextLimit_le_of_cap_le_mean trip high hlo hhi⟩
    · rintro rfl
      exact nextLimit_of_trip high c p watts
    · rintro rfl
      exact nextLimit_le_of_high trip hlo p watts
    · rintro rfl rfl
      exact nextLimit_moves_at_most_tenth hlo hhi p watts
    · rintro rfl rfl rfl hp
      exact nextLimit_stays hlo hhi hp
  · intro s mean watts c above met fire hlive
    have hpwr (f : Power → Power) := s.capPeriod_pwr f c fire 0x102 Kind.CAP_UNMET 0 (mean + watts * 2 ^ 16)
    exact ⟨_, congrArg Host.Outcome.next (if_pos hlive), congrArg Power.above (hpwr _), congrArg Power.met (hpwr _),
      State.reportIf_tal (State.writeCaps_tal _ c) fire _ _ _ _, congrArg Power.unmetArmed (hpwr _)⟩

end Sys2Proof.Machine
end
